-- ==== Sys2Proof/Word.lean ====
section
/-! DEFINITION. The word types of the FX4820 and the plainest operations on bytes, bit fields and fixed arrays. -/

namespace Sys2Proof

/-- One byte of a frame, a packet or a stored record (00 R19, R20). -/
abbrev Byte := BitVec 8

/-- The 32-bit carrier in which every parameter value travels (00 R14). -/
abbrev Word := BitVec 32

/-- A parameter ID: page in bits [15:8], index in bits [7:0] (00 R12). -/
abbrev Pid := BitVec 16

/-- Read entry `i` of a fixed array; `d` outside it. -/
def vget {α : Type} {n : Nat} (v : Vector α n) (i : Nat) (d : α) : α :=
  if h : i < n then v[i] else d

/-- Change entry `i` of a fixed array; nothing outside it. -/
def vmod {α : Type} {n : Nat} (v : Vector α n) (i : Nat) (f : α → α) : Vector α n :=
  if h : i < n then v.set i (f v[i]) else v

/-- Write entry `i` of a fixed array; nothing outside it. -/
def vset {α : Type} {n : Nat} (v : Vector α n) (i : Nat) (a : α) : Vector α n :=
  vmod v i (fun _ => a)

/-- The bytes of the low `8 * k` bits of a number, most significant first (00 R20). -/
def beBytes : Nat → Nat → List Byte
  | 0, _ => []
  | k + 1, x => BitVec.ofNat 8 (x / 2 ^ (8 * k)) :: beBytes k x

/-- The number a list of bytes spells, most significant byte first (00 R20). -/
def beNat (bs : List Byte) : Nat :=
  bs.foldl (fun acc b => acc * 256 + b.toNat) 0

/-- Bit `i` of a number as a flag (00 R19). -/
def bit (x i : Nat) : Bool := x.testBit i

/-- A flag as the number 0 or 1. -/
def b2n (b : Bool) : Nat := if b then 1 else 0

/-- Write bit `i` of a word. -/
def putBit {n : Nat} (v : BitVec n) (i : Nat) (b : Bool) : BitVec n :=
  if b then v ||| BitVec.ofNat n (2 ^ i) else v &&& ~~~(BitVec.ofNat n (2 ^ i))

/-- Bits `[hi:lo]` of a number (00 R19). -/
def bits (x hi lo : Nat) : Nat := x / 2 ^ lo % 2 ^ (hi + 1 - lo)

/-- The number whose bit `i` is flag `i` of the list, from bit 0 up. -/
def packFlags : List Bool → Nat
  | [] => 0
  | b :: bs => b2n b + 2 * packFlags bs

/-- Add one to a count that stops at its largest value. -/
def satAdd (x d max : Nat) : Nat := min (x + d) max

end Sys2Proof
end

