-- ==== Sys2Proof/Syntax.lean ====
section
/-! DEFINITION. The commands of the block: one constructor of `Instr` for each row of the table of operations and
events. An opcode row is one command packet of that opcode, taken from the window and executed at its effect tick
(06 R269); an event row carries what the outside decides (a level, a received frame, whether an NV write held). -/

namespace Sys2Proof

/-- The fields every packet carries besides its opcode and payload (06 R264): whether DEST was the broadcast code, the
client, and the sequence number. -/
structure Hdr where
  bcast : Bool
  src   : Byte
  seq   : Byte
  deriving DecidableEq, Repr

/-- A channel mask: four bytes, or eight with the tail's bits [63:32] first (06 R942, 19 R842). -/
structure Mask where
  wide : Bool
  bits : BitVec 64
  deriving DecidableEq, Repr

/-- What a boot finds outside the core die (03 R129, R130, R131, R327). -/
structure BootEnv where
  /-- CKI qualifies in time to be selected. -/
  cki      : Bool
  /-- The crystal qualifies within step 2. -/
  crystal  : Bool
  /-- The ROM's CRC-32 matches the value stored in it. -/
  romGood  : Bool
  /-- Sixteen good up frames and the FREV answer arrive within step 5. -/
  seamUp   : Bool
  /-- The field-die revision that FREV answers. -/
  frev     : Byte
  /-- VDDA good, VHTR present and VDRV present in the first j = 0 byte. -/
  vdda     : Bool
  vhtr     : Bool
  vdrv     : Bool
  /-- Level of TESTEN at the release of the reset (02 R89). -/
  testen   : Bool
  /-- Duration of this boot, as DIAG.BOOT_US reports it (20 R897). -/
  bootUs   : Word
  /-- What arrived last on the IN port during the reset and its boot, and is relayed (02 R92, R117): a header, a command window, slots and
  guard. -/
  header   : Option (BitVec 512)
  window   : Option (List Byte)
  region   : Option (List Byte)
  deriving DecidableEq, Repr

/-- One up frame's tick as the field die sees it (01 R47–R50), and the error pattern its 128 bits pick up on the lanes. -/
structure UpIn where
  /-- Codes of modulators 0–22, modulator 0 in the top four bits. -/
  codes   : BitVec 92
  /-- Pins clamped in the tick: bytes j = 1 (top) to j = 8 in the order of R50. -/
  pins    : BitVec 64
  /-- Drivers at their limit: bits 0–3 heaters, bits 4–5 bridges. -/
  ilim    : BitVec 6
  /-- The field die's thermal warning. -/
  warn    : Bool
  /-- Bits inverted on the way; zero for a frame that arrives as sent. -/
  err     : BitVec 128
  deriving DecidableEq, Repr

/-- One HELLO message of the pole link (19 R824). -/
structure Hello where
  serial  : BitVec 64
  romRev  : BitVec 16
  frev    : Byte
  hop     : Byte
  peg     : Byte
  state   : Byte
  mode    : Byte
  partner : Byte
  phase   : Byte
  paired  : Byte
  digest  : Word
  deriving DecidableEq, Repr

/-- One energy request of a REQ message (19 R824). -/
structure TailReq where
  task      : Byte
  cls       : Byte
  energy    : BitVec 16
  current   : BitVec 16
  allowance : Byte
  age       : Word
  deriving DecidableEq, Repr

/-- The caps a REQ message reports (19 R824). -/
structure TailCaps where
  thermal : BitVec 16
  current : BitVec 16
  flags   : Byte
  deriving DecidableEq, Repr

/-- The commands. Each constructor's mnemonic is that of its row (LAWS.json). -/
inductive Instr where
  -- power, reset and supply (03, 01 R939, 02 R97)
  | powerOn (e : BootEnv)
  | brownOut (e : BootEnv)
  | resetPin (e : BootEnv)
  | claimHoldoffEnd
  | fieldDieReset
  | vhtrPresentChange (present : Bool)
  | vdrvPresentChange (present : Bool)
  -- clock (01 R36–R41)
  | missingEdge
  | clockReturn
  | sckLoss
  -- wake and DORMANT (03 R139, R156–R158)
  | wakeCki (e : BootEnv)
  | wakePin (e : BootEnv)
  | wakeInVigil
  | dormantArm (ok : Bool)
  | dormantEntry
  | resetStart (e : BootEnv)
  -- Seam (01)
  | upFrame (u : UpIn)
  | downFrame (err : BitVec 64)
  | downFrameTimeout
  | driveWordApply
  | housekeepingStep
  -- header and pitch (04, 05); `shift` is the distance, in CLK, of this SYNCWORD from the grid's own p = 0
  | superframeHeader (h : BitVec 512) (shift : Word)
  | headerArm (armId : BitVec 16)
  | headerDisarm (armId : BitVec 16)
  | headerSync (syncAt : BitVec 16)
  | pitchAll (field : Byte)
  | pitchCount (field : Byte)
  | pitchFill (field : Byte)
  | pitchSticky (field : Byte)
  | pitchDrop (field : Byte)
  | pitchMeasure (field : Byte)
  | bulkGrant (peg : Byte) (len : BitVec 16)
  | firePass (key : BitVec 56)
  | resolvePass (firePeg : Byte) (key : BitVec 56)
  | confirmPass (firePeg : Byte) (key : BitVec 56)
  | beaconHeader (h : BitVec 512)
  | orphanBeacon
  | dataLossBeacon
  -- slot and window (04, 06)
  | slotWrite (region : List Byte)
  | pegClashRelease
  | commandWindow (window : List Byte)
  | eventLost
  -- opcodes (06 R295)
  | nop (h : Hdr)
  | hello (h : Hdr)
  | getp (h : Hdr) (ids : List Pid)
  | setp (h : Hdr) (pairs : List (Pid × Word))
  | getblk (h : Hdr) (first : Pid) (count : Byte) (via : Byte)
  | stateQuery (h : Hdr)
  | stateIdle (h : Hdr)
  | stateRun (h : Hdr)
  | stateVigil (h : Hdr)
  | stateSafe (h : Hdr)
  | stateDormant (h : Hdr)
  | resetCmd (h : Hdr)
  | resetDefaults (h : Hdr)
  | claimCoded (h : Hdr) (role : Byte) (code : BitVec 64)
  | claimQuery (h : Hdr) (role : Byte)
  | grant (h : Hdr) (client : Byte) (role : Byte)
  | release (h : Hdr)
  | rightsRecordWrite (ok : Bool)
  | logread (h : Hdr) (source : Byte) (first : Word) (count : BitVec 16) (via : Byte)
  | logseal (h : Hdr)
  | logSealTask (ok : Bool)
  | logmark (h : Hdr) (mark : BitVec 16) (value : Word)
  | logFreeTo (h : Hdr) (seq : Word)
  | logPolicy (h : Hdr) (policy : Word)
  | timeset (h : Hdr) (wall : BitVec 64) (tick : BitVec 48)
  | slewStep
  | counterWrap
  | timeq (h : Hdr)
  | chstart (h : Hdr) (mask : Mask)
  | chstop (h : Hdr) (mask : Mask)
  | range (h : Hdr) (channel : Byte) (range : Byte)
  | rangeChangeRelease (n : Fin 8)
  | decadeChangeRelease (n : Fin 4)
  | snap (h : Hdr) (mask : Mask)
  | stream (h : Hdr) (mask : Mask) (divider : BitVec 16)
  | firload (h : Hdr) (set : Byte) (first : Byte) (coeffs : List (BitVec 24))
  | firsel (h : Hdr) (channel : Byte) (index : Byte) (set : Byte)
  | dcfreeze (h : Hdr) (mask : Mask) (freeze : Byte)
  | syncnow (h : Hdr)
  | syncPin
  | syncReset
  | scsBoundary (c : Fin 14)
  | calwrite (h : Hdr) (channel : Byte) (gain : Word) (offset : Word)
  | calwriteDone (ok : Bool)
  | biasEnable (h : Hdr) (cell : Byte)
  | biasDisable (h : Hdr) (cell : Byte)
  | cellEnableStep (k : Fin 4)
  | cellDisableStep (k : Fin 4)
  | biasRampStep (k : Fin 4)
  -- SETP writes with a row of their own
  | cellBiasWrite (h : Hdr) (k : Fin 4) (value : Word)
  | cellRampWrite (h : Hdr) (k : Fin 4) (value : Word)
  | autorangeWrite (h : Hdr) (c : Fin 12) (field : Fin 3) (value : Word)
  | leadCapture (h : Hdr) (n : Fin 4) (value : Word)
  | phaseTicks (h : Hdr) (c : Fin 14) (value : Word)
  | phaseFrac (h : Hdr) (c : Fin 14) (value : Word)
  | cableClk (h : Hdr) (value : Word)
  | ridgeTerm (h : Hdr) (value : Word)
  | tallyWindowWrite (h : Hdr) (n : Fin 24) (window : Bool) (value : Word)
  | alarmEnable (h : Hdr) (r : Fin 16) (value : Word)
  | waveSize (h : Hdr) (w : Fin 16) (value : Word)
  | aoutEnable (h : Hdr) (value : Word)
  -- samples, Tripwire, capture (12, 14, 15)
  | sampleOutput (c : Fin 24)
  | tripwireAutoRearm
  | nextSegment
  | fifoWrite
  | preRingDiscard
  | overflowEvent
  -- alarms and tally (16)
  | alarmack (h : Hdr) (mask : BitVec 16)
  | tallyread (h : Hdr) (source : Byte)
  | tallyclear (h : Hdr) (source : Byte)
  -- VIGIL (03)
  | sentinelBurst
  | sentinelBurstEnd
  -- scheduler, heaters, bridges (17, 11, 10)
  | schedulerDecision
  | profileAbort (n : Fin 4)
  | heaterMeasurement (n : Fin 4)
  | heaterLoop (n : Fin 4)
  | bridgeLoop (b : Fin 2)
  | heatrun (h : Hdr) (heater : Byte) (profile : Byte)
  | heatstop (h : Hdr) (mask : Byte)
  | profload (h : Hdr) (profile : Byte) (first : Byte) (steps : List (BitVec 64))
  | leadcal (h : Hdr) (heater : Byte)
  | leadcalSwitch (n : Fin 4)
  | leadcalDone (n : Fin 4)
  -- impedance checks (13)
  | zcheck (h : Hdr) (mask : Mask)
  | periodicCheckDue
  | toneStart
  | toneCode
  | filmToneToggle
  -- Tripwire and capture commands (14, 15)
  | triparm (h : Hdr) (mask : Byte) (armId : BitVec 16)
  | tripdisarm (h : Hdr) (mask : Byte)
  | tripforce (h : Hdr) (slot : Byte)
  | capread (h : Hdr) (first : Word) (count : BitVec 16) (via : Byte)
  | capstat (h : Hdr)
  | capclear (h : Hdr)
  -- AOUT and waveforms (18)
  | aoutset (h : Hdr) (code : BitVec 16)
  | aoutrange (h : Hdr) (range : Byte)
  | clrNLevel (high : Bool)
  | waveload (h : Hdr) (wave : Byte) (first : BitVec 16) (points : List (BitVec 16))
  | waveplay (h : Hdr) (wave : Byte) (target : Byte) (period : BitVec 16) (repeats : BitVec 16)
  | wavePoint (t : Fin 5)
  | wavestop (h : Hdr) (target : Byte)
  -- twin-pole (19)
  | twinjoin (h : Hdr) (mode : Byte) (partner : Byte)
  | twinsplit (h : Hdr)
  | twinstat (h : Hdr)
  -- NV (20)
  | nvsave (h : Hdr) (mask : Byte)
  | nvsaveDone (region2 : Bool) (ok : Bool)
  | nvload (h : Hdr) (mask : Byte)
  | nvLoadApply (region2 : Bool)
  -- queries and diagnostics (17, 20)
  | taskq (h : Hdr) (task : Byte)
  | rationq (h : Hdr)
  | fieldread (h : Hdr) (address : Byte)
  | pins (h : Hdr)
  -- pole link (19)
  | poleExchange (word : BitVec 16)
  | twinHello (m : Hello)
  | twinConf (pairs : List (Pid × Word))
  | twinJoin (commitSfn : BitVec 16) (mode : Byte)
  | pairCommit
  | joinTimeout
  | twinFwd (handle : Byte) (client : Byte) (seq : Byte) (opc : Byte) (payload : List Byte)
  | twinVerdict (handle : Byte) (status : Byte) (pos : Byte)
  | leadPacketDecide
  | twinCommit (handle : Byte) (apply : Byte)
  | twinAck (handle : Byte)
  | twinAnswer (handle : Byte) (status : Byte) (rlen : Byte) (offset : Byte) (data : List Byte)
  | twinReq (caps : TailCaps) (reqs : List TailReq)
  | pairDecision
  | twinGrant (outcomes : List (Byte × Byte))
  | twinRule (rule : Byte) (state : Byte) (tick : Word) (value : Word)
  | twinTrig (tick : BitVec 48) (frac : Byte) (source : Byte) (type : Byte) (armId : BitVec 16)
  | twinSlot (flags : Byte) (state : Byte) (alarmsum : Byte) (payload : BitVec 144)
  | twinSplitMsg (cause : Byte)
  -- time (08) and the rest
  | tick
  | vddaReturn
  | tailGrantTimeout
  deriving DecidableEq, Repr

end Sys2Proof
end

