-- ==== Sys2Proof/Config.lean ====
section
/-! DEFINITION. What the spec leaves to the part and gives no number for: constants without a body, so that no proof can
see a value of them (log 1, log 2). -/

namespace Sys2Proof.Config

/-- Half-coefficient `i` of ROM FIR response `k` (12 R533 names the responses and gives no coefficient; log 1). -/
opaque romHalf : Nat → Nat → Rat

/-- CRC-32 of an NV image whose byte layout the spec does not give, as a function of its content (20 R886; log 2). -/
opaque imageCrc : List Nat → Word

/-- Sensed resistance of a heater whose current sum is 0, as a function of its voltage sum (11 R490 gives no quotient; log 25). -/
opaque rsZero : Int → Rat

/-- Phase, in 0.01° before wrapping, of an impedance result whose response or reference has length 0 (13 R593; log 88). -/
opaque zPhase : Nat → Int

/-- AGE field of a stream's overflow entry whose age its 12 bits do not hold (15 R685; log 89). -/
opaque overAge : Nat → BitVec 12

/-- Event code of the RESET entry, which 07 R335 does not list (03 R138; log 30). -/
opaque resetEvent : BitVec 16

/-- Value of a VOID sample of channels 14–17, which forms no R_h, as a function of both sums (11 R491, R492; log 26). -/
opaque heaterVoid : Int → Int → Int

/-- Level of the SYNC (0) or WAKE (1) pin in an elapsed tick: an input of which the rows tell only the rising edges (20 R898;
log 51). -/
opaque pinLevel : Nat → Nat → Bool

/-- SHARE or KEEP, before its range is applied, of a Span tail whose value the lead has not forwarded, by parameter and superframe (19 R845;
log 28). -/
opaque tailSched : Nat → Nat → Nat

end Sys2Proof.Config
end

