-- ==== Sys2Proof/Machine/Crc.lean ====
section
/-! DEFINITION. The four cyclic checks of the unit: CRC-8 of the Seam and of records (01 R60), CRC-16 of packets, slots
and headers, CRC-32 of images and the Logbook chain (00 R24), CRC-2 of the pole link (19 R823). -/

namespace Sys2Proof.Machine

/-- One bit through a left-shifting register of `w` bits with polynomial `poly`. -/
def crcBit (w poly : Nat) (reg : Nat) (b : Bool) : Nat :=
  let top := bit reg (w - 1) != b
  let shifted := reg * 2 % 2 ^ w
  if top then Nat.xor shifted poly else shifted

/-- The low `k` bits of `x`, most significant first, through the register. -/
def crcBits (w poly : Nat) : Nat → Nat → Nat → Nat
  | 0, _, reg => reg
  | k + 1, x, reg => crcBits w poly k x (crcBit w poly reg (bit x k))

/-- CRC-8: polynomial 0x07, start 0x00, final XOR 0x55, most significant bit first (01 R60). -/
def crc8 (bs : List Byte) : Nat :=
  Nat.xor (bs.foldl (fun reg b => crcBits 8 0x07 8 b.toNat reg) 0) 0x55

/-- CRC-16 of ITU-T V.41: polynomial 0x1021, start 0xFFFF, no final XOR (00 R24). -/
def crc16 (bs : List Byte) : Nat :=
  bs.foldl (fun reg b => crcBits 16 0x1021 8 b.toNat reg) 0xFFFF

/-- CRC-2 over the low `k` bits of a pole-link word: polynomial x² + x + 1, start 0b11 (19 R823). -/
def crc2 (k x : Nat) : Nat := crcBits 2 0b11 k x 0b11

/-- `k` right shifts of the reflected CRC-32 register (00 R24). -/
def crc32Shift : Nat → Nat → Nat
  | 0, reg => reg
  | k + 1, reg => crc32Shift k (if bit reg 0 then Nat.xor (reg / 2) 0xEDB88320 else reg / 2)

/-- CRC-32 of IEEE 802.3: reflected, start and final XOR 0xFFFF_FFFF (00 R24). -/
def crc32 (bs : List Byte) : Nat :=
  Nat.xor (bs.foldl (fun reg b => crc32Shift 8 (Nat.xor reg b.toNat)) 0xFFFFFFFF) 0xFFFFFFFF

end Sys2Proof.Machine
end

