-- ==== Sys2Proof/Machine/F32.lean ====
section
/-! DEFINITION. The binary32 values of F32 parameters (00 R14, R16, R17, R18, R24): exact values are rationals, and a
result is narrowed once, to nearest with ties to even. -/

namespace Sys2Proof.Machine

/-- The quiet NaN that a result not yet formed reads (00 R17). -/
def nan : Word := 0x7FC00000#32

/-- Neither NaN nor infinity. -/
def f32Finite (w : Word) : Bool := bits w.toNat 30 23 != 255

/-- A subnormal is taken as zero of the same sign (00 R16). -/
def f32Flush (w : Word) : Word :=
  if bits w.toNat 30 23 = 0 then w &&& 0x80000000#32 else w

/-- Two to a whole power, as a rational. -/
def pow2 (e : Int) : Rat := if 0 ≤ e then ((2 ^ e.toNat : Nat) : Rat) else 1 / ((2 ^ (-e).toNat : Nat) : Rat)

/-- The exact value of a finite binary32; 0 for NaN and infinity. −0.0 and +0.0 are the same value (00 R18). -/
def f32Val (w : Word) : Rat :=
  let e := bits w.toNat 30 23
  let m := bits w.toNat 22 0
  let mag : Rat := if e = 0 then 0 else if e = 255 then 0 else ((2 ^ 23 + m : Nat) : Rat) * pow2 ((e : Int) - 150)
  if bit w.toNat 31 then -mag else mag

/-- The value as an exact rational, where it is one. -/
def f32Val? (w : Word) : Option Rat := if f32Finite w then some (f32Val w) else none

/-- Halves away from zero, the rounding the chapters name (09 R393, 12 R541). -/
def roundAway (q : Rat) : Int :=
  if 0 ≤ q then (q + 1 / 2).floor else -((-q + 1 / 2).floor)

/-- Halves upward (14 R618). -/
def roundUp (q : Rat) : Int := (q + 1 / 2).floor

/-- Nearest, ties to even. -/
def roundEven (q : Rat) : Int :=
  let f := q.floor
  let r := q - (f : Rat)
  if r < 1 / 2 then f else if 1 / 2 < r then f + 1 else if f % 2 = 0 then f else f + 1

/-- Floor of the base-2 logarithm of a positive rational. -/
def log2Rat (q : Rat) : Int :=
  let g : Int := (Nat.log2 q.num.natAbs : Int) - (Nat.log2 q.den : Int)
  if pow2 g ≤ q then g else g - 1

/-- Narrow an exact value to binary32: nearest, ties to even (DEDUCED, log 7). A magnitude under the least normal
becomes zero, as the unit keeps no subnormal (00 R16); beyond the largest it is an infinity. -/
def f32Of (q : Rat) : Word :=
  if q = 0 then 0 else
    let sgn : Nat := if q < 0 then 2 ^ 31 else 0
    let a := if q < 0 then -q else q
    let e := log2Rat a
    let m := roundEven (a * pow2 (23 - e))
    let (m', e') := if m = 2 ^ 24 then ((2 ^ 23 : Int), e + 1) else (m, e)
    if e' < -126 then BitVec.ofNat 32 sgn
    else if 127 < e' then BitVec.ofNat 32 (sgn + 255 * 2 ^ 23)
    else BitVec.ofNat 32 (sgn + (e' + 127).toNat * 2 ^ 23 + (m' - 2 ^ 23).toNat)

/-- A result that may not exist, as its carrier (00 R17). -/
def f32OfOpt : Option Rat → Word
  | none => nan
  | some q => f32Of q

/-- The signed value of a 32-bit carrier (00 R14). -/
def s32Val (w : Word) : Int := w.toInt

end Sys2Proof.Machine
end

