-- ==== Sys2Proof/Machine/Params.lean ====
section
/-! DEFINITION. The parameter map: every defined ID, its role, Live column, reset value and range (20 R877–R882 and the
page tables of the owning chapters). A value that changes is held in `Unit` state; this file is only the table. -/

namespace Sys2Proof.Machine

/-- What a written carrier may hold (00 R14, R15, R16). -/
inductive PRange where
  /-- An unsigned value or ENUM code from `lo` to `hi`. -/
  | u (lo hi : Nat)
  /-- Zero, or an unsigned value from `lo` to `hi`. -/
  | uz (lo hi : Nat)
  /-- Flags; `mask` has the defined positions. -/
  | flags (mask : Nat)
  /-- A signed value. -/
  | sgn (lo hi : Int)
  /-- A binary32 from `lo` to `hi`. -/
  | flt (lo hi : Word)
  /-- Zero, or a binary32 from `lo` to `hi`. -/
  | fltz (lo hi : Word)
  /-- A binary32 of zero or more. -/
  | fltPos
  /-- Any finite binary32. -/
  | fltAny
  deriving DecidableEq, Repr

/-- One row of a page table. -/
structure PDesc where
  /-- The role a write needs; none for the role "—" (07 R314). -/
  role  : Option Nat
  /-- The Live column (20 R878). -/
  live  : Bool
  reset : Word
  range : PRange
  deriving DecidableEq, Repr

/-- Whether a carrier is a value the parameter may take (00 R15, R16). -/
def PRange.ok (r : PRange) (w : Word) : Bool :=
  match r with
  | .u lo hi => decide (lo ≤ w.toNat) && decide (w.toNat ≤ hi)
  | .uz lo hi => decide (w.toNat = 0) || (decide (lo ≤ w.toNat) && decide (w.toNat ≤ hi))
  | .flags mask => decide (Nat.land w.toNat mask = w.toNat)
  | .sgn lo hi => decide (lo ≤ w.toInt) && decide (w.toInt ≤ hi)
  | .flt lo hi => f32Finite w && decide (f32Val lo ≤ f32Val w) && decide (f32Val w ≤ f32Val hi)
  | .fltz lo hi =>
    f32Finite w && (decide (f32Val w = 0) || (decide (f32Val lo ≤ f32Val w) && decide (f32Val w ≤ f32Val hi)))
  | .fltPos => f32Finite w && decide (0 ≤ f32Val w)
  | .fltAny => f32Finite w

/-- Whether the carrier is a binary32 (00 R14). -/
def PRange.isF32 : PRange → Bool
  | .flt _ _ => true
  | .fltz _ _ => true
  | .fltPos => true
  | .fltAny => true
  | _ => false

/-- The value stored for a written carrier: a subnormal is zero of the same sign (00 R16). -/
def PRange.store (r : PRange) (w : Word) : Word := if r.isF32 then f32Flush w else w

/-- Two F32 carriers the unit takes as equal: −0.0 equals +0.0 (00 R18). -/
def sameF32 (a b : Word) : Bool := a == b || (f32Finite a && f32Finite b && f32Val a == f32Val b)

/-- A status, reading or count: role "—". -/
def ro : Option PDesc := some { role := none, live := true, reset := 0, range := .u 0 0 }

/-- A writable row. -/
def rw (role : Nat) (live : Bool) (reset : Word) (range : PRange) : Option PDesc :=
  some { role := some role, live := live, reset := reset, range := range }

/-- Roles of 07 R313 by number. -/
def observer : Nat := 0
def operator : Nat := 1
def tuner : Nat := 2
def keeper : Nat := 3

/-- IDENT (20 R891). -/
def pgIdent (i : Nat) : Option PDesc := if i ≤ 6 then ro else none

/-- UNIT (20 R892). -/
def pgUnit (i : Nat) : Option PDesc :=
  if i ≤ 7 then ro else if i ≤ 0x0B then rw tuner true 0 (.u 0 0xFFFFFFFF) else if i = 0x10 then ro else none

/-- RIDGE (20 R893). -/
def pgRidge (i : Nat) : Option PDesc :=
  if i = 0 then rw keeper true 1 (.u 0 1) else if i ≤ 0x0B then ro else none

/-- CLIENT (07 R349). -/
def pgClient (i : Nat) : Option PDesc := if i ≤ 3 ∨ (0x81 ≤ i ∧ i ≤ 0xFD) then ro else none

/-- TIME (08 R380). -/
def pgTime (i : Nat) : Option PDesc :=
  if i = 4 then rw tuner true 0 (.u 0 38) else if i ≤ 6 ∨ (8 ≤ i ∧ i ≤ 0x0F) then ro else none

/-- SCHED (17 R758). -/
def pgSched (i : Nat) : Option PDesc :=
  match i with
  | 0x00 => rw keeper true 256 (.u 0 1024)
  | 0x01 => rw tuner true 50 (.u 0 1000)
  | 0x02 => rw keeper true 60 (.u 0 1000)
  | 0x03 => rw tuner true 60000 (.u 1000 86400000)
  | 0x04 => rw tuner true 0 (.uz 1000 86400000)
  | 0x05 => rw tuner true 5000 (.u 100 65535)
  | 0x06 => rw tuner true 4 (.u 0 255)
  | 0x07 => rw tuner true 0 (.u 0 65535)
  | 0x08 => rw tuner true 2000 (.u 0 65535)
  | 0x09 => rw keeper true 0x3F19999A (.flt 0 0x3F19999A)
  | 0x0A => rw keeper true 0x42C80000 (.flt 0x42700000 0x42FA0000)
  | 0x0B => rw keeper true 0x42DC0000 (.flt 0x42700000 0x42FA0000)
  | 0x0C => rw keeper true 200 (.u 0 65535)
  | 0x0D => rw tuner true 0 (.flt 0 0x41F00000)
  | _ => if 0x10 ≤ i ∧ i ≤ 0x18 then ro else none

/-- LOG (07 R350). -/
def pgLog (i : Nat) : Option PDesc :=
  match i with
  | 0x00 => rw keeper true 0 (.u 0 1)
  | 0x01 => rw keeper true 0 (.flags 3)
  | 0x02 => rw keeper true 0xFFFFFFFF (.u 0 0xFFFFFFFF)
  | _ => if (0x08 ≤ i ∧ i ≤ 0x0E) ∨ (0x10 ≤ i ∧ i ≤ 0x12) then ro else none

/-- TWIN (19 R867). -/
def pgTwin (i : Nat) : Option PDesc :=
  match i with
  | 0x10 => rw tuner true 100 (.u 10 10000)
  | 0x11 => rw tuner true 0xFF (.flags 0xFF)
  | 0x12 => rw operator true 0 (.u 0 1)
  | _ => if i ≤ 8 then ro else none

/-- AMP[n] (09 R434). -/
def pgAmp (i : Nat) : Option PDesc :=
  match i with
  | 0x00 => rw tuner true 5 (.u 0 5)
  | 0x01 => rw tuner true 0 (.u 0 1)
  | 0x02 => rw tuner true 0 (.u 0 5)
  | 0x03 => rw tuner true 5 (.u 0 5)
  | 0x04 => rw tuner true 16 (.u 1 65535)
  | _ => if 0x08 ≤ i ∧ i ≤ 0x0C then ro else none

/-- CELL[k] (09 R435). -/
def pgCell (i : Nat) : Option PDesc :=
  match i with
  | 0x00 => rw tuner true 0 (.flt 0xBF99999A 0x3F9994CD)
  | 0x01 => rw tuner true 0x3C23D70A (.fltz 0x3727C5AC 0x3F800000)
  | 0x02 => rw tuner true 0 (.u 0 1)
  | _ => if 0x08 ≤ i ∧ i ≤ 0x0B then ro else none

/-- MOX[n] (10 R476). -/
def pgMox (i : Nat) : Option PDesc :=
  match i with
  | 0x00 => rw tuner true 5 (.u 0 5)
  | 0x01 => rw tuner true 1 (.u 0 1)
  | 0x02 => rw tuner true 0 (.u 0 5)
  | 0x03 => rw tuner true 5 (.u 0 5)
  | 0x04 => rw tuner true 16 (.u 1 65535)
  | 0x05 => rw tuner true 0 (.u 0 1)
  | 0x06 => rw tuner true 0 (.flt 0 0x42C80000)
  | 0x07 => rw tuner true 0 (.u 0 4096)
  | _ => if 0x08 ≤ i ∧ i ≤ 0x0E then ro else none

/-- HTR[n] (11 R519). -/
def pgHtr (i : Nat) : Option PDesc :=
  match i with
  | 0x00 => rw tuner false 2 (.u 0 2)
  | 0x01 => rw tuner true 0x42480000 (.flt 0x3F800000 0x447A0000)
  | 0x02 => rw tuner true 0x3B449BA6 (.flt 0x38D1B717 0x3C23D70A)
  | 0x03 => rw tuner true 0 (.flt 0 0x41A00000)
  | 0x04 => rw tuner true 1400 (.u 0 1400)
  | 0x05 => rw tuner true 0x3B03126F (.flt 0 0x3F800000)
  | 0x06 => rw tuner true 0x38D1B717 (.flt 0 0x3DCCCCCD)
  | 0x07 => rw tuner true 1 (.u 0 1)
  | 0x08 => rw tuner true 500 (.u 0 60000)
  | 0x09 => rw tuner true 0x3F800000 (.flt 0 0x42C80000)
  | 0x0A => rw tuner true 0x461C4000 (.flt 0x41200000 0x49742400)
  | 0x0B => rw tuner true 0x3F800000 (.flt 0x3E4CCCCD 0x40400000)
  | _ => if 0x10 ≤ i ∧ i ≤ 0x1E then ro else if 0x20 ≤ i ∧ i ≤ 0x2F then ro else none

/-- BRG[b] (10 R477). -/
def pgBrg (i : Nat) : Option PDesc :=
  match i with
  | 0x00 => rw tuner true 0x40000000 (.flt 0x3F000000 0x40400000)
  | 0x01 => rw tuner true 0x3F800000 (.fltz 0x3C23D70A 0x42C80000)
  | 0x02 => rw tuner true 0x41A00000 (.flt 0x40A00000 0x461C4000)
  | 0x03 => rw tuner true 1100 (.u 0 2000)
  | 0x04 => rw tuner true 20 (.u 1 1000)
  | 0x05 => rw tuner true 2000 (.u 0 60000)
  | _ => if 0x08 ≤ i ∧ i ≤ 0x0F then ro else none

/-- HOUSE (20 R895). -/
def pgHouse (i : Nat) : Option PDesc :=
  if i ≤ 5 ∨ (8 ≤ i ∧ i ≤ 0x0D) ∨ (0x10 ≤ i ∧ i ≤ 0x15) ∨ i = 0x18 then ro else none

/-- ZCHK (13 R605); channels 12 and 13 have their own frequency bound. -/
def pgZchk (i : Nat) : Option PDesc :=
  let n := i % 16
  if 14 ≤ n then none else
  match i / 16 with
  | 0x0 => rw tuner true 0x41200000 (.flt 0x3F000000 (if 12 ≤ n then 0x437A0000 else 0x44FA0000))
  | 0x1 => rw tuner true 0x3C23D70A (.flt 0x3A83126F 0x3CCCCCCD)
  | 0x2 => rw tuner true 8 (.u 4 64)
  | 0x3 => rw tuner true 0 (.uz 1000 86400000)
  | 0x4 => rw tuner true 0 (.flt 0 0x5368D4A5)
  | 0x5 => rw tuner true 0x5368D4A5 (.flt 0 0x5368D4A5)
  | 0x6 => rw tuner true (BitVec.ofInt 32 (-18000)) (.sgn (-18000) 18000)
  | 0x7 => rw tuner true 18000 (.sgn (-18000) 18000)
  | 0xF => if n ≤ 1 then ro else none
  | 0xE => none
  | _ => ro

/-- FILT[c] (12 R575). -/
def pgFilt (i : Nat) : Option PDesc :=
  match i with
  | 0x00 => rw tuner false 3 (.u 0 5)
  | 0x01 => rw tuner false 2 (.u 0 7)
  | 0x02 => rw tuner false 0 (.u 0 15)
  | 0x03 => rw tuner false 0 (.u 0 3)
  | 0x04 => rw tuner false 1 (.u 1 4096)
  | 0x05 => rw tuner false 0 (.u 0 1)
  | 0x06 => rw tuner true 0 (.u 0 255)
  | 0x07 => rw tuner true 0 (.u 0 63)
  | 0x08 => rw tuner true 16 (.u 4 24)
  | _ => if (0x10 ≤ i ∧ i ≤ 0x18) ∨ (0x40 ≤ i ∧ i ≤ 0x5F) then ro else none

/-- TRIP (14 R643). -/
def pgTrip (i : Nat) : Option PDesc :=
  match i with
  | 0x80 => rw tuner true 0 (.u 0 1)
  | 0x81 => rw tuner true 512 (.u 0 0xFFFFFFFF)
  | 0x82 => rw tuner true 0xFF (.flags 0xFF)
  | _ =>
    match i / 8 with
    | 0x0 => rw tuner false 0 (.u 0 4)
    | 0x1 => rw tuner false 0 (.u 0 23)
    | 0x2 => rw tuner false 0 (.u 0 1)
    | 0x3 => rw tuner false 0 (.u 0 1)
    | 0x4 => rw tuner false 0 (.u 0 1)
    | 0x5 => rw tuner false 0 .fltAny
    | 0x6 => rw tuner false 0 .fltAny
    | 0x7 => rw tuner false 0 .fltPos
    | 0x8 => rw tuner false 0 (.u 0 0xFFFFFFFF)
    | 0x9 => rw tuner false 0 (.u 0 0xFFFFFFFF)
    | 0xA => rw tuner false 0x4D (.flags 0xFF)
    | _ => if 0x90 ≤ i ∧ i ≤ 0x9C then ro else none

/-- CAPT (15 R686). -/
def pgCapt (i : Nat) : Option PDesc :=
  match i with
  | 0x00 => rw tuner false 0 (.flags 0xFFFFFF)
  | 0x01 => rw tuner false 0 (.flags 0x3FFF)
  | 0x02 => rw tuner false 4096 (.u 0 16777216)
  | 0x03 => rw tuner false 4096 (.u 1 28672)
  | 0x04 => rw tuner false 0 (.u 0 1)
  | 0x05 => rw tuner true 0 (.u 0 1)
  | _ =>
    if 0x10 ≤ i ∧ i ≤ 0x27 then rw tuner true 0 .fltPos
    else if (0x40 ≤ i ∧ i ≤ 0x54) ∨ (0x58 ≤ i ∧ i ≤ 0x5B) then ro else none

/-- ALARM (16 R722). The codes 24–31 and, outside a Span lead, 32–45 of CHANNEL are refused where it is written. -/
def pgAlarm (i : Nat) : Option PDesc :=
  match i / 16 with
  | 0x0 => rw tuner true 0 (.u 0 1)
  | 0x1 => rw tuner false 0 (.u 0 45)
  | 0x2 => rw tuner false 0 (.u 0 3)
  | 0x3 => rw tuner false 0 (.u 0 2)
  | 0x4 => rw tuner false 0 .fltAny
  | 0x5 => rw tuner false 0 .fltAny
  | 0x6 => rw tuner false 0 .fltAny
  | 0x7 => rw tuner false 0 .fltAny
  | 0x8 => rw tuner false 1 (.u 1 255)
  | 0x9 => rw tuner false 1 (.u 1 65535)
  | 0xA => rw tuner false 0x4D (.flags 0xFFF)
  | 0xB => rw tuner false 0 (.flags 0xF)
  | 0xC => rw tuner false 1 (.u 1 255)
  | _ => ro

/-- The K and W defaults of the tally sources (16 R700). -/
def tallyDefaults : List (Nat × Nat) :=
  [(16, 1000), (8, 1000), (4, 1000), (64, 10000), (4, 1000), (3, 60000), (16, 1000), (16, 1000), (16, 1000), (16, 1000),
   (16, 1000), (100, 1000), (8, 100), (2, 100), (2, 65535), (32, 10000), (16, 60000), (3, 100), (3, 100), (3, 100),
   (3, 100), (3, 100), (3, 100), (64, 100)]

/-- TALLY (16 R723). -/
def pgTally (i : Nat) : Option PDesc :=
  let s := i % 32
  match i with
  | 0xC0 => rw tuner true 0 (.flags 0xFFFFFF)
  | 0xC1 => rw keeper true 0x42F00000 (.flt 0x42AA0000 0x43020000)
  | 0xC2 => rw keeper true 0x42F00000 (.flt 0x42AA0000 0x43020000)
  | 0xC3 => rw tuner true 0x4039999A (.flt 0 0x40C00000)
  | 0xC4 => rw tuner true 0x40B33333 (.flt 0 0x40C00000)
  | 0xC5 => rw tuner true 0 (.flt 0 0x42040000)
  | 0xC6 => rw tuner true 0x42040000 (.flt 0 0x42040000)
  | 0xC7 => rw tuner true 0x403CCCCD (.flt 0 0x40800000)
  | 0xC8 => rw tuner true 0x4069999A (.flt 0 0x40800000)
  | 0xC9 => rw keeper true 0x401F5C29 (.flt 0x40000000 0x40400000)
  | 0xCA => rw keeper true 0x4020A3D7 (.flt 0x40000000 0x40400000)
  | _ =>
    if 24 ≤ s then none else
    match i / 32 with
    | 0 => rw tuner true (BitVec.ofNat 32 (tallyDefaults.getD s (1, 1)).1) (.u 1 255)
    | 1 => rw tuner true (BitVec.ofNat 32 (tallyDefaults.getD s (1, 1)).2) (.u 1 65535)
    | 2 => ro
    | 3 => ro
    | 4 => ro
    | 5 => ro
    | _ => none

/-- AOUT (18 R805). -/
def pgAout (i : Nat) : Option PDesc :=
  match i with
  | 0x00 => rw operator true 0 (.u 0 1)
  | 0x01 => rw tuner true 0 (.u 0 65535)
  | 0x02 => rw tuner true 0 (.u 0 65535)
  | 0x03 => rw tuner true 0 (.u 0 1)
  | _ => if 0x08 ≤ i ∧ i ≤ 0x0D then ro else none

/-- WAVE (18 R806). -/
def pgWave (i : Nat) : Option PDesc :=
  if i ≤ 0x0F then rw tuner false 2048 (.u 0 32768)
  else if i ≤ 0x2F then ro
  else if i = 0x30 then rw tuner true 0 (.flags 0xFFFF)
  else if i = 0x31 ∨ i = 0x32 then ro
  else if 0x40 ≤ i ∧ i ≤ 0x67 ∧ i % 8 ≤ 4 then ro else none

/-- CAL (20 R896). -/
def pgCal (i : Nat) : Option PDesc :=
  if i ≤ 0x49 ∨ (0x50 ≤ i ∧ i ≤ 0x99) ∨ (0xA0 ≤ i ∧ i ≤ 0xAD) ∨ (0xB0 ≤ i ∧ i ≤ 0xBD) ∨ i = 0xC0 then ro else none

/-- DIAG (20 R897). -/
def pgDiag (i : Nat) : Option PDesc := if i ≤ 9 then ro else none

/-- The page table of 20 R882. -/
def pageDesc (page i : Nat) : Option PDesc :=
  if page = 0x00 then pgIdent i
  else if page = 0x01 then pgUnit i
  else if page = 0x02 then pgRidge i
  else if page = 0x03 then pgClient i
  else if page = 0x04 then pgTime i
  else if page = 0x05 then pgSched i
  else if page = 0x06 then pgLog i
  else if page = 0x07 then pgTwin i
  else if page ≤ 0x0F then pgAmp i
  else if page ≤ 0x13 then pgCell i
  else if page ≤ 0x17 then pgMox i
  else if page ≤ 0x1B then pgHtr i
  else if page ≤ 0x1D then pgBrg i
  else if page = 0x1E then pgHouse i
  else if page = 0x1F then pgZchk i
  else if page ≤ 0x2D then pgFilt i
  else if page = 0x30 then pgTrip i
  else if page = 0x31 then pgCapt i
  else if page = 0x34 then pgAlarm i
  else if page = 0x35 then pgTally i
  else if page = 0x38 then pgAout i
  else if page = 0x39 then pgWave i
  else if page = 0x3C then pgCal i
  else if page = 0x3F then pgDiag i
  else none

/-- The page-table row of an ID of this unit's own pages; none where the ID is undefined (00 R25, 20 R881). -/
def descOf (id : Nat) : Option PDesc := pageDesc (id / 256) (id % 256)

/-- The value of a parameter does not change (00 R18, 07 R333). -/
def sameVal (id : Nat) (a b : Word) : Bool :=
  match descOf id with
  | some d => if d.range.isF32 then sameF32 a b else a == b
  | none => a == b

/-- Whether NVSAVE keeps the parameter in the configuration image (20 R882): writable fields, but for the actions
LOG.FREE_TO, LEAD_CAPTURE and AOUT.ENABLE and for RIDGE.TERM; AOUT.RANGE and AOUT.CODE are kept as well. -/
def paramSaved (id : Nat) : Bool :=
  if id = 0x3808 ∨ id = 0x3809 then true
  else if id = 0x0602 ∨ id = 0x3800 ∨ id / 256 = 0x02 then false
  else if 0x14 ≤ id / 256 ∧ id / 256 ≤ 0x17 ∧ id % 256 = 7 then false
  else match descOf id with
    | some d => d.role.isSome
    | none => false

/-- IDs of the fields this model reads by name. -/
def idAmp (n f : Nat) : Nat := 0x0800 + 256 * n + f
def idCell (k f : Nat) : Nat := 0x1000 + 256 * k + f
def idMox (n f : Nat) : Nat := 0x1400 + 256 * n + f
def idHtr (n f : Nat) : Nat := 0x1800 + 256 * n + f
def idBrg (b f : Nat) : Nat := 0x1C00 + 256 * b + f
def idZchk (f n : Nat) : Nat := 0x1F00 + 16 * f + n
def idFilt (c f : Nat) : Nat := 0x2000 + 256 * c + f
def idTrip (f s : Nat) : Nat := 0x3000 + 8 * f + s
def idCapt (f : Nat) : Nat := 0x3100 + f
def idAlarm (f r : Nat) : Nat := 0x3400 + 16 * f + r
def idTallyK (s : Nat) : Nat := 0x3500 + s
def idTallyW (s : Nat) : Nat := 0x3520 + s
def idTally (f : Nat) : Nat := 0x3500 + f
def idSched (f : Nat) : Nat := 0x0500 + f
def idLog (f : Nat) : Nat := 0x0600 + f
def idTwin (f : Nat) : Nat := 0x0700 + f
def idAout (f : Nat) : Nat := 0x3800 + f
def idWave (f : Nat) : Nat := 0x3900 + f
def idCable : Nat := 0x0404
def idTerm : Nat := 0x0200

end Sys2Proof.Machine
end

