-- ==== Sys2Proof/Machine/State.lean ====
section
/-! DEFINITION. Everything the FX4820 holds, as plain data, and the unit right after a power-on boot. Every field names the
rule that gives it; INVENTORY.md lists them all. -/

namespace Sys2Proof.Machine

/-! ### Unit state -/

/-- The five unit states (03 R124). -/
inductive UState where
  | dormant | idle | run | vigil | safe
  deriving DecidableEq, Repr

/-- The unit's own condition (03 R124, R125, R131, R134, R152, R156). -/
structure UnitSt where
  st        : UState
  safecause : BitVec 16
  /-- RCAUSE code of the last reset. -/
  rcause    : Nat
  /-- The DORMANT-armed latch. -/
  armed     : Bool
  /-- Era and tick of the last state change. -/
  chgEra    : BitVec 16
  chgTick   : BitVec 48
  /-- The ROM check failed: the core die has stopped. -/
  romFail   : Bool
  /-- Seam-not-up and FREV causes stay until the next reset (16 R701). -/
  bootFault : BitVec 16
  /-- TESTEN at the last reset release. -/
  testen    : Bool
  bootUs    : Word
  /-- RESET accepted: its MODE and the superframe of the reply; the reset begins at the next p = 0 (03 R138). -/
  resetDue  : Option (Nat × Nat)
  deriving DecidableEq, Repr

/-! ### Time -/

/-- From elapsed tick `up` on, the count ran from `count` in era `era` (08 R365, R366). -/
structure TimeMark where
  up    : Nat
  count : BitVec 48
  era   : BitVec 16
  deriving DecidableEq, Repr

/-- A correction decided at tick 16, due at the next p = 0 (08 R365). -/
structure Fix where
  /-- The count of p = 0 if the unit simply advances. -/
  was     : BitVec 48
  target  : BitVec 48
  newEra  : Bool
  /-- Writes TICK_STEP. -/
  step    : Bool
  /-- Counts a TICK_DISCORD event. -/
  discord : Bool
  /-- A ±1 correction. -/
  small   : Bool
  /-- Drops the wall mapping (08 R376). -/
  unmap   : Bool
  deriving DecidableEq, Repr

structure TimeSt where
  /-- The tick counter and the era (08 R358, R369). -/
  count      : BitVec 48
  era        : BitVec 16
  /-- Superframe phase p (01 R43) and superframes since boot (16 R693). -/
  p          : Nat
  sf         : Nat
  /-- Ticks since boot, untouched by corrections; names the tick of every interval the model keeps. -/
  up         : Nat
  /-- Numbering of earlier ticks, newest first. -/
  marks      : List TimeMark
  /-- Elapsed ticks of era starts (2) and of the corrections 15 R661 gives REASON 3, with the reason, newest first (14 R627, 15 R662). -/
  cuts       : List (Nat × Nat)
  unaligned  : Bool
  firstDue   : Bool
  lastHdrEra : Option (BitVec 16)
  fix        : Option Fix
  /-- Offset O of the mapping in force, with the WALL and TICK that set it (08 R372). -/
  off        : Option Int
  mapWall    : BitVec 64
  mapTick    : BitVec 48
  slewLeft   : Nat
  slewPhase  : Nat
  smallCorr  : Nat
  steps      : Nat
  eraStarts  : Nat
  deriving DecidableEq, Repr

/-! ### Ring -/

/-- Superframe lock (04 R181–R183). -/
inductive Lock where
  | unlocked
  /-- SYNCWORDs seen in the last 16 384 bit times, by the CLK edge that sampled bit 0, counted from the boot's p = 0. -/
  | acquiring (cands : List Int)
  | locked
  deriving DecidableEq, Repr

inductive ClkSrc where
  | cki | crystal | backup
  deriving DecidableEq, Repr

/-- What the header of the present superframe was (04 R182, R193, R223). -/
inductive HdrView where
  | none | good | missed | poisoned | beacon
  deriving DecidableEq, Repr

inductive Standing where
  | lead | tie | lose
  deriving DecidableEq, Repr

/-- The fire fields of a header as this unit last saw them (04 R198–R201): its superframe, FIRE_ECHO, whether it was good and was a
resolve pass, FIRE_PEG as it arrived, and whether this unit changed it. -/
structure FireSeen where
  sf      : Nat
  echo    : Bool
  good    : Bool
  resolve : Bool
  peg     : Nat
  changed : Bool
  deriving DecidableEq, Repr

structure RingSt where
  lock       : Lock
  missedRun  : Nat
  /-- Elapsed tick from which the unit has been unlocked on its present clock (04 R222). -/
  unlockedAt : Nat
  /-- The source selected at boot and the one CLK comes from (01 R33–R39). -/
  selected   : ClkSrc
  clk        : ClkSrc
  /-- The boot found a crystal fitted (02 R90). -/
  xtal       : Bool
  /-- Parts (b) and (c) of the ORPHAN condition (04 R219); part (a) is `clk = backup`. -/
  beaconLock : Bool
  dataLoss   : Bool
  /-- The ORPHAN condition as last taken (left only at a good header, 04 R225). -/
  orphan     : Bool
  beaconing  : Bool
  beaconSfn  : Word
  hdr        : HdrView
  /-- FLAGS.TIMESET of this superframe's good header (08 R372). -/
  timeset    : Bool
  /-- RATION and MOTION of the last good head-end header, and the run of missing ones (17 R735). -/
  anyGood    : Bool
  ration     : BitVec 16
  motion     : Bool
  missingRun : Nat
  /-- RIDGE page counts (20 R893). -/
  lastSfn    : Word
  missed     : Nat
  poisoned   : Nat
  clashes    : Nat
  realigns   : Nat
  orphans    : Nat
  cmdBad     : Nat
  cmdOver    : Nat
  /-- Present and saved peg and hop count (05 R236, R244, R245). -/
  peg        : Nat
  hop        : Nat
  savedPeg   : Nat
  savedHop   : Nat
  /-- PEG_CLASH became LASTING: peg 0 at the next tick 16 (05 R252). -/
  pegDrop    : Bool
  /-- Pending fire key and the superframe from which it is written, standing, ring fire time, firing peg (04 R196–R200). -/
  fire       : Option (BitVec 56)
  fireSf     : Nat
  standing   : Option Standing
  ringKey    : Option (BitVec 56)
  /-- The arming master's request, to be written in the next passing header (04 R202, 15 R671). -/
  masterReq  : Option (Bool × BitVec 16)
  /-- The superframe of its effect tick: headers that follow it carry the request. -/
  masterSf   : Nat
  /-- The last header's fire fields, by which a resolve pass is told from a confirm pass. -/
  seen       : Option FireSeen
  /-- The last header received was poisoned (20 R893). -/
  lastBad    : Bool
  /-- The superframe of `lastSfn`. -/
  sfnSf      : Nat
  /-- Map conditions and slot ALARMSUM taken at p = 0 (16 R716, R717). -/
  alarmMap   : Bool
  faultMap   : Bool
  alarmsum   : Byte
  deriving DecidableEq, Repr

/-- What the unit last put on its outputs: the header, the command window with the lane it wrote (its length and frame), the 60
response slots and the guard, its own slot, a beacon header, a down frame and a pole word. -/
structure OutSt where
  header : BitVec 512
  window : List Byte
  lane   : Option (Nat × List Byte)
  region : List Byte
  slot   : List Byte
  beacon : BitVec 512
  down   : BitVec 64
  pole   : BitVec 16
  deriving DecidableEq, Repr

/-! ### Commands -/

/-- A packet of the window (06 R264), without DEST and CRC. -/
structure Packet where
  bcast   : Bool
  src     : Byte
  seq     : Byte
  opc     : Byte
  payload : List Byte
  deriving DecidableEq, Repr

/-- Status and data of a reply (06 R278, R300). -/
structure Answer where
  status : Byte
  data   : List Byte
  deriving DecidableEq, Repr

/-- What the first decision of a long opcode gave it (17 R750): status ACCEPTED, DEFERRED or REFUSED, reason, energy asked, the drive
word that went out with it, whether it asked for energy yet, and whether a lead's GRANT brought it (19 R838). -/
structure Verdict where
  status : Nat
  reason : Nat
  energy : Nat
  word   : Nat := 0
  asked  : Bool := true
  far    : Bool := false
  deriving DecidableEq, Repr

/-- A packet taken and not yet executed (06 R266, R269), with the outcome of its first decision. -/
structure Taken where
  pkt     : Packet
  verdict : Option Verdict
  /-- Handle under which a part of it was forwarded to the tail (19 R836). -/
  fwd     : Option Byte
  deriving DecidableEq, Repr

structure Reply where
  src  : Byte
  seq  : Byte
  ans  : Answer
  /-- Fragments already written. -/
  sent : Nat
  /-- Handle of the tail's answer it waits for (19 R839); 0 waits for FIELDREAD's (20 R899). -/
  wait : Option Byte
  deriving DecidableEq, Repr

/-- An unsolicited event (06 R288). -/
structure Event where
  eseq : Byte
  code : Byte
  tick : Word
  data : List Byte
  deriving DecidableEq, Repr

/-- A duplicate record (06 R281). -/
structure Dup where
  seq  : Byte
  ans  : Answer
  /-- What the answer still waits for, as in the reply. -/
  wait : Option Byte
  deriving DecidableEq, Repr

/-- A bulk transfer (06 R293). At a pair's lead one served for the tail's side holds the bytes received so far; at the tail, the one it
sends (19 R841). -/
structure Bulk where
  src    : Byte
  seq    : Byte
  bytes  : List Byte
  offset : Nat
  /-- Its length. -/
  total  : Nat
  /-- Handle of the forwarded read it belongs to. -/
  far    : Option Byte
  deriving DecidableEq, Repr

structure CmdSt where
  taken   : List Taken
  /-- Queued and unsent replies (06 R272), and those with fragments outstanding. -/
  replies : List Reply
  frags   : List Reply
  events  : List Event
  eseq    : Byte
  lost    : Nat
  /-- Duplicate record by client. -/
  dups    : List (Nat × Dup)
  bulk    : Option Bulk
  deriving DecidableEq, Repr

/-! ### Rights and Logbook -/

structure RightsSt where
  /-- Roles by client; a client not listed is an Observer (07 R313, R315). -/
  roles      : List (Nat × Nat)
  recoveries : Nat
  /-- Superframes left of the claim hold-off; its last one is over and CLAIM_HOLDOFF_END is due (07 R322). -/
  holdoff    : Nat
  holdEnd    : Bool
  claimFails : Nat
  deriving DecidableEq, Repr

/-- A Logbook entry (07 R328). -/
structure Entry where
  seq     : Word
  era     : BitVec 16
  tick    : BitVec 48
  origin  : BitVec 16
  event   : BitVec 16
  subject : BitVec 16
  old     : Word
  new     : Word
  check   : Word
  deriving DecidableEq, Repr

structure LogSt where
  /-- Held entries, oldest first. -/
  entries     : List Entry
  anchor      : Word
  nextSeq     : Word
  overwritten : Nat
  unlogged    : Nat
  freeTo      : Word
  deriving DecidableEq, Repr

/-! ### Non-volatile memory -/

/-- The content of an NV image as a boot would find it (01 R72). -/
inductive Img (α : Type) where
  | blank
  | bad
  | good (a : α)
  deriving DecidableEq, Repr

/-- The configuration image (20 R886): saved parameters that differ from their reset values, saved peg and hop, user
calibration of channels 0–13. -/
structure CfgImage where
  params : List (Nat × Word)
  peg    : Nat
  hop    : Nat
  gains  : List Word
  offs   : List Word
  deriving DecidableEq, Repr

/-- Profile and waveform copies (20 R886, 18 R804). -/
structure CopyImage where
  profiles : List (List (BitVec 64))
  waves    : List (Nat × List (BitVec 16))
  deriving DecidableEq, Repr

/-- The rights record (07 R316). -/
structure RightsImage where
  roles      : List (Nat × Nat)
  recoveries : Nat
  deriving DecidableEq, Repr

/-- The seal descriptor (07 R343). -/
structure SealDesc where
  crc    : Word
  seq    : Word
  count  : Nat
  writes : Nat
  deriving DecidableEq, Repr

structure NvSt where
  cfg       : Img CfgImage
  copies    : Img CopyImage
  rights    : Img RightsImage
  sealDesc  : Img SealDesc
  /-- Entries of the seal region. -/
  sealEnts  : List Entry
  nvwConfig : Nat
  nvwCopies : Nat
  nvwRights : Nat
  imageCrc  : Word
  /-- The NV write under way: its region and task (03 R166). -/
  writing   : Option (Nat × Nat)
  /-- Once it has started, what an NVSAVE saves: the content in force then (20 R887). -/
  staged    : Option (CfgImage × CopyImage)
  /-- The entries a seal being written takes, the last its LOG_SEAL (07 R343). -/
  sealing   : List Entry
  deriving DecidableEq, Repr

/-- What manufacture wrote (05 R250, R251, 20 R891–R896). -/
structure FactorySt where
  serial     : BitVec 64
  claim      : List Byte
  romRev     : BitVec 16
  romCrc     : Word
  crc        : Word
  calDay     : Word
  /-- The field-die revision the ROM expects (01 R68). -/
  wantFrev   : Byte
  houseGain  : Vector Word 6
  houseOff   : Vector Word 6
  gainAmp    : Vector Word 48
  gainMox    : Vector Word 24
  gainBrg    : Vector Word 2
  offAmp     : Vector Word 48
  offMox     : Vector Word 24
  offBrg     : Vector Word 2
  deriving DecidableEq, Repr

/-! ### Field die and Seam -/

/-- What the field die has received in the present tick (01 R46, R66): no frame, one that failed, or a good one. -/
inductive Inbox where
  | none
  | bad
  | good (w : BitVec 64)
  deriving DecidableEq, Repr

/-- The up frame that travelled in the tick just ended (01 R45, R50): its phase, the part of its STAT byte that the field die's own
state gives, whether VDDA was good, and whether a switchover cut it (01 R77). -/
structure UpTx where
  p    : Nat
  stat : Nat
  good : Bool
  cut  : Bool
  deriving DecidableEq, Repr

/-- The field die (01 R46–R58, R67, R939). -/
structure FieldSt where
  /-- Control registers 0x00–0x17. -/
  regs      : Vector (BitVec 16) 24
  frst      : Bool
  frev      : Byte
  bias      : Vector (BitVec 14) 4
  aout      : BitVec 16
  /-- Drive words in force, and the good copies of this superframe (01 R55). -/
  drive     : Vector (BitVec 16) 6
  copies    : Vector (Option (BitVec 16)) 6
  /-- Heater drivers and bridge excitation really on (01 R41, R67, 02 R97). -/
  htrOn     : BitVec 4
  excOn     : BitVec 2
  /-- Elapsed tick of the down frame rejected last. -/
  badAt     : Option Nat
  /-- Whole ticks since the last good down frame. -/
  gap       : Nat
  /-- The down frame received in the present tick, applied at CLK 0 of the next, and the up frame of the tick just ended. -/
  inbox     : Inbox
  tx        : Option UpTx
  /-- The register read not yet answered, with the elapsed tick of its frame, and the last answer. -/
  rdReq     : Option (Byte × Nat)
  rdAddr    : Byte
  rdData    : BitVec 16
  /-- One past the elapsed tick of the frame that requested the last answered read; 0 before any. -/
  rdAt      : Nat
  /-- Per-pin clamp bits latched for j = 1 (top) to 8 (bottom). -/
  clamps    : BitVec 64
  /-- Modulators 0–11 held reset, with the tick from which each mask holds, newest first (09 R407). -/
  held      : List (Nat × BitVec 12)
  /-- The code at the pin, and whether the AOUT deglitcher holds it in the present tick (18 R781). -/
  aoutLevel : BitVec 16
  deglitch  : Bool
  hkIndex   : Nat
  /-- Supplies at the pins. -/
  vdda      : Bool
  vhtr      : Bool
  vdrv      : Bool
  deriving DecidableEq, Repr

/-- One register access waiting or being read back (01 R59). -/
structure RegAcc where
  read  : Bool
  addr  : Byte
  data  : BitVec 16
  /-- Writes made so far. -/
  tries : Nat
  /-- Elapsed tick of the hand-over; the frame of the next tick is the first that can carry it. -/
  at_   : Nat
  /-- Values that later writes to the address have sent since (01 R59). -/
  alts  : List (BitVec 16)
  deriving DecidableEq, Repr

/-- The core die's end of the Seam (01 R55–R68). -/
structure SeamSt where
  up        : Bool
  codes     : BitVec 92
  flags     : BitVec 8
  /-- FLAGS of the newest frames, newest first, at most 16. -/
  flagHist  : List (BitVec 8)
  /-- Decision tick of the newest of them. -/
  flagAt    : Nat
  failRun   : Nat
  /-- Decision ticks of the failed frames among the newest 32, newest first (01 R79). -/
  failTicks : List Nat
  /-- Consecutive good up frames while the Seam is not up, and whether FREV has been asked for (01 R68). -/
  goodRun   : Nat
  asking    : Bool
  sderrRun  : Nat
  /-- A j = 0 byte has been received since reset; its bits (01 R50). -/
  vdda      : Bool
  vhtr      : Bool
  vdrv      : Bool
  warn      : Bool
  /-- Heater drivers on, heaters at limit, excitation on, bridges at limit, AOUT enabled, FRST (j = 12, 13). -/
  htrOn     : BitVec 4
  htrLim    : BitVec 4
  excOn     : BitVec 2
  brgLim    : BitVec 2
  aoutOn    : Bool
  frst      : Bool
  swClosed  : BitVec 4
  ceOn      : BitVec 4
  frev      : Byte
  /-- Per-pin clamp report of the last 16 ticks, j = 1 (top) to 8. -/
  pins      : BitVec 64
  /-- Read-back bytes taken so far in this rotation. -/
  rbAddr    : Option Byte
  rbHi      : Option Byte
  /-- Bias codes at the DAC as the core knows them, those pending with the tick of their hand-over, the cell served last, the pair repeated last. -/
  bias      : Vector (BitVec 14) 4
  biasPend  : Vector (Option (BitVec 14)) 4
  biasAt    : Vector Nat 4
  lastCell  : Nat
  altPair   : Bool
  /-- Register accesses waiting, the reads requested and not yet answered, newest first, each with the elapsed tick of its
  frame, and the latest written values. -/
  regQ      : List RegAcc
  reads     : List (Nat × RegAcc)
  want      : Vector (BitVec 16) 24
  /-- The latest values sent. -/
  sent      : Vector (BitVec 16) 24
  /-- Elapsed tick of the last frame that carried a write of HKCTL (01 R69). -/
  hkSent    : Nat
  /-- The FSTAT write of boot has been read back (01 R939). -/
  fstatDone : Bool
  /-- AOUT code of the next down frame. -/
  aout      : BitVec 16
  /-- DRIVE words of the next drive superframe. -/
  drive     : Vector (BitVec 16) 6
  /-- A clock switchover cut the frames that travel in this tick (01 R77). -/
  cut       : Bool
  /-- FIELDREADs waiting for their answers, oldest first: address, client and SEQ (20 R898, R899). -/
  fieldRead : List (Byte × Byte × Byte)
  upFails   : Nat
  upVoid    : Nat
  sderrs    : Nat
  mismatch  : Nat
  hkDiscard : Nat
  switches  : Nat
  deriving DecidableEq, Repr

/-! ### Tally and alarms -/

/-- The counting window of 16 R694: counts by bucket number, newest first. -/
abbrev Buckets := List (Nat × Nat)

structure TallySrc where
  win      : Buckets
  lasting  : Bool
  total    : Nat
  lastTick : Word
  /-- Elapsed tick at which it last became LASTING (11 R515). -/
  since    : Nat
  deriving DecidableEq, Repr

inductive AlarmSt where
  | clear | raised | latched
  deriving DecidableEq, Repr

structure AlarmRule where
  st      : AlarmSt
  win     : Buckets
  /-- The superframe in which an event was last counted (16 R709). -/
  counted : Option Nat
  vrun    : Nat
  value   : Word
  raises  : Nat
  skipped : Bool
  deriving DecidableEq, Repr

/-! ### Scheduler -/

inductive TaskClass where
  | keep | heat | check | chore
  deriving DecidableEq, Repr

inductive TaskState where
  | waiting | granted | deferred | running
  deriving DecidableEq, Repr

/-- What a task does. -/
inductive TaskObj where
  | bias (cell : Nat)
  | snap (mask : BitVec 64)
  | profile (heater : Nat)
  | leadcal (heater : Nat)
  | bridge (b : Nat)
  | zcheck (mask : BitVec 64)
  | periodic (ch : Nat)
  | sealLog (dormant : Bool)
  | rights
  | nvsave (mask : Nat)
  | nvload (mask : Nat)
  | calwrite (ch : Nat) (gain off : Word)
  | join
  deriving DecidableEq, Repr

structure TaskRec where
  num     : Nat
  opc     : Byte
  cls     : TaskClass
  /-- Origin of what created it (07 R312, 19 R838). -/
  origin  : BitVec 16
  obj     : TaskObj
  /-- Order of creation, and the superframe of it. -/
  born    : Nat
  state   : TaskState
  reason  : Byte
  defers  : Nat
  /-- Reason of the last TASK_DEFER entry. -/
  logged  : Option Byte
  energy  : Nat
  /-- NV progress: the content being written or loaded has been fixed. -/
  stage   : Nat
  deriving DecidableEq, Repr

/-- What RATIONQ reports of the last decision (17 R757), in full values. -/
structure Decision where
  rin     : Nat
  flags   : Byte
  share   : Nat
  income  : Nat
  net     : Nat
  heat    : Nat
  check   : Nat
  chore   : Nat
  ihtr    : Nat
  defers  : Nat
  refuses : Nat
  missing : Nat
  deriving DecidableEq, Repr

/-- What a decision brings at p = 0 of the drive superframe (17 R752, 11 R507). -/
inductive DriveDue where
  /-- TASK_DEFER of a task, with the origin of its entries: the unit's own decision, or at a tail the lead's GRANT (17 R752, 19 R838). -/
  | deferred (task reason : Nat) (origin : BitVec 16)
  | bridgeEnd (b task reason : Nat) (origin : BitVec 16)
  | checkEnd (task reason : Nat) (origin : BitVec 16)
  | choreEnd (task reason : Nat) (origin : BitVec 16)
  /-- The profile of a heater has come to its end. -/
  | profileEnd (n : Nat)
  deriving DecidableEq, Repr

structure SchedSt where
  bank     : Nat
  last     : Option Decision
  skipped  : Nat
  deferrals : Nat
  refusals : Nat
  tasks    : List TaskRec
  nextNum  : Nat
  /-- Automatic tasks that found the table full (17 R743). -/
  owed     : List TaskObj
  /-- Superframe of the last decision. -/
  doneSf   : Option Nat
  /-- What that decision brings at the next p = 0, in the order of its verdicts. -/
  due      : List DriveDue
  deriving DecidableEq, Repr

/-! ### Channels -/

/-- A condition that tags samples by span (12 R571, R572). -/
inductive MarkKind where
  /-- Void substituted code (01 R64). -/
  | voidSeam
  /-- Cell disabled, or front end off after a field-die reset (09 R432, 01 R939). -/
  | voidCell
  /-- Bridge word 0 or excitation reported off (10 R468). -/
  | voidBridge
  /-- Saturation episode; the flag is the sign of the clip (09 R420). -/
  | satHigh
  | satLow
  /-- Pin clamp (09 R425). -/
  | pinClamp
  /-- Bound episode (09 R413, 10 R453, R466). -/
  | bound
  /-- Heater of the film deferred or bound (11 R512). -/
  | filmStarved
  /-- Range hold, start, return from VIGIL, SYNC (12 R560, 03 R941). -/
  | hold
  /-- Bridge before its first VEXC and within its warm-up (10 R468). -/
  | warmup
  /-- Film heater settling or FILM_HOLD step (11 R512). -/
  | filmSettle
  /-- Impedance tone (13 R602), and the same on a channel under test, for its ranger (13 R603). -/
  | tone
  | tested
  /-- Clamp episode of the neighbour `src` (09 R429). -/
  | neighbour (src : Nat)
  /-- ORPHAN condition (03 R160). -/
  | orphan
  /-- Bridge after an off superframe (10 R468), and at its current limit. -/
  | bridgeAfter
  | bridgeLimit
  /-- Film heater not running, or at fault (11 R512). -/
  | filmOff
  | filmFault
  /-- Substituted code (01 R63). -/
  | held
  deriving DecidableEq, Repr

/-- The condition held from elapsed tick `first` to `last`; an open one has no `last`. -/
structure Mark where
  kind  : MarkKind
  first : Nat
  last  : Option Nat
  deriving DecidableEq, Repr

/-- `left` samples tagged at or after `ref` are still to be SETTLING (12 R559). -/
structure Settle where
  ref  : Nat
  left : Nat
  deriving DecidableEq, Repr

/-- A chain output waiting for its output tick: its tag in elapsed ticks and the averager's exact mean. -/
structure ChainOut where
  tag : Nat
  val : Rat
  deriving DecidableEq, Repr

/-- A sample processed under 01 R74. -/
structure Sample where
  ch     : Nat
  tag    : Nat
  span   : Nat
  value  : Int
  qual   : Nat
  range  : Nat
  deriving DecidableEq, Repr

/-- A run that CHSTOP has ended, while codes decided before tick `cut` are still on their way into it (12 R558): what the chain and the
settings of its FILT page were (12 R537). -/
structure PastRun where
  cut    : Nat
  conv   : Option Nat
  integ  : Vector (BitVec 37) 4
  comb   : Vector (BitVec 37) 4
  fir    : List Rat
  avg    : List Rat
  from_  : Nat
  base   : Int
  due    : List (Nat × Int × Bool)
  ref    : Option Nat
  settle : List Settle
  dcEst  : Int
  dcInit : Bool
  /-- Settings of its FILT page that are not at reset, and the coefficients of its user set. -/
  page   : List (Nat × Word)
  coefs  : List (BitVec 24)
  deriving DecidableEq, Repr

/-- One chain of channels 0–13 (12 R529–R569). -/
structure Chain where
  started  : Bool
  /-- A single conversion (SNAP, or a VIGIL burst) with its first tick (12 R564, R565). -/
  conv     : Option Nat
  isSnap   : Bool
  integ    : Vector (BitVec 37) 4
  comb     : Vector (BitVec 37) 4
  fir      : List Rat
  avg      : List Rat
  /-- Codes decided before this tick do not enter (12 R557); those of the run before it go to `past`. -/
  from_    : Nat
  past     : Option PastRun
  /-- A SYNC fell on the tick of the start: the start settles as that SYNC (12 R577). -/
  asSync   : Bool
  /-- Origin of the output grid, t_y + Dw in elapsed ticks (12 R548), and the changes of it due at decision ticks still to come, oldest
  first, with or without a clearing of the responses (12 R549, R551, R563). -/
  base     : Int
  due      : List (Nat × Int × Bool)
  /-- A decision fraction handed over while the channel runs, until the field die applies it (12 R550, R560). -/
  frac     : Option Nat
  /-- First tick whose tags are not "before the reference tick" of a start (12 R560); none while the front end is unreleased. -/
  ref      : Option Nat
  outs     : List ChainOut
  settle   : List Settle
  marks    : List Mark
  /-- DC estimate in 2⁻²⁴ codes (12 R566). -/
  dcEst    : Int
  dcInit   : Bool
  frozen   : Bool
  last     : Word
  lastBlk  : Word
  gain     : Word
  off      : Word
  deriving DecidableEq, Repr

/-- A range or decade change waiting to be applied or released (09 R407, 10 R450). -/
structure RangeReq where
  range  : Nat
  origin : BitVec 16
  auto   : Bool
  /-- A saturation reset (09 R419). -/
  reset  : Bool
  /-- The enable of a start (09 R411, 10 R451). -/
  start  : Bool
  deriving DecidableEq, Repr

/-- An AMP front end (0–7) or a MOX source (8–11). -/
structure Front where
  range     : Nat
  on        : Bool
  /-- Reset switch closed, or MOX modulator held reset. -/
  closed    : Bool
  req       : Option RangeReq
  /-- A change asked for while a start's enable write was still on its way. -/
  later     : Option RangeReq
  /-- A step decided in VIGIL, for the next burst (03 R151). -/
  vstep     : Option Nat
  /-- Tick r of the change in progress, and the range before it. -/
  holdAt    : Option Nat
  oldRange  : Nat
  /-- The release write has been sent; the tick at which a release applied that RANGE_CHANGE_RELEASE has still to take. -/
  relSent   : Bool
  freeAt    : Option Nat
  /-- Saturated codes in a row, and whether they are 15. -/
  run       : Nat
  runHigh   : Bool
  /-- Saturation episode: its first tick. -/
  sat       : Option Nat
  /-- Pin-clamp episode: first and last clamped tick. -/
  pin       : Option (Nat × Nat)
  /-- First tick of the clamp episode, whether it has been counted in CLAMPS, and the latest clearing tick so far (09 R426). -/
  clampAt   : Option Nat
  pinCounted : Bool
  clearAt   : Nat
  downCnt   : Nat
  /-- Release tick e of the last change of range: its settling blocks the ranger (09 R412). -/
  relAt     : Option Nat
  suspended : Bool
  bound     : Bool
  quiet     : Nat
  satCount  : Nat
  steps     : Nat
  clamps    : Nat
  deriving DecidableEq, Repr

/-- Where a cell stands in the sequences of 03 R144 and R145. -/
inductive CellStep where
  | shorted
  /-- Steps 1–4 of enabling; then the ramp of step 5 is due at the next p = 0. -/
  | opening (step : Nat)
  | open_
  /-- Steps 1–4 of disabling; step 1 is the ramp to 0 V, and 4 waits for the CE driver to be off. -/
  | closing (step : Nat)
  deriving DecidableEq, Repr

structure Cell where
  step     : CellStep
  /-- The enable sequence stopped on a failed read-back (03 R144). -/
  stuck    : Bool
  task     : Nat
  ramping  : Bool
  suspended : Bool
  /-- Ramp start value in volts and its tick; the target reached; the setpoint heads for 0 V while closing. -/
  rampFrom : Rat
  rampAt   : Nat
  target   : Rat
  deriving DecidableEq, Repr

/-- Lead capture of MOXn (10 R460). -/
structure LeadCap where
  left   : Nat
  total  : Nat
  sum    : Rat
  origin : BitVec 16
  deriving DecidableEq, Repr

structure MoxSt where
  cap     : Option LeadCap
  leadSrc : Bool
  rNow    : Word
  deriving DecidableEq, Repr

/-- A valid measurement M(s) (11 R490): on-state current, sensed resistance, duty, and whether its superframe was bound. -/
structure Meas where
  ion   : Rat
  /-- None where the current sum is 0: R_s cannot be formed (00 R17). -/
  rs    : Option Rat
  d     : Nat
  bound : Bool
  deriving DecidableEq, Repr

/-- A LEADCAL run (11 R496): the superframe L0–L33 now driven, the sums and the origin. -/
structure LeadRun where
  idx    : Nat
  sumA   : Rat
  sumB   : Rat
  good   : Nat
  bad    : Bool
  /-- Some R_s of the sums could not be formed (00 R17). -/
  noRs   : Bool
  /-- The fixed duty d_L (11 R496). -/
  d      : Nat
  origin : BitVec 16
  deriving DecidableEq, Repr

structure Heater where
  prof     : Option Nat
  step     : Nat
  /-- Counted superframes already spent in the step. -/
  done     : Nat
  /-- Repeats left; none before the first END. -/
  repeats  : Option Nat
  task     : Nat
  defers   : Nat
  /-- Duty of the present superframe and the one computed for the next. -/
  duty     : Nat
  next     : Nat
  pInt     : Rat
  meas     : Option Meas
  /-- Elapsed tick at which `meas` was taken (11 R515). -/
  measAt   : Nat
  used     : Bool
  /-- Sums of M(s): voltage, current, codes taken; void, held, clamp, driver seen off, limit seen, report seen. -/
  sumV     : Int
  sumI     : Int
  void     : Bool
  held     : Bool
  clamp    : Bool
  drvOff   : Bool
  limit    : Bool
  /-- A report of the limit has been counted in this superframe (11 R514). -/
  limRep   : Bool
  seen     : Bool
  /-- The sums began before the present HEATRUN or LEADCAL (11 R491). -/
  old      : Bool
  /-- The same of the superframe just ended, awaiting HEATER_MEASUREMENT. -/
  doneV    : Int
  doneI    : Int
  doneVoid : Bool
  doneHeld : Bool
  doneClamp : Bool
  doneOff  : Bool
  doneLim  : Bool
  doneSeen : Bool
  doneOld  : Bool
  doneDuty : Nat
  doneOn   : Bool
  doneBound : Bool
  lead     : Option LeadRun
  leadSrc  : Bool
  /-- Bound episode; this superframe bound, deferred; the next one. -/
  bound    : Bool
  boundNow : Bool
  deferNow : Bool
  boundNext : Bool
  deferNext : Bool
  isOpen   : Bool
  isShort  : Bool
  limitNow : Bool
  aborted  : Bool
  fault    : Bool
  /-- A refusal decided for the coming superframe, with its reason (11 R510). -/
  abort    : Option Byte
  settle   : Nat
  /-- The film settles in the present superframe (11 R512). -/
  settleNow : Bool
  /-- Energy charged for the present superframe, and for the coming one (11 R501). -/
  energy   : Nat
  charge   : Nat
  deferrals : Nat
  ilim     : Nat
  rNow     : Word
  tNow     : Word
  pNow     : Word
  iNow     : Word
  last     : Word
  deriving DecidableEq, Repr

structure Bridge where
  running  : Bool
  task     : Nat
  /-- Target voltage; none before the first computation. -/
  target   : Option Rat
  reached  : Bool
  /-- Warm-up superframes still to begin, and whether the present superframe is one of the warm-up (10 R468). -/
  warm     : Nat
  warmNow  : Bool
  code     : Nat
  /-- The newest request: code and energy asked (10 R465). -/
  ask      : Option (Nat × Nat)
  /-- Energy charged for the present superframe, and for the coming one. -/
  energy   : Nat
  charge   : Nat
  defers   : Nat
  deferrals : Nat
  deferNow : Bool
  deferNext : Bool
  /-- The bound episode, and whether the computation for the coming drive superframe was bound (10 R466). -/
  bound    : Bool
  boundNext : Bool
  off      : Bool
  limitNow : Bool
  run      : Nat
  runHigh  : Bool
  sat      : Option Nat
  pin      : Option (Nat × Nat)
  pinCounted : Bool
  satCount : Nat
  clamps   : Nat
  ratioNow : Word
  deriving DecidableEq, Repr

/-- A housekeeping conversion formed and waiting for its output tick. -/
structure HkOut where
  ch   : Nat
  tag  : Nat
  sum  : Int
  deriving DecidableEq, Repr

/-- Housekeeping multiplexer (01 R69, 12 R574). -/
structure HkSt where
  /-- The monitor expected, 0–5. -/
  monitor  : Nat
  /-- Codes decided before this elapsed tick belong to no dwell: stepping, or a burst, began with it. -/
  from_    : Nat
  /-- Codes of this dwell taken so far, and the sum of the kept ones. -/
  taken    : Nat
  sum      : Int
  bad      : Bool
  void     : Bool
  held     : Bool
  out      : Option HkOut
  /-- Newest sample of channels 18–23 fit for the caps (17 R739): value and quality. -/
  newest   : Vector (Option (Int × Nat)) 6
  /-- Newest GOOD value, for V_H (10 R465). -/
  goodV    : Vector (Option Int) 6
  /-- Newest non-VOID reading in SI units (20 R895). -/
  now      : Vector Word 6
  deriving DecidableEq, Repr

/-! ### Impedance checks -/

/-- What the tone generator drives (13 R585). -/
inductive ZTarget where
  | cell (k : Nat)
  | film (n : Nat)
  | bridge (b : Nat)
  deriving DecidableEq, Repr

/-- A point of the tone as applied: elapsed tick from which it holds, and its value in V, A or V. -/
structure TonePt where
  tick : Nat
  val  : Rat
  deriving DecidableEq, Repr

/-- One channel of the running target (13 R592, R594): samples taken, and whether a condition of R594 has failed. -/
structure ZChan where
  ch      : Nat
  /-- Samples in the window: centre tick and value in A, V or V/V. -/
  xs      : List (Nat × Rat)
  /-- ZMIN, ZMAX, PHMIN and PHMAX as the check found them at its start (13 R605). -/
  win     : Option (Word × Word × Word × Word)
  invalid : Bool
  ended   : Bool
  deriving DecidableEq, Repr

/-- The target the generator serves. -/
structure ZRun where
  task    : Nat
  target  : ZTarget
  chans   : List ZChan
  /-- Phase increment N (cell, bridge) or half-period h (film), and whole cycles to run. -/
  inc     : Nat
  cycles  : Nat
  ampl    : Rat
  /-- Granted and started at t0. -/
  granted : Bool
  t0      : Option Nat
  /-- Last tick of the tone interval, once known. -/
  tEnd    : Nat
  pts     : List TonePt
  /-- What the tone adds to a cell's bias target, in volts (13 R586). -/
  tone    : Rat := 0
  deriving DecidableEq, Repr

structure ZSt where
  run     : Option ZRun
  /-- Targets waiting, in order: task, target, channels. -/
  queue   : List (Nat × ZTarget × List Nat)
  /-- Tally of each running or waiting check task: targets, PASS, FAIL, INVALID, ABORTED. -/
  counts  : List (Nat × Vector Nat 5)
  /-- Per channel 0–13: Z_NOW, PH_NOW, OUTCOME, TICK, FAILS, superframe from which its period runs. -/
  zNow    : Vector Word 14
  phNow   : Vector Word 14
  outcome : Vector Nat 14
  tick    : Vector Word 14
  fails   : Vector Nat 14
  since   : Vector Nat 14
  /-- F_REAL. -/
  real    : Vector Word 14
  deriving DecidableEq, Repr

/-! ### Tripwire -/

/-- The tracker of a slot (14 R621–R624): the last accepted sample and the state of the type's block. -/
structure Tracker where
  /-- Tag (count) and value of the last accepted sample; none: the next one initialises. -/
  prev  : Option (Int × Rat)
  /-- Its tag in elapsed ticks. -/
  seen  : Nat
  /-- In a pulse, in transit, inside, or the RUNT state: 0 below, 1 above, 2 rising. -/
  mode  : Nat
  /-- Start, reference or entry instant, in 1/256 tick. -/
  at_   : Int
  fired : Bool
  deriving DecidableEq, Repr

/-- A trigger (14 R631). -/
structure Trigger where
  source : Nat
  type   : Nat
  rule   : Nat
  ch     : Nat
  blk    : Bool
  era    : BitVec 16
  tick   : BitVec 48
  frac   : Byte
  coinc  : BitVec 16
  recog  : BitVec 48
  armId  : BitVec 16
  prevDead : Nat
  prevMissed : Nat
  deriving DecidableEq, Repr

inductive TripState where
  | disarmed | armed | dead
  deriving DecidableEq, Repr

structure TripSt where
  st       : TripState
  armed    : BitVec 8
  armId    : BitVec 16
  trackers : Vector Tracker 8
  triggers : Nat
  /-- Elapsed tick of the last recognition. -/
  recogAt  : Nat
  /-- Dead ticks of the last ended interval; the present one is counted from `recogAt`. -/
  deadTicks : Nat
  missed   : Nat
  /-- What the arming in force carries from the interval it ended (14 R635). -/
  carry    : Option (Nat × Nat)
  last     : Option Trigger
  lastCoinc : BitVec 16
  deriving DecidableEq, Repr

/-! ### Capture and stream -/

inductive CaptPhase where
  | empty | recording | post | closed | full
  deriving DecidableEq, Repr

/-- A record in capture SRAM (15 R657): its number, its 64 bits, and the tick it stands at (for R666): of a SAMPLE its tag,
of the others that of the record's making, in elapsed ticks. -/
structure Rec where
  num  : Nat
  word : BitVec 64
  at_  : Nat
  deriving DecidableEq, Repr

/-- A record made and waiting in the write FIFO, before it has its number (15 R657); one written outside the FIFO (CLOSE,
OVERFLOW) keeps its place in the order and takes none of the 64 (15 R658, R669). -/
structure FifoRec where
  word    : BitVec 64
  at_     : Nat
  outside : Bool
  deriving DecidableEq, Repr

/-- The last stored sample of a channel in the segment (15 R655, R656). -/
structure Stored where
  qual  : Nat
  range : Nat
  value : Rat
  deriving DecidableEq, Repr

structure CaptSt where
  phase    : CaptPhase
  /-- Close status of the last segment (15 R673) and its flags. -/
  close    : Nat
  shallow  : Bool
  localTrig : Bool
  gotFire  : Bool
  armId    : BitVec 16
  /-- Held records, oldest first; protected segments come first. -/
  recs     : List Rec
  prot     : Nat
  fifo     : List FifoRec
  nextRec  : Nat
  /-- Elapsed tick of the FIFO's last write to SRAM. -/
  wroteAt  : Option Nat
  segments : Nat
  /-- Capture has stopped in an overflow; tag of the first lost record, in elapsed ticks (15 R658). -/
  lostAt   : Option Nat
  /-- STOPPED: the segment closes once the FIFO has drained (15 R673). -/
  stopping : Bool
  /-- A new segment of the session opens in the next tick (15 R668). -/
  nextDue  : Bool
  /-- Per channel: last stored sample in the segment. -/
  stored   : Vector (Option Stored) 24
  /-- Base of the next DELTA, and the tick of the last TIME record, in elapsed ticks. -/
  base     : Nat
  timeAt   : Nat
  /-- Trigger point of the last segment that had one: era, tick and fraction; and that the present segment has it. -/
  trigEra  : BitVec 16
  trigTick : BitVec 48
  trigFrac : Byte
  placed   : Bool
  /-- The point in force came in a partner's TRIG (19 R850, R874). -/
  byTrig   : Bool
  postDone : Nat
  preDepth : Nat
  firePeg  : Nat
  ignored  : Nat
  overflows : Nat
  armMissed : Nat
  /-- Base context of the oldest held record (15 R667). -/
  bEra     : BitVec 16
  bTick    : BitVec 48
  bAmp     : Word
  bMox     : Word
  /-- The unit's own fire of the session, kept for FIRE's OWN flag. -/
  ownKey   : Option (BitVec 56)
  deriving DecidableEq, Repr

/-- An entry of the stream queue (15 R684). -/
structure StreamEnt where
  ch    : Nat
  qual  : Nat
  range : Nat
  value : Int
  /-- Elapsed ticks of the tag and of the superframe in which it was formed. -/
  tag   : Nat
  sf    : Nat
  deriving DecidableEq, Repr

inductive StreamState where
  | off | on | overflow
  deriving DecidableEq, Repr

structure StreamSt where
  mask  : BitVec 24
  div   : Nat
  count : Vector Nat 24
  queue : List StreamEnt
  st    : StreamState
  lost  : Nat
  deriving DecidableEq, Repr

/-! ### AOUT and waveforms -/

structure AoutSt where
  /-- The two output parameters no SETP writes (18 R777, R779): range and stored code. -/
  range    : Nat
  code     : BitVec 16
  enabled  : Bool
  everOn   : Bool
  /-- CLR_N level taken, and rows 3 to 5 of 18 R778. -/
  clrLow   : Bool
  /-- The CLR_N samples of the present tick and of the one before: high (18 R782). -/
  clrNow   : Bool
  clrWas   : Bool
  clrCount : Nat
  safeClear : Bool
  /-- Disabled by the field die (18 R776). -/
  byField  : Bool
  /-- Codes sent in the last ticks, newest first, each with the enable bit as sent by its end (18 R781, R792). -/
  sent     : List (BitVec 16 × Bool)
  deriving DecidableEq, Repr

inductive PlayState where
  | idle | playing | suspended
  deriving DecidableEq, Repr

structure Play where
  st     : PlayState
  wave   : Nat
  point  : Nat
  /-- Passes left with the present one; 0 without end. -/
  passes : Nat
  period : Nat
  /-- Next handover tick, in elapsed ticks (18 R799). -/
  due    : Nat
  deriving DecidableEq, Repr

structure WaveSt where
  /-- Points loaded into each area. -/
  points  : Vector (List (BitVec 16)) 16
  skipped : BitVec 16
  play    : Vector Play 5
  deriving DecidableEq, Repr

/-! ### Twin-pole pair -/

/-- A join in progress (19 R825–R829). -/
structure Join where
  mode      : Nat
  lead      : Bool
  peg       : Nat
  since     : Nat
  client    : Byte
  task      : Nat
  hello     : Option Hello
  /-- The configuration has been copied (19 R827). -/
  copied    : Bool
  /-- Superframe, by the unit's own count, of the commit that a JOIN sent or received names, and its acknowledgement. -/
  commit    : Option Nat
  acked     : Bool
  deriving DecidableEq, Repr

/-- A packet of which the lead has forwarded a part (19 R834, R836). -/
structure Fwd where
  handle  : Byte
  pkt     : Packet
  /-- The part the lead executes itself, and the tail's. -/
  own     : Option Packet
  tail    : Packet
  /-- Status and position or reason of the tail's check. -/
  verdict : Option (Byte × Byte)
  /-- What the lead's own part answers by its checks at p = 440. -/
  judged  : Option Answer
  commit  : Option Bool
  acked   : Bool
  /-- What the lead's own part answered at p = 0. -/
  done    : Option Answer
  /-- The tail's answer gathered so far, with its status and whole length. -/
  status  : Byte
  rlen    : Nat
  data    : List Byte
  deriving DecidableEq, Repr

/-- A part the tail has been sent, its check, and what the first decision gave it. -/
structure FwdIn where
  handle  : Byte
  pkt     : Packet
  ok      : Bool
  commit  : Bool
  verdict : Option Verdict
  deriving DecidableEq, Repr

/-- A transition of a tail-evaluated rule whose entry waits for the RULE message (19 R852). -/
structure RuleWait where
  rule : Nat
  was  : AlarmSt
  next : AlarmSt
  /-- Tick and superframe in which the vote told of it. -/
  up   : Nat
  sf   : Nat
  deriving DecidableEq, Repr

structure TwinSt where
  /-- 0 none, 1 Span lead, 2 Mirror lead, 3 Span tail, 4 Mirror tail (07 R335). -/
  mode      : Nat
  partner   : Nat
  serial    : BitVec 64
  active    : Bool
  join      : Option Join
  /-- STATUS bits 2 to 7. -/
  lost      : Bool
  fallback  : Bool
  byRequest : Bool
  byLink    : Bool
  alrt      : Bool
  aflt      : Bool
  joinResult : Nat
  partnerSt : Byte
  exchanges : Nat
  fails     : Nat
  /-- Newest exchanges, good or not, newest first (19 R856). -/
  hist      : List Bool
  votes     : BitVec 16
  /-- Pair state and voted value of the Mirror lead's rules (19 R855, R856). -/
  pairSt    : Vector AlarmSt 16
  voted     : BitVec 16
  /-- At a Span tail, the lead's rules it runs for it (19 R851): their ALARM fields, by ID. -/
  farCfg    : List (Nat × Word)
  fwd       : List Fwd
  fwdIn     : List FwdIn
  nextHandle : Byte
  req       : Option (TailCaps × List TailReq)
  grant     : Option (List (Byte × Byte))
  /-- Slot content handed to the tail, oldest first: FLAGS, STATE, ALARMSUM, payload (19 R833). -/
  handed    : List (Byte × Byte × Byte × BitVec 144)
  /-- At a tail, or a joining one, the lead's number of the next exchange (19 R820, R831). -/
  num       : Option Nat
  /-- Transitions of tail-evaluated rules learned by VOTE and waiting for their RULE message, and messages that came before
  their vote: rule, whether it stands, tick and value (19 R852). -/
  ruleWait  : List RuleWait
  ruleGot   : List (Nat × Bool × Word × Word)
  /-- The lead's PRE_TICKS, POST_COUNT, AFTER and MASTER in force at a tail (19 R848, R866), by ID. -/
  leadCapt  : List (Nat × Word)
  /-- Messages waiting, the bytes of the one being sent, bytes received, and discarding to the next p = 0. -/
  msgs      : List (List Byte)
  tx        : List Byte
  rx        : List Byte
  rxDead    : Bool
  /-- The SLOT message under way was handed over under a peg since changed (05 R247). -/
  rxDrop    : Bool
  /-- A split due at the next p = 0, with its origin (19 R863). -/
  splitDue  : Option (BitVec 16)
  /-- Forwarded parts that came before its SPLIT (19 R871). -/
  splitAhead : Nat
  /-- The link is up for a last message only, at the side that sends lead words (19 R828). -/
  lastLead  : Bool
  deriving DecidableEq, Repr

/-! ### VIGIL and pending SYNC -/

structure VigilSt where
  /-- Superframe count at entry, the sentinel set, the burst running, the monitor rotation. -/
  since    : Nat
  set      : BitVec 8
  burst    : Option Nat
  waiting  : BitVec 24
  rotation : Nat
  /-- A WAKE edge due at the next p = 0. -/
  wakeDue  : Bool
  deriving DecidableEq, Repr

/-- A decimator reset named and not yet made (12 R551–R556): by its elapsed tick, or in a header by its count; order (0 header, 1 SYNCNOW,
2 pin), origin. -/
structure SyncDue where
  up     : Nat
  count  : Option (BitVec 48)
  order  : Nat
  origin : BitVec 16
  deriving DecidableEq, Repr

/-- A header ARM or DISARM due at p = 0 (15 R670). -/
structure ArmDue where
  arm   : Bool
  armId : BitVec 16
  deriving DecidableEq, Repr

/-! ### The unit -/

structure State where
  u       : UnitSt
  t       : TimeSt
  ring    : RingSt
  out     : OutSt
  cmd     : CmdSt
  rights  : RightsSt
  log     : LogSt
  nv      : NvSt
  fac     : FactorySt
  /-- Parameters that differ from their Reset column, by rising ID (20 R883). -/
  cfg     : List (Nat × Word)
  fd      : FieldSt
  seam    : SeamSt
  tally   : Vector TallySrc 24
  alarm   : Vector AlarmRule 16
  sched   : SchedSt
  chain   : Vector Chain 14
  /-- Conditions of every channel at once: substituted and void codes (01 R63, R64), ORPHAN (03 R160). -/
  gmarks  : List Mark
  /-- AMP0–AMP7, then MOX0–MOX3. -/
  front   : Vector Front 12
  cell    : Vector Cell 4
  mox     : Vector MoxSt 4
  htr     : Vector Heater 4
  brg     : Vector Bridge 2
  hk      : HkSt
  /-- User FIR sets (12 R535) and heater profiles (11 R503). -/
  usets   : Vector (List (BitVec 24)) 16
  profiles : Vector (List (BitVec 64)) 16
  /-- Sync reference t_y in elapsed ticks (12 R548), and named resets. -/
  ty      : Nat
  syncs   : List SyncDue
  arms    : List ArmDue
  z       : ZSt
  trip    : TripSt
  capt    : CaptSt
  stream  : StreamSt
  aout    : AoutSt
  wave    : WaveSt
  twin    : TwinSt
  vigil   : VigilSt
  /-- Events already counted in this superframe: bits 0–4 CLA, CLB, CLF, CLX0, CLX1; 5–6 bridge limits (09 R427, 10 R474). -/
  counted : BitVec 8
  pending : List Instr
  deriving DecidableEq, Repr

/-- The block never stops with a fault: every row of the table has an effect. This constructor is raised by nothing; it
stands so that the type names its reasons (safe). -/
inductive Fault where
  /-- Raised by no meaning. -/
  | none
  deriving DecidableEq, Repr

/-- Why a command has no meaning in this model. -/
inductive Refusal where
  /-- Raised by an arm of `exec` whose command is not modelled yet (safe). -/
  | notModelled (mnemonic : String)
  deriving DecidableEq, Repr

/-! ### Reset -/

def UnitSt0 : UnitSt :=
  { st := .idle, safecause := 0, rcause := 0, armed := false, chgEra := 0, chgTick := 0, romFail := false,
    bootFault := 0, testen := false, bootUs := 0, resetDue := none }

def TimeSt0 : TimeSt :=
  { count := 0, era := 0, p := 0, sf := 0, up := 0, marks := [{ up := 0, count := 0, era := 0 }], cuts := [], unaligned := true,
    firstDue := true, lastHdrEra := none, fix := none, off := none, mapWall := 0, mapTick := 0, slewLeft := 0,
    slewPhase := 0, smallCorr := 0, steps := 0, eraStarts := 0 }

def RingSt0 : RingSt :=
  { lock := .unlocked, missedRun := 0, unlockedAt := 0, selected := .cki, clk := .cki, xtal := false, beaconLock := false,
    dataLoss := false, orphan := false, beaconing := false, beaconSfn := 0, hdr := .none, timeset := false,
    anyGood := false, ration := 0, motion := false, missingRun := 0, lastSfn := 0, missed := 0, poisoned := 0,
    clashes := 0, realigns := 0, orphans := 0, cmdBad := 0, cmdOver := 0, peg := 0, hop := 0, savedPeg := 0,
    savedHop := 0, pegDrop := false, fire := none, fireSf := 0, standing := none, ringKey := none, masterReq := none, masterSf := 0,
    seen := none, lastBad := false, sfnSf := 0, alarmMap := false, faultMap := false, alarmsum := 0 }

def OutSt0 : OutSt := { header := 0, window := [], lane := none, region := [], slot := [], beacon := 0, down := 0, pole := 0 }

def CmdSt0 : CmdSt :=
  { taken := [], replies := [], frags := [], events := [], eseq := 0, lost := 0, dups := [], bulk := none }

def RightsSt0 : RightsSt := { roles := [], recoveries := 0, holdoff := 1000, holdEnd := false, claimFails := 0 }

def LogSt0 : LogSt :=
  { entries := [], anchor := 0, nextSeq := 0, overwritten := 0, unlogged := 0, freeTo := 0xFFFFFFFF }

/-- NV of a unit never written since manufacture (01 R72). -/
def NvSt0 : NvSt :=
  { cfg := .blank, copies := .blank, rights := .blank, sealDesc := .blank, sealEnts := [], nvwConfig := 0, nvwCopies := 0,
    nvwRights := 0, imageCrc := 0, writing := none, staged := none, sealing := [] }

/-- Nominal factory content (DESIGN CHOICE, log 4): gains 1.0 and offsets 0.0 but for the HOUSE page's nominal values. -/
def FactorySt0 : FactorySt :=
  { serial := 0x4820000000000000, claim := List.replicate 8 0x32, romRev := 0, romCrc := 0, crc := 0, calDay := 0,
    wantFrev := 0,
    houseGain := #v[0x43FA0000, 0x43FA0000, 0x41000000, 0x42200000, 0x40A00000, 0x40800000],
    houseOff := #v[0xC3889333, 0xC3889333, 0, 0, 0, 0],
    gainAmp := Vector.replicate 48 0x3F800000, gainMox := Vector.replicate 24 0x3F800000,
    gainBrg := Vector.replicate 2 0x3F800000, offAmp := Vector.replicate 48 0, offMox := Vector.replicate 24 0,
    offBrg := Vector.replicate 2 0 }

def FieldSt0 : FieldSt :=
  { regs := (Vector.replicate 24 0).set 23 1, frst := false, frev := 0, bias := Vector.replicate 4 8192, aout := 0,
    drive := Vector.replicate 6 0, copies := Vector.replicate 6 none, htrOn := 0, excOn := 0, badAt := none, gap := 0,
    inbox := .none, tx := none, rdReq := none, rdAddr := 0, rdData := 0, rdAt := 0, clamps := 0, held := [(0, 0xF00)], aoutLevel := 0, deglitch := false, hkIndex := 0, vdda := true,
    vhtr := true, vdrv := true }

/-- Twenty-three codes of 7 (DESIGN CHOICE, log 6). -/
def codes7 : BitVec 92 := 0x77777777777777777777777#92

/-- The core side of the Seam right after boot. The first repeat BIAS frame carries cells 0 and 1, and round-robin starts with cell 0
(01 R56 does not say: DESIGN CHOICE, log 10). -/
def SeamSt0 : SeamSt :=
  { up := true, codes := codes7, flags := 0, flagHist := [], flagAt := 0, failRun := 0, failTicks := [], goodRun := 0,
    asking := false, sderrRun := 0, vdda := true, vhtr := true,
    vdrv := true, warn := false, htrOn := 0, htrLim := 0, excOn := 0, brgLim := 0, aoutOn := false, frst := false,
    swClosed := 15, ceOn := 0, frev := 0, pins := 0, rbAddr := none, rbHi := none, bias := Vector.replicate 4 8192,
    biasPend := Vector.replicate 4 none, biasAt := Vector.replicate 4 0, lastCell := 3, altPair := false, regQ := [], reads := [],
    want := (Vector.replicate 24 0).set 23 1, sent := (Vector.replicate 24 0).set 23 1, hkSent := 0, fstatDone := true, aout := 0, drive := Vector.replicate 6 0, cut := false,
    fieldRead := [], upFails := 0, upVoid := 0, sderrs := 0, mismatch := 0, hkDiscard := 0, switches := 0 }

def TallySrc0 : TallySrc := { win := [], lasting := false, total := 0, lastTick := 0, since := 0 }

/-- The quiet NaN of 00 R17. -/
def nanW : Word := 0x7FC00000#32

def AlarmRule0 : AlarmRule :=
  { st := .clear, win := [], counted := none, vrun := 0, value := nanW, raises := 0, skipped := false }

def SchedSt0 : SchedSt :=
  { bank := 0, last := none, skipped := 0, deferrals := 0, refusals := 0, tasks := [], nextNum := 1, owed := [], doneSf := none, due := [] }

def Chain0 : Chain :=
  { started := false, conv := none, isSnap := false, integ := Vector.replicate 4 0, comb := Vector.replicate 4 0,
    fir := [], avg := [], from_ := 0, past := none, asSync := false, base := 0, due := [], frac := none, ref := none, outs := [], settle := [], marks := [], dcEst := 0, dcInit := false,
    frozen := false, last := 0, lastBlk := 0, gain := 0x3F800000, off := 0 }

def Front0 : Front :=
  { range := 5, on := false, closed := false, req := none, later := none, vstep := none, holdAt := none,
    oldRange := 5, relSent := false, freeAt := none, run := 0,
    runHigh := false, sat := none, pin := none, clampAt := none, pinCounted := false, clearAt := 0, downCnt := 0, relAt := none, suspended := false, bound := false, quiet := 0,
    satCount := 0, steps := 0, clamps := 0 }

def Cell0 : Cell :=
  { step := .shorted, stuck := false, task := 0, ramping := false, suspended := false, rampFrom := 0, rampAt := 0,
    target := 0 }

def MoxSt0 : MoxSt := { cap := none, leadSrc := false, rNow := nanW }

def Heater0 : Heater :=
  { prof := none, step := 0, done := 0, repeats := none, task := 0, defers := 0, duty := 0, next := 0, pInt := 0,
    meas := none, measAt := 0, used := false, sumV := 0, sumI := 0, void := false, held := false, clamp := false, drvOff := false,
    limit := false, limRep := false, seen := false, old := false, doneV := 0, doneI := 0, doneVoid := false, doneHeld := false, doneClamp := false,
    doneOff := false, doneLim := false, doneSeen := false, doneOld := false, doneDuty := 0, doneOn := false, doneBound := false,
    lead := none, leadSrc := false, bound := false, boundNow := false, deferNow := false, boundNext := false,
    deferNext := false, isOpen := false, isShort := false, limitNow := false, aborted := false, fault := false, abort := none,
    settle := 0, settleNow := false, energy := 0, charge := 0, deferrals := 0, ilim := 0, rNow := nanW, tNow := nanW, pNow := nanW, iNow := nanW,
    last := 0 }

def Bridge0 : Bridge :=
  { running := false, task := 0, target := none, reached := false, warm := 0, warmNow := false, code := 0, ask := none,
    energy := 0, charge := 0, defers := 0, deferrals := 0, deferNow := false, deferNext := false, bound := false, boundNext := false, off := true, limitNow := false, run := 0,
    runHigh := false, sat := none, pin := none, pinCounted := false, satCount := 0, clamps := 0, ratioNow := nanW }

def HkSt0 : HkSt :=
  { monitor := 0, from_ := 0, taken := 0, sum := 0, bad := false, void := false, held := false, out := none,
    newest := Vector.replicate 6 none, goodV := Vector.replicate 6 none, now := Vector.replicate 6 nanW }

def ZSt0 : ZSt :=
  { run := none, queue := [], counts := [], zNow := Vector.replicate 14 nanW, phNow := Vector.replicate 14 0,
    outcome := Vector.replicate 14 0, tick := Vector.replicate 14 0, fails := Vector.replicate 14 0,
    since := Vector.replicate 14 0, real := Vector.replicate 14 0x41200000#32 }

def Tracker0 : Tracker := { prev := none, seen := 0, mode := 0, at_ := 0, fired := false }

def TripSt0 : TripSt :=
  { st := .disarmed, armed := 0, armId := 0, trackers := Vector.replicate 8 Tracker0, triggers := 0, recogAt := 0,
    deadTicks := 0, missed := 0, carry := none, last := none, lastCoinc := 0 }

def CaptSt0 : CaptSt :=
  { phase := .empty, close := 0, shallow := false, localTrig := false, gotFire := false, armId := 0, recs := [],
    prot := 0, fifo := [], nextRec := 0, wroteAt := none, segments := 0, lostAt := none, stopping := false, nextDue := false,
    stored := Vector.replicate 24 none, base := 0, timeAt := 0, trigEra := 0, trigTick := 0, trigFrac := 0,
    placed := false, byTrig := false, postDone := 0, preDepth := 0, firePeg := 0, ignored := 0, overflows := 0, armMissed := 0, bEra := 0,
    bTick := 0, bAmp := 0, bMox := 0, ownKey := none }

def StreamSt0 : StreamSt :=
  { mask := 0, div := 0, count := Vector.replicate 24 0, queue := [], st := .off, lost := 0 }

def AoutSt0 : AoutSt :=
  { range := 0, code := 0, enabled := false, everOn := false, clrLow := false, clrNow := true, clrWas := true, clrCount := 0, safeClear := false, byField := false,
    sent := [] }

def Play0 : Play := { st := .idle, wave := 0, point := 0, passes := 0, period := 0, due := 0 }

def WaveSt0 : WaveSt := { points := Vector.replicate 16 [], skipped := 0, play := Vector.replicate 5 Play0 }

def TwinSt0 : TwinSt :=
  { mode := 0, partner := 0, serial := 0, active := false, join := none, lost := false, fallback := false,
    byRequest := false, byLink := false, alrt := false, aflt := false, joinResult := 0, partnerSt := 0xFF,
    exchanges := 0, fails := 0, hist := [], votes := 0, pairSt := Vector.replicate 16 .clear, voted := 0, farCfg := [],
    fwd := [], fwdIn := [], nextHandle := 1, req := none, grant := none, handed := [], num := none, ruleWait := [], ruleGot := [], leadCapt := [], msgs := [],
    tx := [], rx := [], rxDead := false, rxDrop := false, splitDue := none, splitAhead := 0, lastLead := false }

def VigilSt0 : VigilSt :=
  { since := 0, set := 0, burst := none, waiting := 0, rotation := 0, wakeDue := false }

/-- The marks that stand on a channel after reset: cell disabled, heater not running. -/
def startMarks (c : Nat) : List Mark :=
  if c < 8 then [{ kind := .voidCell, first := 0, last := none }]
  else if c < 12 then [{ kind := .filmOff, first := 0, last := none }]
  else []

/-- The unit before the Logbook entry of its first boot is written. -/
def State0 : State :=
  { u := UnitSt0, t := TimeSt0, ring := RingSt0, out := OutSt0, cmd := CmdSt0, rights := RightsSt0, log := LogSt0,
    nv := NvSt0, fac := FactorySt0, cfg := [], fd := FieldSt0, seam := SeamSt0, tally := Vector.replicate 24 TallySrc0,
    alarm := Vector.replicate 16 AlarmRule0, sched := SchedSt0, gmarks := [],
    chain := Vector.ofFn (fun i => { Chain0 with marks := startMarks i.val }),
    front := Vector.replicate 12 Front0, cell := Vector.replicate 4 Cell0, mox := Vector.replicate 4 MoxSt0,
    htr := Vector.replicate 4 Heater0, brg := Vector.replicate 2 Bridge0, hk := HkSt0, usets := Vector.replicate 16 [],
    profiles := Vector.replicate 16 (List.replicate 32 0), ty := 0, syncs := [], arms := [], z := ZSt0, trip := TripSt0,
    capt := CaptSt0, stream := StreamSt0, aout := AoutSt0, wave := WaveSt0, twin := TwinSt0, vigil := VigilSt0,
    counted := 0, pending := [] }

/-- The entries of the boot just made (03 R137, R141; log 8): BOOT with RCAUSE 0, then STATE_CHANGE to IDLE. No era start is
logged, as neither Logbook nor seal held an entry. The checks are those of 07 R330 (theorem `test_reset_chain`). -/
def bootEntries : List Entry :=
  [{ seq := 0, era := 0, tick := 0, origin := 0, event := 0x0001, subject := 0, old := 0, new := 0, check := 0x9EAC9EEE },
   { seq := 1, era := 0, tick := 0, origin := 0, event := 0x0002, subject := 0, old := 0, new := 1, check := 0x2DCB4D82 }]

/-- The STATE_CHANGED event of the end of boot (06 R289). -/
def bootEvent : Event := { eseq := 0, code := 6, tick := 0, data := [0, 1, 0, 0] }

/-- The machine right after a power-on boot that ended in IDLE (03 R129–R137; log 5). -/
def State.reset : State :=
  { State0 with log := { LogSt0 with entries := bootEntries, nextSeq := 2 },
                cmd := { CmdSt0 with events := [bootEvent], eseq := 1 } }

end Sys2Proof.Machine
end

