-- ==== Sys2Proof/Machine/Ops.lean ====
section
/-! DEFINITION. Named operations over the state: parameters, time tags, Logbook entries, events, replies, register writes. -/

namespace Sys2Proof.Machine

/-! ### Lists keyed by number, in rising order -/

/-- The value listed under `k`. -/
def aget {α : Type} : List (Nat × α) → Nat → Option α
  | [], _ => none
  | (i, a) :: l, k => if i = k then some a else aget l k

/-- The list with `a` under `k`, still in rising order. -/
def aset {α : Type} : List (Nat × α) → Nat → α → List (Nat × α)
  | [], k, a => [(k, a)]
  | (i, b) :: l, k, a =>
    if k < i then (k, a) :: (i, b) :: l else if i = k then (k, a) :: l else (i, b) :: aset l k a

/-- The list without `k`. -/
def adel {α : Type} : List (Nat × α) → Nat → List (Nat × α)
  | [], _ => []
  | (i, b) :: l, k => if i = k then adel l k else (i, b) :: adel l k

/-! ### Parameters -/

/-- The Reset column of an ID (20 R883). -/
def resetOf (id : Nat) : Word :=
  match descOf id with
  | some d => d.reset
  | none => 0

/-- The value a configuration list gives an ID. -/
def cfgGet (c : List (Nat × Word)) (id : Nat) : Word := (aget c id).getD (resetOf id)

/-- The configuration list with a value written; a reset value is not listed. -/
def cfgSet (c : List (Nat × Word)) (id : Nat) (w : Word) : List (Nat × Word) :=
  if w = resetOf id then adel c id else aset c id w

/-- The stored value of a writable parameter. -/
def param (s : State) (id : Nat) : Word := cfgGet s.cfg id

def setParam (s : State) (id : Nat) (w : Word) : State := { s with cfg := cfgSet s.cfg id w }

/-- A parameter as a number, as a flag, as an exact real. -/
def pNat (s : State) (id : Nat) : Nat := (param s id).toNat
def pOn (s : State) (id : Nat) : Bool := decide (pNat s id = 1)
def pVal (s : State) (id : Nat) : Rat := f32Val (param s id)

/-! ### Time tags -/

/-- Count and era of elapsed tick `u` (08 R378): the newest numbering that had begun by then. -/
def tagIn : List TimeMark → Nat → BitVec 48 × BitVec 16
  | [], u => (BitVec.ofNat 48 u, 0)
  | m :: ms, u => if m.up ≤ u then (m.count + BitVec.ofNat 48 (u - m.up), m.era) else tagIn ms u

def tagOf (s : State) (u : Nat) : BitVec 48 × BitVec 16 := tagIn s.t.marks u

/-- The count that follows those a correction skipped in an era, if `c` is one of them (08 R378): numberings newest first. -/
def skipTo (era : BitVec 16) : List TimeMark → Int → Option Int
  | m :: o :: ms, c =>
    if m.era = era ∧ o.era = era ∧ (o.count.toNat : Int) + (m.up - o.up : Nat) ≤ c ∧ c < m.count.toNat then some m.count.toNat
    else skipTo era (o :: ms) c
  | _, _ => none

/-- An instant in 1/256 tick that falls on a count the counter never held is taken at the next count it held (08 R378; log 57). -/
def heldPoint (s : State) (era : BitVec 16) (p : Int) : Int :=
  match skipTo era s.t.marks (p / 256) with
  | some c => 256 * c
  | none => p

/-- The elapsed tick, of the newest numbering that held it, whose count has these low 32 bits. -/
def upOf : List TimeMark → Nat → Word → Option Nat
  | [], _, _ => none
  | m :: ms, stop, w =>
    let d := (w - m.count.setWidth 32).toNat
    if m.up + d ≤ stop then some (m.up + d) else upOf ms (m.up - 1) w

/-- Bits [31:0] of the present count. -/
def tick32 (s : State) : Word := s.t.count.setWidth 32

/-- The state code reported (03 R124). -/
def stCode : UState → Nat
  | .dormant => 0 | .idle => 1 | .run => 2 | .vigil => 3 | .safe => 4

/-! ### Logbook (07 R328–R339) -/

/-- An origin: client and path (07 R312). -/
def org (client path : Nat) : BitVec 16 := BitVec.ofNat 16 (client * 256 + path)

/-- The client of an origin. -/
def orgClient (o : BitVec 16) : Byte := BitVec.ofNat 8 (o.toNat / 256)

/-- The unit itself; a packet; a pin; the partner; an NV restore; a header. -/
def orgUnit : BitVec 16 := org 0 0
def orgPkt (src : Byte) : BitVec 16 := org src.toNat 1
def orgPin : BitVec 16 := org 127 3
def orgTwin : BitVec 16 := org 126 2
def orgHdr : BitVec 16 := org 0 1

/-- Entry bytes 0–27 (07 R328). -/
def entryHead (e : Entry) : List Byte :=
  beBytes 4 e.seq.toNat ++ beBytes 2 e.era.toNat ++ beBytes 6 e.tick.toNat ++ beBytes 2 e.origin.toNat ++
  beBytes 2 e.event.toNat ++ beBytes 2 e.subject.toNat ++ beBytes 4 e.old.toNat ++ beBytes 4 e.new.toNat ++ [0, 0]

/-- All 32 bytes of an entry. -/
def entryBytes (e : Entry) : List Byte := entryHead e ++ beBytes 4 e.check.toNat

/-- The check of an entry, chained to the check before it (07 R330). -/
def chainCheck (prev : Word) (e : Entry) : Word :=
  BitVec.ofNat 32 (crc32 (entryHead e ++ beBytes 4 prev.toNat))

/-- The check the next entry chains to: NEWEST_CHECK (07 R350). -/
def LogSt.newestCheck (l : LogSt) : Word := (l.entries.getLast?.map Entry.check).getD l.anchor

/-- The seq after one; 0xFFFF_FFFF is skipped (07 R329). -/
def seqNext (w : Word) : Word := if w = 0xFFFFFFFE then 0 else w + 1

/-- Chain and append an entry, overwriting the oldest of 4 096 (07 R329, R330, R338). -/
def LogSt.append (l : LogSt) (e : Entry) : LogSt :=
  let e1 := { e with seq := l.nextSeq }
  let e2 := { e1 with check := chainCheck l.newestCheck e1 }
  let l1 := { l with nextSeq := seqNext l.nextSeq }
  if 4096 ≤ l.entries.length then
    { l1 with entries := l.entries.drop 1 ++ [e2], anchor := (l.entries.head?.map Entry.check).getD l.anchor,
              overwritten := l.overwritten + 1 }
  else { l1 with entries := l.entries ++ [e2] }

/-- Under WRAP an overwrite that brings OVERWRITTEN to a multiple of 4 096 is followed by LOG_WRAP (07 R338). -/
def LogSt.writeWrap (l : LogSt) (e : Entry) : LogSt :=
  let l1 := l.append e
  if l1.overwritten ≠ l.overwritten ∧ l1.overwritten % 4096 = 0 then
    l1.append { e with origin := 0, event := 0x0009, subject := 0, old := 0, new := BitVec.ofNat 32 l1.overwritten }
  else l1

/-- Under STOP the last place takes LOG_FULL, and what finds no place is counted (07 R339). -/
def LogSt.writeStop (l : LogSt) (e : Entry) : LogSt :=
  if l.entries.length < 4095 then l.append e
  else if l.entries.length = 4095 then
    let l1 := l.append { e with origin := 0, event := 0x000A, subject := 0, old := 0, new := 0 }
    { l1 with unlogged := l.unlogged + 1 }
  else { l with unlogged := l.unlogged + 1 }

/-- LOG.POLICY is STOP. -/
def stopPolicy (s : State) : Bool := pOn s (idLog 0)

/-- STOP, with the Logbook full or only the place of LOG_FULL left (07 R339, R345). -/
def logBlocked (s : State) : Bool := stopPolicy s && decide (4095 ≤ s.log.entries.length)

/-- Write one entry with a given tag. -/
def logTag (s : State) (tg : BitVec 48 × BitVec 16) (origin : BitVec 16) (event subject : Nat) (old new : Word) : State :=
  let e : Entry :=
    { seq := 0, era := tg.2, tick := tg.1, origin := origin, event := BitVec.ofNat 16 event,
      subject := BitVec.ofNat 16 subject, old := old, new := new, check := 0 }
  { s with log := if stopPolicy s then s.log.writeStop e else s.log.writeWrap e }

/-- Write one entry with the tag of elapsed tick `u`. -/
def logAt (s : State) (u : Nat) (origin : BitVec 16) (event subject : Nat) (old new : Word) : State :=
  logTag s (tagOf s u) origin event subject old new

/-- Write one entry with the tag of the present tick (07 R331). -/
def logE (s : State) (origin : BitVec 16) (event subject : Nat) (old new : Word) : State :=
  logAt s s.t.up origin event subject old new

/-- LOG_FULL at the present tick, in the last place (07 R339). -/
def logFull (s : State) : State :=
  let tg := tagOf s s.t.up
  let e : Entry :=
    { seq := 0, era := tg.2, tick := tg.1, origin := 0, event := 0x000A, subject := 0, old := 0, new := 0, check := 0 }
  { s with log := s.log.append e }

/-- A flag as a carrier. -/
def flagW (b : Bool) : Word := if b then 1 else 0

/-- A number as a carrier. -/
def natW (n : Nat) : Word := BitVec.ofNat 32 n

/-! ### Events (06 R288–R290) -/

/-- Queue an event, or count it lost. -/
def queueEvent (s : State) (code : Nat) (data : List Byte) : State :=
  if 16 ≤ s.cmd.events.length then { s with cmd.lost := s.cmd.lost + 1 }
  else
    let e : Event := { eseq := s.cmd.eseq, code := BitVec.ofNat 8 code, tick := tick32 s, data := data }
    { s with cmd.events := s.cmd.events ++ [e], cmd.eseq := s.cmd.eseq + 1 }

def byteOf (n : Nat) : Byte := BitVec.ofNat 8 n

/-! ### Status codes (06 R300) -/

def stDone : Nat := 0x00
def stAccepted : Nat := 0x01
def stDeferred : Nat := 0x02
def stRefused : Nat := 0x03
def stDenied : Nat := 0x10
def stLocked : Nat := 0x11
def stBadId : Nat := 0x12
def stBadValue : Nat := 0x13
def stBadLen : Nat := 0x14
def stUnknown : Nat := 0x15
def stWrongState : Nat := 0x16
def stTwinTail : Nat := 0x17
def stBusy : Nat := 0x18
def stNvFail : Nat := 0x19
def stSeqDup : Nat := 0x1A

/-- An answer of a status with data. -/
def answer (status : Nat) (data : List Byte) : Answer := { status := byteOf status, data := data }

/-- SEQ_DUP with the recorded status and data. -/
def dupAnswer (a : Answer) : Answer := answer stSeqDup (a.status :: a.data)

/-! ### Seam hand-over (01 R56, R57, R59) -/

/-- Hand one register write to the Seam. -/
def regWrite (s : State) (addr : Nat) (data : BitVec 16) : State :=
  let acc : RegAcc := { read := false, addr := byteOf addr, data := data, tries := 0, at_ := s.t.up, alts := [] }
  { s with seam.regQ := s.seam.regQ ++ [acc],
           seam.want := vset s.seam.want addr data }

/-- The control register as last handed over. -/
def regWant (s : State) (addr : Nat) : BitVec 16 := vget s.seam.want addr 0

/-- Replace bits [hi:lo] of a register word. -/
def regField (r : BitVec 16) (hi lo v : Nat) : BitVec 16 :=
  BitVec.ofNat 16 (r.toNat - bits r.toNat hi lo * 2 ^ lo + v % 2 ^ (hi + 1 - lo) * 2 ^ lo)

/-- Hand a register over with one field changed. -/
def regSet (s : State) (addr hi lo v : Nat) : State := regWrite s addr (regField (regWant s addr) hi lo v)

/-- Hand a bias code to the Seam; it replaces one still pending (01 R57). -/
def biasSend (s : State) (k : Nat) (code : BitVec 14) : State :=
  { s with seam.biasPend := vset s.seam.biasPend k (some code),
           seam.biasAt := if (vget s.seam.biasPend k none).isSome then s.seam.biasAt else vset s.seam.biasAt k s.t.up }

/-! ### Short access to the arrays of the state -/

def chainOf (s : State) (c : Nat) : Chain := vget s.chain c Chain0
def frontOf (s : State) (n : Nat) : Front := vget s.front n Front0
def cellOf (s : State) (k : Nat) : Cell := vget s.cell k Cell0
def moxOf (s : State) (n : Nat) : MoxSt := vget s.mox n MoxSt0
def htrOf (s : State) (n : Nat) : Heater := vget s.htr n Heater0
def brgOf (s : State) (b : Nat) : Bridge := vget s.brg b Bridge0
def tallyOf (s : State) (i : Nat) : TallySrc := vget s.tally i TallySrc0
def ruleOf (s : State) (r : Nat) : AlarmRule := vget s.alarm r AlarmRule0
def playOf (s : State) (t : Nat) : Play := vget s.wave.play t Play0

def modChain (s : State) (c : Nat) (f : Chain → Chain) : State := { s with chain := vmod s.chain c f }
def modFront (s : State) (n : Nat) (f : Front → Front) : State := { s with front := vmod s.front n f }
def modCell (s : State) (k : Nat) (f : Cell → Cell) : State := { s with cell := vmod s.cell k f }
def modMox (s : State) (n : Nat) (f : MoxSt → MoxSt) : State := { s with mox := vmod s.mox n f }
def modHtr (s : State) (n : Nat) (f : Heater → Heater) : State := { s with htr := vmod s.htr n f }
def modBrg (s : State) (b : Nat) (f : Bridge → Bridge) : State := { s with brg := vmod s.brg b f }
def modRule (s : State) (r : Nat) (f : AlarmRule → AlarmRule) : State := { s with alarm := vmod s.alarm r f }
def modPlay (s : State) (t : Nat) (f : Play → Play) : State := { s with wave.play := vmod s.wave.play t f }

/-- Apply a step for each number of a list, in order. -/
def forEach (s : State) (ns : List Nat) (f : State → Nat → State) : State := ns.foldl f s

/-- The numbers below `n` whose bit of a mask is set, rising. -/
def maskList (n m : Nat) : List Nat := (List.range n).filter (bit m)

/-- The next state an outcome answers. -/
def outState (s : State) : Host.Outcome State Fault Refusal → State
  | .next t => t
  | _ => s

/-! ### Marks by span (12 R571, R572) -/

/-- Marks that no span still to come can reach are dropped: the longest span is under 2²⁴ ticks (12 R545). -/
def prune (u : Nat) (ms : List Mark) : List Mark :=
  ms.filter (fun m => match m.last with
    | none => true
    | some l => decide (u ≤ l + 2 ^ 24))

/-- Open a mark of a list, if none of its kind is open. -/
def openIn (k : MarkKind) (u : Nat) (ms : List Mark) : List Mark :=
  if ms.any (fun m => m.kind == k && m.last.isNone) then ms else { kind := k, first := u, last := none } :: prune u ms

/-- Close the open mark of a kind; `u` is its last tick. -/
def closeIn (k : MarkKind) (u : Nat) (ms : List Mark) : List Mark :=
  ms.map (fun m => if m.kind == k && m.last.isNone then { m with last := some u } else m)

/-- Open a mark on a channel's chain. -/
def markOpen (k : MarkKind) (u : Nat) (c : Chain) : Chain :=
  { c with marks := openIn k u c.marks }

/-- Close the open mark of a kind; `u` is its last tick. -/
def markClose (k : MarkKind) (u : Nat) (c : Chain) : Chain :=
  { c with marks := closeIn k u c.marks }

/-- Mark ticks `u` to `v`. -/
def markAdd (k : MarkKind) (u v : Nat) (c : Chain) : Chain :=
  { c with marks := { kind := k, first := u, last := some v } :: prune u c.marks }

/-- Whether a mark of the kind is open. -/
def markIsOpen (k : MarkKind) (c : Chain) : Bool := c.marks.any (fun m => m.kind == k && m.last.isNone)

/-! ### Chain figures (12 R531–R546) -/

/-- Decimation C of FILT.CIC. -/
def cicC (s : State) (c : Nat) : Nat := 8 * 2 ^ pNat s (idFilt c 0)

/-- Half-coefficients H of the user set a channel selects. -/
def userH (s : State) (c : Nat) : Nat := (vget s.usets (pNat s (idFilt c 2)) []).length

/-- Taps L and decimation F of a channel's response (12 R533). -/
def firLF (s : State) (c : Nat) : Nat × Nat :=
  match pNat s (idFilt c 1) with
  | 0 => (1, 1) | 1 => (23, 2) | 2 => (63, 4) | 3 => (127, 8) | 4 => (255, 8) | 5 => (31, 1) | 6 => (63, 2)
  | _ => (2 * userH s c - 1, 2 ^ pNat s (idFilt c 3))

/-- FIR 7 with an empty set: the configuration cannot run (12 R539, R943). -/
def chainDead (s : State) (c : Nat) : Bool := pNat s (idFilt c 1) == 7 && userH s c == 0

def avgA (s : State) (c : Nat) : Nat := pNat s (idFilt c 4)

/-- Output period P (12 R544). -/
def chainP (s : State) (c : Nat) : Nat := cicC s c * (firLF s c).2 * avgA s c

/-- Response span S (12 R545). -/
def chainS (s : State) (c : Nat) : Nat :=
  4 * (cicC s c - 1) + ((firLF s c).1 - 1) * cicC s c + (avgA s c - 1) * cicC s c * (firLF s c).2 + 1

/-- Group delay G (12 R546). -/
def chainG (s : State) (c : Nat) : Nat := (chainS s c - 1) / 2

/-- Settling count N_G (12 R559). -/
def chainNG (s : State) (c : Nat) : Nat := if chainP s c = 0 then 0 else (chainS s c - 1 + chainP s c - 1) / chainP s c

/-- SCS conversion length in output periods, and P_SCS (12 R563). -/
def chainPscs (s : State) (c : Nat) : Nat :=
  if chainP s c = 0 then 0 else (chainS s c + chainP s c - 1) / chainP s c * chainP s c

/-- A channel's responses cleared: CIC registers, delay line and averager (12 R551, R557). -/
def clearChain (c : Chain) : Chain :=
  { c with integ := Vector.replicate 4 0, comb := Vector.replicate 4 0, fir := [], avg := [] }

/-- The present output grid of a channel, in elapsed ticks (12 R548). -/
def gridBase (s : State) (c : Nat) : Int := (s.ty : Int) + (pNat s (idFilt c 6) : Int)

/-- From the code decided at tick `u` on, the chain runs on the present grid, cleared or not. -/
def chainDue (s : State) (c u : Nat) (clear : Bool) : State :=
  modChain s c (fun ch => { ch with due := ch.due ++ [(u, gridBase s c, clear)] })

/-- The grid's origin, a change still due included. -/
def baseNow (ch : Chain) : Int :=
  match ch.due.getLast? with
  | some d => d.2.1
  | none => ch.base

/-- SCS mode of a running chain: a single conversion, the bursts of VIGIL, or FILT.SCS (12 R563, R564). -/
def scsMode (s : State) (c : Nat) : Bool := (chainOf s c).conv.isSome || (s.u.st == .vigil) || pOn s (idFilt c 5)

/-- Count N_G samples from a reference tick as SETTLING (12 R559). An SCS chain tags the sample whose span straddles the
reference tick instead (12 R561): an entry with none left. -/
def settleFrom (s : State) (c ref : Nat) : State :=
  modChain s c (fun ch => { ch with settle := { ref := ref, left := if scsMode s c then 0 else chainNG s c } :: ch.settle })

/-! ### Supplies and conditions -/

/-- The unit is running: neither dormant nor stopped by its ROM check (03 R131, R159). -/
def alive (s : State) : Bool := (s.u.st != .dormant) && !s.u.romFail

/-- The ORPHAN condition (04 R219, R225). -/
def isOrphan (s : State) : Bool := s.ring.orphan

/-- Span or Mirror roles (07 R335). -/
def isLead (s : State) : Bool := s.twin.mode == 1 || s.twin.mode == 2
def isTail (s : State) : Bool := s.twin.mode == 3 || s.twin.mode == 4
def isSpanLead (s : State) : Bool := s.twin.mode == 1
def isMirror (s : State) : Bool := s.twin.mode == 2 || s.twin.mode == 4

end Sys2Proof.Machine
end

