-- ==== Sys2Proof/Machine/Tally.lean ====
section
/-! DEFINITION. The counting window shared by tally sources and alarm rules (16 R693–R697), the task table (17 R742), and the
state changes of an alarm rule (16 R710, R711). -/

namespace Sys2Proof.Machine

/-! ### Windows (16 R694) -/

/-- Buckets of a window of W superframes. -/
def winN (w : Nat) : Nat := min 8 w

/-- Superframes in a bucket. -/
def winB (w : Nat) : Nat := if winN w = 0 then 1 else (w + winN w - 1) / winN w

/-- Events counted at superframe `n`; the count saturates at 65 535. -/
def winCount (b : Buckets) (w n : Nat) : Nat :=
  min 65535 (((b.filter (fun x => decide (n / winB w < x.1 + winN w))).map Prod.snd).foldl (· + ·) 0)

/-- Count one event in superframe `n`; buckets that have left the window are dropped. -/
def winAdd (b : Buckets) (w n : Nat) : Buckets :=
  let live := b.filter (fun x => decide (n / winB w < x.1 + winN w))
  match live with
  | [] => [(n / winB w, 1)]
  | (k, c) :: rest => if k = n / winB w then (k, min 65535 (c + 1)) :: rest else (n / winB w, 1) :: (k, c) :: rest

/-! ### Sources (16 R696) -/

def tallyK (s : State) (i : Nat) : Nat := pNat s (idTallyK i)
def tallyW (s : State) (i : Nat) : Nat := pNat s (idTallyW i)

/-- A source's count in window now. -/
def tallyCount (s : State) (i : Nat) : Nat := winCount (tallyOf s i).win (tallyW s i) s.t.sf

/-- 0 QUIET, 1 TRANSIENT, 2 LASTING. -/
def tallyCond (s : State) (i : Nat) : Nat :=
  if (tallyOf s i).lasting then 2 else if tallyCount s i = 0 then 0 else 1

/-- A source is LASTING. -/
def isLasting (s : State) (i : Nat) : Bool := (tallyOf s i).lasting

/-- Count one event of source `i`; nothing else (16 R694, R698). -/
def tallyAdd (s : State) (i : Nat) : State :=
  { s with tally := vmod s.tally i (fun t => { t with win := winAdd t.win (tallyW s i) s.t.sf, total := t.total + 1 }) }

/-- The latch, its entry and its event (16 R696, R711). -/
def tallyLatch (s : State) (i : Nat) : State :=
  let s1 := { s with tally := vmod s.tally i (fun t => { t with lasting := true, lastTick := tick32 s, since := s.t.up }) }
  queueEvent (logE s1 orgUnit 0x0072 i 0 1) 0x04 [byteOf i, byteOf (min 255 (tallyCount s1 i))]

/-- Empty a source's window (16 R699). -/
def tallyEmpty (s : State) (i : Nat) : State :=
  { s with tally := vmod s.tally i (fun t => { t with win := [] }) }

/-- SAFE causes now in force but for bit 6 (03 R152, 16 R701). -/
def safeCauses (s : State) : BitVec 16 :=
  BitVec.ofNat 16 (b2n (isLasting s 0) + 2 * b2n (isLasting s 1) + 4 * b2n (isLasting s 2) + 16 * b2n (isLasting s 17) +
    32 * b2n (isLasting s 18)) ||| s.u.bootFault

/-! ### Tasks (17 R741–R743, 06 R285) -/

/-- The next free number from `n` on; `fuel` numbers are tried. -/
def freeNum (used : List Nat) : Nat → Nat → Nat
  | 0, n => n
  | fuel + 1, n => if used.contains n then freeNum used fuel (if n = 255 then 1 else n + 1) else n

/-- The number a new task takes. -/
def nextTaskNum (s : State) : Nat := freeNum (s.sched.tasks.map TaskRec.num) 17 s.sched.nextNum

/-- No place for a 17th task (17 R743). -/
def tasksFull (s : State) : Bool := decide (16 ≤ s.sched.tasks.length)

def taskAdd (s : State) (t : TaskRec) : State :=
  { s with sched.tasks := s.sched.tasks ++ [t], sched.nextNum := if t.num = 255 then 1 else t.num + 1 }

/-- A new task of an opcode; its number is `nextTaskNum` of the state it enters. -/
def taskNew (s : State) (opc : Nat) (cls : TaskClass) (origin : BitVec 16) (obj : TaskObj) : State :=
  taskAdd s { num := nextTaskNum s, opc := byteOf opc, cls := cls, origin := origin, obj := obj, born := s.t.sf,
              state := if cls = .keep then .running else .waiting, reason := 0, defers := 0, logged := none, energy := 0,
              stage := 0 }

/-- Opcode shown for a task the unit starts itself (17 R756). -/
def autoOpc : TaskObj → Nat
  | .periodic _ => 0x2C
  | .sealLog _ => 0x0D
  | _ => 0x00

/-- Create a task of client 0, or owe it where the table is full. -/
def autoTask (s : State) (cls : TaskClass) (obj : TaskObj) : State :=
  if tasksFull s then { s with sched.owed := s.sched.owed ++ [obj] }
  else taskNew s (autoOpc obj) cls orgUnit obj

def taskOf (s : State) (n : Nat) : Option TaskRec := s.sched.tasks.find? (fun t => t.num == n)

def taskMod (s : State) (n : Nat) (f : TaskRec → TaskRec) : State :=
  { s with sched.tasks := s.sched.tasks.map (fun t => if t.num = n then f t else t) }

/-- TASK_DONE of a task (06 R289). -/
def taskDone (s : State) (t : TaskRec) (status reason : Nat) (result : List Byte) : State :=
  queueEvent s 0x03 ([byteOf t.num, t.opc, byteOf status, byteOf reason] ++ result)

/-- End a task: it leaves the table, writes TASK_END and queues TASK_DONE. -/
def taskEndBy (origin : BitVec 16) (s : State) (n status reason : Nat) (result : List Byte) : State :=
  match taskOf s n with
  | none => s
  | some t =>
    let s1 := { s with sched.tasks := s.sched.tasks.filter (fun x => x.num != n) }
    taskDone (logE s1 origin 0x0062 n (t.opc.setWidth 32) (natW status)) t status reason result

/-- End a task by the unit. -/
def taskEnd (s : State) (n status reason : Nat) (result : List Byte) : State := taskEndBy orgUnit s n status reason result

/-- An automatic seal on entry to SAFE (bit 0) or VIGIL (bit 1); skipped and counted where it could not be logged (07 R344, R345). -/
def autoSeal (s : State) (b : Nat) : State :=
  if !bit (pNat s (idLog 1)) b then s
  else if logBlocked s then { s with log.unlogged := s.log.unlogged + 1 }
  else autoTask s .chore (.sealLog false)

/-! ### Pole-link messages (19 R824) -/

/-- A message: TYPE, LEN, payload and CRC-16. -/
def twinMsg (type : Nat) (payload : List Byte) : List Byte :=
  let m := [byteOf type, byteOf payload.length] ++ payload
  m ++ beBytes 2 (crc16 m)

/-- Queue a message for the partner. -/
def twinSend (s : State) (type : Nat) (payload : List Byte) : State :=
  { s with twin.msgs := s.twin.msgs ++ [twinMsg type payload] }

/-! ### Alarm rules: fields and transitions (16 R706–R711, 19 R851–R855) -/

/-- A field of rule `r` in force here: a Span tail runs the lead's rules (19 R851). -/
def alarmW (s : State) (f r : Nat) : Word :=
  if s.twin.mode = 3 then cfgGet s.twin.farCfg (idAlarm f r) else param s (idAlarm f r)
def alarmN (s : State) (f r : Nat) : Nat := (alarmW s f r).toNat

def alarmOn (s : State) (r : Nat) : Bool := alarmN s 0x0 r == 1
def alarmOpt (s : State) (r : Nat) : Nat := alarmN s 0xA r
def alarmAct (s : State) (r : Nat) : Nat := alarmN s 0xB r

def alarmCode : AlarmSt → Nat
  | .clear => 0 | .raised => 1 | .latched => 2

/-- A rule's count in window now. -/
def alarmCount (s : State) (r : Nat) : Nat := winCount (ruleOf s r).win (alarmN s 0x9 r) s.t.sf

def pairOf (s : State) (r : Nat) : AlarmSt := vget s.twin.pairSt r .clear

/-- The event of a transition (16 R711): ALARM_RAISED to RAISED, ALARM_CLEARED from RAISED. -/
def alarmEvent (s : State) (r : Nat) (was next : AlarmSt) (value : Word) : State :=
  let body := [byteOf r, byteOf (alarmN s 0x1 r)] ++ beBytes 4 value.toNat
  if next = .raised then queueEvent s 0x01 body else if was = .raised then queueEvent s 0x02 body else s

/-- A transition of the pair state at a Mirror lead (19 R855): subject bit 8 set. -/
def pairTo (s : State) (r : Nat) (next : AlarmSt) (value : Word) : State :=
  let was := pairOf s r
  let s1 := { s with twin.pairSt := vset s.twin.pairSt r next }
  alarmEvent (logE s1 orgUnit 0x0070 (r + 256) (natW (alarmCode was)) (natW (alarmCode next))) r was next value

/-- The partner's vote bit of a rule. -/
def farVote (s : State) (r : Nat) : Bool := s.twin.votes.getLsbD r

/-- A good tail word has arrived in the last 8 exchanges (19 R856). -/
def partnerUsable (s : State) : Bool := (s.twin.hist.take 8).any id

/-- The voted value V of a rule at a Mirror lead (19 R856). -/
def voteOf (s : State) (r : Nat) : Bool :=
  let l := (ruleOf s r).st == .raised
  let f := farVote s r
  let old := s.twin.voted.getLsbD r
  match bits (alarmOpt s r) 11 10, partnerUsable s with
  | 0, _ => l
  | 1, u => l || (u && f)
  | 2, true => l && f
  | 2, false => old
  | _, true => l && f
  | _, false => l

/-- Form V of an enabled rule and make the pair transition it asks for (19 R855). -/
def pairVote (s : State) (r : Nat) (value : Word) : State :=
  if s.twin.mode ≠ 2 ∨ !alarmOn s r then s else
    let v := voteOf s r
    let old := s.twin.voted.getLsbD r
    let s1 := { s with twin.voted := putBit s.twin.voted r v }
    if v && !old && pairOf s r != .raised then pairTo s1 r .raised value
    else if !v && old && pairOf s r == .raised then
      pairTo s1 r (if bit (alarmOpt s r) 9 then .latched else .clear) value
    else s1

/-- One transition of a rule: its state, then the entry and event of R711; at a Span tail a RULE message and neither
(19 R851, R852), in Mirror the entry alone and the vote (19 R854). -/
def alarmTo (s : State) (r : Nat) (next : AlarmSt) (origin : BitVec 16) (value : Word) : State :=
  let was := (ruleOf s r).st
  let s1 := modRule s r (fun a => { a with st := next, raises := if next = .raised then a.raises + 1 else a.raises })
  if s.twin.mode = 3 then
    twinSend s1 0x09 ([byteOf r, byteOf (alarmCode next)] ++ beBytes 4 (tick32 s).toNat ++ beBytes 4 value.toNat)
  else
    let s2 := logE s1 origin 0x0070 r (natW (alarmCode was)) (natW (alarmCode next))
    if isMirror s then pairVote s2 r value else alarmEvent s2 r was next value

/-- A RAISED rule leaves that state: LATCHED with its latch set, else CLEAR; in Mirror the latch is the pair's. -/
def alarmLeave (s : State) (r : Nat) (origin : BitVec 16) (value : Word) : State :=
  alarmTo s r (if bit (alarmOpt s r) 9 && !isMirror s then .latched else .clear) origin value

/-- The pair state of a rule disabled at a Mirror lead (16 R710, R728, 19 R855). -/
def pairOff (s : State) (r : Nat) (origin : BitVec 16) : State :=
  if s.twin.mode ≠ 2 then s
  else
    let was := pairOf s r
    let s1 := { s with twin := { s.twin with pairSt := vset s.twin.pairSt r .clear, voted := putBit s.twin.voted r false } }
    if was = .clear then s1
    else alarmEvent (logE s1 origin 0x0070 (r + 256) (natW (alarmCode was)) 0) r .raised .clear nanW

/-- ENABLE written 0: a rule RAISED or LATCHED becomes CLEAR, with ALARM_CLEARED from either (16 R728). -/
def ruleOff (s : State) (r : Nat) (origin : BitVec 16) : State :=
  let was := (ruleOf s r).st
  let s1 := if was = .clear then s else alarmTo s r .clear origin nanW
  pairOff (if was = .latched && s.twin.mode != 3 && !isMirror s then alarmEvent s1 r .raised .clear nanW else s1) r origin

/-- The state a rule acts by: the pair state at a Mirror lead, none at a Mirror tail (19 R855, R866). -/
def ruleSt (s : State) (r : Nat) : AlarmSt :=
  if s.twin.mode = 2 then pairOf s r else if s.twin.mode = 4 then .clear else (ruleOf s r).st

/-- A rule acts: enabled, RAISED or LATCHED, with a bit of ACTIONS (16 R713). -/
def alarmActs (s : State) (b r : Nat) : Bool := alarmOn s r && ruleSt s r != .clear && bit (alarmAct s r) b

/-- RUN, VIGIL or SAFE (16 R714–R716). -/
def stActive (s : State) : Bool := s.u.st == .run || s.u.st == .vigil || s.u.st == .safe

/-- Some rule acts by a bit of ACTIONS. -/
def someRule (s : State) (b : Nat) : Bool := (List.range 16).any (alarmActs s b)

/-- Some source is LASTING. -/
def someLasting (s : State) : Bool := (List.range 24).any (isLasting s)

/-- ALERT_N is asserted: the unit's own condition (16 R714), or at a tail the lead's ALRT (19 R860). -/
def alertOwn (s : State) : Bool :=
  stActive s && (someRule s 0 || (List.range 24).any (fun i => isLasting s i && bit (pNat s (idTally 0xC0)) i))
def alertN (s : State) : Bool := alertOwn s || (isTail s && s.twin.alrt)

/-- The AOUT fault request (16 R715); a Mirror tail takes the lead's (19 R860), a Span tail's rules are the lead's. -/
def faultReq (s : State) : Bool :=
  (s.twin.mode != 3 && stActive s && someRule s 1) || (s.twin.mode == 4 && s.twin.aflt)

end Sys2Proof.Machine
end

