-- ==== Sys2Proof/Machine/Outputs.lean ====
section
/-! DEFINITION. Cell bias and its sequences (03 R143–R145, 09 R388–R402), the analogue output (18 R768–R791) and the end of a
waveform (18 R801–R803). -/

namespace Sys2Proof.Machine

/-! ### Bias codes (09 R392, R393) -/

/-- One step of the bias DAC in volts: 2.4 V / 16 384. -/
def biasLsb : Rat := 24 / 163840

/-- The code nearest to a voltage, halves away from zero. -/
def biasCode (v : Rat) : BitVec 14 := BitVec.ofInt 14 (max 0 (min 16383 (8192 + roundAway (v / biasLsb))))

/-- The voltage of a code. -/
def biasVolt (c : BitVec 14) : Rat := ((c.toNat : Int) - 8192 : Int) * biasLsb

/-- The code last handed to the Seam for a cell. -/
def biasHanded (s : State) (k : Nat) : BitVec 14 :=
  (vget s.seam.biasPend k none).getD (vget s.seam.bias k 8192)

/-- Hand a code over where it changes (09 R394). -/
def biasTo (s : State) (k : Nat) (c : BitVec 14) : State := if c = biasHanded s k then s else biasSend s k c

/-- The setpoint a cell's ramp heads for: the exact voltage of CELL.BIAS's code (09 R393), 0 V while it closes. -/
def cellGoal (s : State) (k : Nat) : Rat :=
  match (cellOf s k).step with
  | .closing _ => 0
  | _ => biasVolt (biasCode (pVal s (idCell k 0)))

/-- Move `a` toward `goal` by at most `d`. -/
def moveToward (a goal d : Rat) : Rat :=
  if a < goal then (if goal < a + d then goal else a + d) else if a - d < goal then goal else a - d

/-- One tick, in seconds. -/
def tickS : Rat := 1 / 512000

/-- The target of a ramp after `n` ticks (09 R394). -/
def rampAfter (s : State) (k n : Nat) : Rat :=
  let c := cellOf s k
  if n = 0 then c.rampFrom
  else if pVal s (idCell k 1) = 0 then cellGoal s k
  else moveToward c.rampFrom (cellGoal s k) (n * (pVal s (idCell k 1) * tickS))

/-- Start, or start afresh, the ramp of a cell from the target reached. -/
def rampStart (s : State) (k : Nat) : State :=
  modCell s k (fun c => { c with ramping := true, rampFrom := c.target, rampAt := s.t.up })

/-- Bring the target of a ramp that runs up to this tick, before its goal or its rate changes (09 R394–R396). -/
def rampCatch (s : State) (k : Nat) : State :=
  let c := cellOf s k
  if !c.ramping || c.suspended then s
  else
    let tgt := rampAfter s k (s.t.up - c.rampAt)
    modCell s k (fun c => { c with target := tgt, rampFrom := tgt, rampAt := s.t.up })

/-- A waveform plays or is suspended on target `t`. -/
def isPlaying (s : State) (t : Nat) : Bool := (playOf s t).st != .idle

/-- CELL.STATUS (09 R435). -/
def cellStatus (s : State) (k : Nat) : Nat :=
  let c := cellOf s k
  match c.step with
  | .shorted => 0
  | .opening _ => 1
  | .open_ => if c.ramping then 2 else 3
  | .closing _ => 4

/-- The cell counts as enabled. -/
def cellOn (s : State) (k : Nat) : Bool :=
  match (cellOf s k).step with
  | .opening _ => true
  | .open_ => true
  | _ => false

/-! ### Waveforms: the end of playback (18 R801–R803) -/

/-- The points of an area. -/
def wavePts (s : State) (w : Nat) : List (BitVec 16) := vget s.wave.points w []

/-- The point in force of a playing target. -/
def pointOf (s : State) (t : Nat) : BitVec 16 := (wavePts s (playOf s t).wave).getD (playOf s t).point 0

/-- A waveform's number in a WAVE_RUN entry or PLAY_t. -/
def playCode (s : State) (t : Nat) : Nat := if isPlaying s t then (playOf s t).wave + 1 else 0

/-- End playback on a target: the last point stays, and a cell that stays open ramps to its setpoint. -/
def playEnd (s : State) (t : Nat) (origin : BitVec 16) (closing : Bool) : State :=
  if !isPlaying s t then s else
    let pt := pointOf s t
    let s1 := logE s origin 0x0054 t (natW (playCode s t)) 0
    let s2 := modPlay s1 t (fun p => { Play0 with point := p.point, wave := p.wave })
    if t = 0 then { s2 with aout.code := pt }
    else
      let k := t - 1
      let s3 := modCell s2 k (fun c => { c with target := biasVolt (BitVec.ofNat 14 (pt.toNat / 4)) })
      if closing then s3 else rampStart s3 k

/-- End playback on every target, by the unit. -/
def playEndAll (s : State) : State := forEach s [0, 1, 2, 3, 4] (fun s t => playEnd s t orgUnit false)

/-! ### The analogue output (18 R771–R791) -/

/-- AOUT.SOURCE's row, whether or not the output is enabled (18 R778). -/
def aoutRow (s : State) : Nat :=
  if s.aout.clrLow then 4
  else if s.aout.safeClear && s.u.st == .safe then 5
  else if faultReq s then 3
  else if isPlaying s 0 then 2
  else 1

/-- The code in force (18 R778). -/
def outCode (s : State) : BitVec 16 :=
  match aoutRow s with
  | 4 => (param s (idAout 1)).setWidth 16
  | 5 => (param s (idAout 1)).setWidth 16
  | 3 => (param s (idAout 2)).setWidth 16
  | 2 => pointOf s 0
  | _ => s.aout.code

/-- Disable AOUT and end its waveform; `write` is clear where the field die has disabled it by itself (18 R774–R776). -/
def aoutOff (s : State) (origin : BitVec 16) (write : Bool) : State :=
  if !s.aout.enabled then s else
    let s1 := { s with aout.enabled := false }
    let s2 := if write then regSet s1 0x16 0 0 0 else s1
    let s3 := logE s2 origin 0x0057 0 1 0
    playEnd s3 0 orgUnit false

/-! ### Front ends of a cell -/

/-- The neighbours of an AMP or MOX channel (09 R428, 10 R475). -/
def neighbours (n : Nat) : List Nat :=
  (if n = 0 ∨ n = 8 ∨ 12 ≤ n then [] else [n - 1]) ++ (if n = 7 ∨ 11 ≤ n then [] else [n + 1])

/-- A clamp episode of an AMP or MOX channel is running (09 R426). -/
def inEpisode (s : State) (n : Nat) : Bool := (frontOf s n).sat.isSome || (frontOf s n).pin.isSome

/-- A clamp episode runs from tick `first` on: the neighbours' DEGRADED interval opens with it, or begins earlier (09 R426, R429). -/
def neighbourOpen (s : State) (n first : Nat) : State :=
  let k : MarkKind := .neighbour n
  match (frontOf s n).clampAt with
  | none =>
    let s1 := modFront s n (fun f => { f with clampAt := some first, clearAt := 0 })
    forEach s1 (neighbours n) (fun s m => modChain s m (fun c => markOpen k first (markClose k 0 c)))
  | some a =>
    if a ≤ first then s
    else
      let back (m : Mark) : Mark := if m.kind == k && m.last.isNone then { m with first := first } else m
      forEach (modFront s n (fun f => { f with clampAt := some first })) (neighbours n)
        (fun s m => modChain s m (fun c => { c with marks := c.marks.map back }))

/-- One of an episode's parts cleared at `clear`; once none is left the interval runs to 1 023 ticks past the later clearing tick
(09 R426, R429; 09 R444: the marks of two neighbours stand side by side). -/
def neighbourClose (s : State) (n clear : Nat) : State :=
  let c := max clear (frontOf s n).clearAt
  let s1 := modFront s n (fun f => { f with clearAt := c })
  if inEpisode s1 n then s1
  else
    forEach (modFront s1 n (fun f => { f with clampAt := none })) (neighbours n)
      (fun s m => modChain s m (markClose (.neighbour n) (c + 1023)))

/-- End a saturation episode at clearing tick `c` (09 R420, R426, R438, R439). -/
def satEnd (s : State) (n c : Nat) : State :=
  if (frontOf s n).sat.isNone then s else
    let s1 := modFront s n (fun f => { f with sat := none, run := 0 })
    neighbourClose (modChain s1 n (fun ch => markClose .satHigh (c - 1) (markClose .satLow (c - 1) ch))) n c

/-- End a bound episode of a ranger with its closing entry (09 R413, 10 R453). -/
def boundEnd (s : State) (n : Nat) : State :=
  if !(frontOf s n).bound then s else
    let s1 := modFront s n (fun f => { f with bound := false, quiet := 0 })
    logE (modChain s1 n (markClose .bound (s.t.up - 1))) orgUnit 0x0063 n 1 0

/-- AMPCTL addresses of a cell. -/
def cellAmps (k : Nat) : List Nat := [2 * k, 2 * k + 1]

/-- Write one field of both front ends of a cell. -/
def cellAmpField (s : State) (k hi lo v : Nat) : State := forEach s (cellAmps k) (fun s n => regSet s n hi lo v)

/-- Both front ends of the cell on with their reset switches closed: one write each (03 R144 step 1). -/
def cellFrontsOn (s : State) (k : Nat) : State :=
  forEach s (cellAmps k) (fun s n =>
    let w := regField (regField (regWant s n) 0 0 1) 10 10 1
    modFront (regWrite s n w) n (fun f => { f with on := true, closed := true }))

/-- Reset switches held closed (03 R145 step 2): from this tick on the samples are VOID (09 R432), and an episode of either
channel ends (09 R439). -/
def cellHold (s : State) (k : Nat) : State :=
  forEach (cellAmpField s k 10 10 1) (cellAmps k) (fun s n =>
    let s1 := boundEnd (satEnd s n s.t.up) n
    let s2 := modFront s1 n (fun f => { f with closed := true, req := none, later := none, vstep := none, holdAt := none,
                                               relSent := false, freeAt := none, run := 0 })
    modChain s2 n (fun c =>
      { (markOpen .voidCell s.t.up (markClose .hold (s.t.up - 1) c)) with ref := some (c.ref.getD s.t.up) }))

/-! ### Cell sequences (03 R144, R145) -/

/-- A write of a step of cell `k` has not been read back. -/
def cellBusy (s : State) (k : Nat) : Bool :=
  let mine (a : RegAcc) : Bool := a.addr.toNat == 8 + k || a.addr.toNat == 2 * k || a.addr.toNat == 2 * k + 1
  s.seam.regQ.any mine || s.seam.reads.any (fun r => mine r.2)

/-- Start enabling: CELL_BIAS, and step 1 at this tick. -/
def cellEnable (s : State) (k task : Nat) (origin : BitVec 16) : State :=
  let s1 := logE s origin 0x0050 k 0 1
  let s2 := modCell s1 k (fun _ => { Cell0 with step := .opening 1, task := task, rampAt := s.t.up })
  cellFrontsOn (biasTo s2 k 8192) k

/-- The target has reached the goal of a ramp: the ramp ends, and with it an enable task (09 R400). -/
def rampOver (s : State) (k : Nat) : State :=
  let c := cellOf s k
  let s1 := modCell s k (fun c => { c with ramping := false })
  if c.step = .open_ && c.task != 0 then taskEnd (modCell s1 k (fun c => { c with task := 0 })) c.task 0 0 [] else s1

/-- The next step of enabling, where its tick has come and the writes before it are read back (03 R144). Step 4 releases the
reset switches of started channels; a stopped channel's integrator stays held until CHSTART (09 R422; log 20). -/
def cellEnableStep (s : State) (k : Nat) : State :=
  let c := cellOf s k
  if c.stuck || cellBusy s k then s else
    match c.step with
    | .opening 1 =>
      if s.t.up < c.rampAt + 64 then s
      else modCell (regSet s (8 + k) 0 0 1) k (fun c => { c with step := .opening 2 })
    | .opening 2 =>
      if s.t.up < c.rampAt + 320 then s
      else modCell (regSet s (8 + k) 1 1 1) k (fun c => { c with step := .opening 3 })
    | .opening 3 =>
      if s.t.up < c.rampAt + 336 then s
      else
        let s1 := modCell s k (fun c => { c with step := .opening 4, rampAt := s.t.up })
        forEach s1 (cellAmps k) (fun s n =>
          let s3 := modChain s n (markClose .voidCell (s.t.up - 1))
          if (chainOf s3 n).started then
            let s4 := modFront (regSet s3 n 10 10 0) n (fun f => { f with closed := false })
            settleFrom s4 n s.t.up
          else s3)
    | .opening 4 =>
      if s.t.p = 0 ∧ c.rampAt < s.t.up then
        if c.suspended then s
        else
          let s1 := rampStart (modCell s k (fun c => { c with step := .open_ })) k
          if (cellOf s1 k).target = cellGoal s1 k then rampOver s1 k else s1
      else s
    | _ => s

/-- Step 4 of disabling, once the CE driver is off: the front ends turn off, the cell is shorted, and a BIAS task that closed it
ends (09 R400). No command closes a cell in VIGIL, so none is kept on for it. -/
def cellShorted (s : State) (k : Nat) : State :=
  let c := cellOf s k
  let s2 := forEach (cellAmpField s k 0 0 0) (cellAmps k) (fun s n => modFront s n (fun f => { f with on := false }))
  let s3 := biasTo (modCell s2 k (fun _ => Cell0)) k 8192
  taskEnd s3 c.task 0 0 []

/-- The field die has shorted cell `k` and turned its CE driver off (01 R58). -/
def cellDark (s : State) (k : Nat) : Bool := bits (vget s.fd.regs (8 + k) 0).toNat 1 0 == 0

/-- The next step of disabling (03 R145). -/
def cellDisableStep (s : State) (k : Nat) : State :=
  let c := cellOf s k
  match c.step with
  | .closing 1 =>
    if c.ramping then s else modCell (cellHold s k) k (fun c => { c with step := .closing 2 })
  | .closing 2 =>
    modCell (regSet s (8 + k) 1 1 0) k (fun c => { c with step := .closing 3, rampAt := s.t.up })
  | .closing 3 =>
    if s.t.up < c.rampAt + 64 then s else modCell (regSet s (8 + k) 0 0 0) k (fun c => { c with step := .closing 4 })
  | .closing 4 => if cellDark s k then cellShorted s k else s
  | _ => s

/-- Close a cell with CELL_BIAS, its waveform ended first (18 R811). With `ramp` the bias first goes to 0 V; without it, or
from steps 1–4 of enabling, the reset switches are held at once (03 R145, 09 R430). -/
def cellClose (s : State) (k task : Nat) (origin : BitVec 16) (ramp : Bool) : State :=
  let s1 := playEnd (rampCatch s k) (k + 1) orgUnit true
  let s2 := logE s1 origin 0x0050 k 1 0
  let from_ := (cellOf s k).step
  let s3 := modCell (forEach s2 (cellAmps k) boundEnd) k (fun c =>
    { c with step := .closing 1, task := task, ramping := false, suspended := false, stuck := false })
  if ramp && from_ == .open_ && decide ((cellOf s3 k).target ≠ 0) then rampStart s3 k else cellDisableStep s3 k

/-- What a tone adds to a cell's bias target at present (13 R586). -/
def cellTone (s : State) (k : Nat) : Rat :=
  match s.z.run with
  | some r => if r.target = .cell k then r.tone else 0
  | none => 0

/-- One ramp computation in this tick (09 R394): the target after n ticks, its code with a tone added (13 R586), and what the end of the
ramp ends. -/
def cellRampStep (s : State) (k : Nat) : State :=
  let c := cellOf s k
  if !c.ramping || c.suspended then s else
    let tgt := rampAfter s k (s.t.up - c.rampAt)
    let s1 := biasTo (modCell s k (fun c => { c with target := tgt })) k (biasCode (tgt + cellTone s k))
    if tgt = cellGoal s k then rampOver s1 k else s1

/-- Entry to IDLE closes a cell (03 R142): an enable task ends DONE (09 R400). -/
def cellToIdle (s : State) (k : Nat) : State :=
  if !cellOn s k then s else
    let s1 := taskEnd s (cellOf s k).task 0 0 []
    cellClose s1 k 0 orgUnit true

/-- Entry to SAFE (09 R430): ramps are suspended; an enable task ends REFUSED, reason STATE; SHORTED closes without the ramp,
and a closing cell goes on at once from its present code. -/
def cellToSafe (s : State) (k : Nat) : State :=
  if cellOn s k then
    let s1 := modCell (taskEnd s (cellOf s k).task 3 6 []) k (fun c => { c with suspended := true, task := 0 })
    if pNat s (idCell k 2) = 1 then cellClose s1 k 0 orgUnit false else s1
  else
    match (cellOf s k).step with
    | .closing 1 => cellDisableStep (modCell s k (fun c => { c with ramping := false })) k
    | _ => s

end Sys2Proof.Machine
end

