-- ==== Sys2Proof/Machine/Capture.lean ====
section
/-! DEFINITION. Capture memory: records, segments, triggers and fires placed in them (15 R652–R682), the arming of the Tripwire
(14 R633–R641) and its triggers (14 R631, R632). -/

namespace Sys2Proof.Machine

/-! ### Records (15 R657–R663) -/

/-- An EVENT word without SEQCHK. -/
def evWord (code arg : Nat) : BitVec 64 := BitVec.ofNat 64 (2 * 2 ^ 62 + code * 2 ^ 56 + arg % 2 ^ 48 * 2 ^ 8)

/-- A SAMPLE word without SEQCHK. -/
def sampleWord (type ch qual delta : Nat) (value : Int) : BitVec 64 :=
  BitVec.ofNat 64 (type * 2 ^ 62 + ch * 2 ^ 57 + qual * 2 ^ 54 + delta * 2 ^ 32 + (BitVec.ofInt 24 value).toNat * 2 ^ 8)

/-- The two words of a TIME record. -/
def timeWords (era : BitVec 16) (tick : BitVec 48) (reason : Nat) : BitVec 64 × BitVec 64 :=
  (BitVec.ofNat 64 (2 ^ 62 + era.toNat * 2 ^ 40 + tick.toNat / 2 ^ 16 * 2 ^ 8),
   BitVec.ofNat 64 (2 ^ 62 + 2 ^ 61 + reason * 2 ^ 56 + tick.toNat % 2 ^ 16 * 2 ^ 8))

/-- SEQCHK over record bytes 0–6 and the low byte of the number (15 R659). -/
def seqChk (w : BitVec 64) (num : Nat) : BitVec 64 :=
  BitVec.ofNat 64 (w.toNat / 256 * 256 + crc8 (beBytes 7 (w.toNat / 256) ++ [byteOf num]))

/-- Records standing in the FIFO's 64 places. -/
def fifoLen (c : CaptSt) : Nat := (c.fifo.filter (fun r => !r.outside)).length

/-- Make a record of tick `at_`; one the FIFO cannot hold is lost and stops capture (15 R658). -/
def capPush (s : State) (w : BitVec 64) (at_ : Nat) : State :=
  if s.capt.lostAt.isSome || s.capt.stopping then s
  else if 64 ≤ fifoLen s.capt then { s with capt.lostAt := some at_, capt.overflows := s.capt.overflows + 1 }
  else
    let r : FifoRec := { word := w, at_ := at_, outside := false }
    { s with capt.fifo := s.capt.fifo ++ [r] }

/-- A record reaches SRAM with its number and SEQCHK; one that finds SRAM full is lost, and capture stops (15 R657–R659). -/
def capStore (s : State) (r : FifoRec) : State :=
  if 32768 ≤ s.capt.recs.length then
    if s.capt.lostAt.isSome then s else { s with capt.lostAt := some r.at_, capt.overflows := s.capt.overflows + 1 }
  else
    let x : Rec := { num := s.capt.nextRec, word := seqChk r.word s.capt.nextRec, at_ := r.at_ }
    { s with capt.recs := s.capt.recs ++ [x], capt.nextRec := (s.capt.nextRec + 1) % 2 ^ 32 }

/-- Records outside the FIFO follow those made before them with no write of their own (15 R658, R669). -/
def capFollow (s : State) : State :=
  let out := s.capt.fifo.takeWhile FifoRec.outside
  out.foldl capStore { s with capt.fifo := s.capt.fifo.dropWhile FifoRec.outside }

/-- A word that takes none of the FIFO's places. -/
def capOutside (s : State) (w : BitVec 64) (at_ : Nat) : State :=
  let r : FifoRec := { word := w, at_ := at_, outside := true }
  capFollow { s with capt.fifo := s.capt.fifo ++ [r] }

/-- A TIME record of elapsed tick `u`: both words, and the base of the next DELTA (15 R661). -/
def capTime (s : State) (u reason : Nat) : State :=
  let tg := tagOf s u
  let ws := timeWords tg.2 tg.1 reason
  let s1 := capPush (capPush s ws.1 u) ws.2 u
  { s1 with capt.base := u, capt.timeAt := u }

/-! ### Segments (15 R664–R673) -/

/-- CAPT.STATUS (15 R673). -/
def captStatus (c : CaptSt) : Nat := c.close + 16 * b2n c.shallow + 32 * b2n c.localTrig + 64 * b2n c.gotFire

/-- The CAPT fields a Span lead shares with its tail: PRE_TICKS, POST_COUNT, AFTER, MASTER (19 R848). -/
def captShared (i : Nat) : Bool := 2 ≤ i && i ≤ 5

/-- A CAPT field in force: at a tail the lead's (19 R848). -/
def captW (s : State) (f : Nat) : Word := (aget s.twin.leadCapt (idCapt f)).getD (param s (idCapt f))
def captN (s : State) (f : Nat) : Nat := (captW s f).toNat

/-- Open a segment of a session: TIME with REASON 1 and OPEN (15 R669). A former tail's own values return here (19 R866). -/
def capOpen (s : State) (armId : BitVec 16) : State :=
  let c := { s.capt with phase := .recording, close := 0, shallow := false, localTrig := false, gotFire := false,
                         armId := armId, lostAt := none, stopping := false, nextDue := false,
                         stored := Vector.replicate 24 none, placed := false, byTrig := false, postDone := 0, bEra := s.t.era,
                         bTick := s.t.count, bAmp := 0, bMox := 0, ownKey := none }
  let s1 := { s with capt := c, twin.leadCapt := if isTail s then s.twin.leadCapt else [] }
  capPush (capTime s1 s.t.up 1) (evWord 0x07 (armId.toNat * 2 ^ 32 + (tick32 s).toNat)) s.t.up

/-- Records a new segment can use. -/
def capFree (c : CaptSt) : Nat := 32768 - c.prot

/-- Close the segment: CLOSE outside the FIFO, CAPTURE_CLOSE, and the phase of 15 R668. -/
def capClose (s : State) (status : Nat) (origin : BitVec 16) : State :=
  let s1 := capOutside s (evWord 0x08 (status * 2 ^ 40 + (tick32 s).toNat)) s.t.up
  let s2 := { s1 with capt.close := status, capt.stopping := false, capt.lostAt := none, capt.phase := .closed }
  let s3 := logE s2 origin 0x007A 0 0 (natW (captStatus s2.capt))
  if status = 1 ∧ s.capt.armId = 0 ∧ captN s 4 = 1 then
    let s4 := { s3 with capt.prot := s3.capt.recs.length + s3.capt.fifo.length,
                        capt.segments := min 255 (s3.capt.segments + 1) }
    if captN s 3 + 128 ≤ capFree s4.capt then { s4 with capt.nextDue := true }
    else { s4 with capt.phase := .full }
  else s3

/-- RECORDING or POST. -/
def capRunning (s : State) : Bool := s.capt.phase == .recording || s.capt.phase == .post

/-- Entry to IDLE or VIGIL: the segment closes STOPPED once the FIFO has drained (15 R673). -/
def capStop (s : State) : State :=
  if !capRunning s then { s with capt.nextDue := false }
  else if s.capt.lostAt.isNone && s.capt.fifo.isEmpty then capClose s 5 orgUnit
  else { s with capt.stopping := true }

/-- Oldest held record of the present segment: its tick. -/
def segOldest (s : State) : Option Nat :=
  match s.capt.recs.drop s.capt.prot with
  | r :: _ => some r.at_
  | [] => (s.capt.fifo.drop (s.capt.prot - s.capt.recs.length)).head?.map FifoRec.at_

/-- PRE_DEPTH for a trigger point, limited to PRE_TICKS (15 R666), and the flag that it falls short. -/
def capPreDepth (s : State) (tick : BitVec 48) : State :=
  let pre := captN s 2
  let d : Nat := match segOldest s with
    | some o => min pre (tick.toNat - (tagOf s o).1.toNat)
    | none => 0
  { s with capt.preDepth := d, capt.shallow := decide (d < pre) }

/-- Whether a word is a SAMPLE record of this unit, of TYPE 3 where it wrote it as a Span tail (15 R659, 19 R842). -/
def isSampleWord (w : BitVec 64) : Bool := w.toNat / 2 ^ 62 == 0 || w.toNat / 2 ^ 62 == 3

/-- A tag, given in elapsed ticks, lies at or after a point: by its tick in the point's era, else by its era. -/
def afterPoint (s : State) (u : Nat) (era : BitVec 16) (tick : BitVec 48) : Bool :=
  let tg := tagOf s u
  if tg.2 = era then decide (tick.toNat ≤ tg.1.toNat) else decide (era.toNat < tg.2.toNat)

/-- SAMPLE records of the segment tagged at or after a point (15 R665, R674). -/
def countFrom (s : State) (era : BitVec 16) (tick : BitVec 48) : Nat :=
  ((s.capt.recs.drop s.capt.prot).filter (fun r => isSampleWord r.word && afterPoint s r.at_ era tick)).length +
  ((s.capt.fifo.drop (s.capt.prot - s.capt.recs.length)).filter
    (fun r => isSampleWord r.word && afterPoint s r.at_ era tick)).length

/-- The FIRE records of 15 R663. -/
def capFireWords (s : State) (tick : BitVec 48) (frac : Byte) (late own : Bool) : State :=
  capPush (capPush s (evWord 0x03 tick.toNat) s.t.up)
    (evWord 0x04 (frac.toNat * 2 ^ 40 + b2n late * 2 ^ 39 + b2n own * 2 ^ 38)) s.t.up

/-- A fire key: FIRE_TICK then FIRE_FRAC (04 R196). -/
def keyTick (k : BitVec 56) : BitVec 48 := BitVec.ofNat 48 (k.toNat / 256)
def keyFrac (k : BitVec 56) : Byte := BitVec.ofNat 8 k.toNat
def mkKey (tick : BitVec 48) (frac : Byte) : BitVec 56 :=
  if tick = 0xFFFFFFFFFFFF then 0xFFFFFFFFFFFEFF else BitVec.ofNat 56 (tick.toNat * 256 + frac.toNat)

/-- The key of the trigger point in force. -/
def pointKey (s : State) : Option (BitVec 56) :=
  if s.capt.placed then some (mkKey s.capt.trigTick s.capt.trigFrac) else none

/-- Place a learned fire (15 R674, R676); a segment that an overflow has stopped closes by it (15 R658). -/
def capFire (s : State) (k : BitVec 56) : State :=
  let tick := keyTick k
  let earlier : Bool := match pointKey s with
    | some p => decide (k.toNat < p.toNat)
    | none => true
  let own := s.capt.ownKey == some k
  if s.capt.gotFire && !earlier then { s with capt.ignored := s.capt.ignored + 1 }
  else if s.capt.phase = .closed then
    let n := countFrom s s.t.era tick
    let s1 := capFireWords { s with capt.gotFire := true } tick (keyFrac k) true own
    capClose { s1 with capt.trigTick := tick, capt.trigFrac := keyFrac k, capt.placed := true, capt.byTrig := false,
                       capt.trigEra := s.t.era, capt.postDone := n } 2 orgUnit
  else if !capRunning s then s
  else
    let n := countFrom s s.t.era tick
    let late := decide (captN s 3 ≤ n)
    let s1 := if s.capt.phase = .recording then capPreDepth s tick else s
    let s2 := capFireWords s1 tick (keyFrac k) late own
    let s3 := { s2 with capt.gotFire := true, capt.trigTick := tick, capt.trigFrac := keyFrac k, capt.placed := true,
                        capt.byTrig := false, capt.trigEra := s.t.era, capt.postDone := n, capt.phase := .post }
    if late && s.capt.lostAt.isNone then capClose s3 2 orgUnit else s3

/-- Armed in a ring-wide session (15 R654, R674). -/
def inSession (s : State) : Bool := s.trip.st != .disarmed && s.trip.armId != 0 && s.capt.armId != 0

/-! ### Triggers (14 R628–R632, R640, 15 R664, 04 R196) -/

/-- TRIGGER, TRIGGER_X and TRIGGER_D, and the move to POST (15 R664, R678); in any other phase the trigger is ignored. SAMPLE records
already held from the point on count, as a learned fire counts them (15 R665, R674; log 90). -/
def capTrigger (s : State) (g : Trigger) : State :=
  if s.capt.phase ≠ .recording ∨ s.capt.stopping then { s with capt.ignored := s.capt.ignored + 1 }
  else
    let x := g.frac.toNat * 2 ^ 40 + g.source * 2 ^ 36 + g.type * 2 ^ 33 + b2n g.blk * 2 ^ 32 + min g.ch 31 * 2 ^ 27 +
      g.rule * 2 ^ 23 + g.coinc.toNat
    let s1 := capPush s (evWord 0x01 g.tick.toNat) s.t.up
    let s2 := capPush s1 (evWord 0x02 x) s.t.up
    let s3 := capPush s2 (evWord 0x0B (g.prevDead * 2 ^ 16 + g.prevMissed)) s.t.up
    if s3.capt.lostAt.isSome then s3
    else
      let n := countFrom s3 g.era g.tick
      let s4 := capPreDepth s3 g.tick
      let s5 := { s4 with capt.trigTick := g.tick, capt.trigFrac := g.frac, capt.trigEra := g.era, capt.placed := true,
                          capt.postDone := n, capt.phase := .post, capt.localTrig := s.capt.localTrig || isOrphan s }
      if captN s5 3 ≤ n then capClose s5 1 orgUnit else s5

/-- Slots, or an alarm or force, that come true in the tick of a trigger already taken join its mask (14 R629), in the
TRIGGER_X record still in the FIFO too. -/
def coincAdd (s : State) (m : BitVec 16) : State :=
  let fix (r : FifoRec) : FifoRec :=
    if r.word.toNat / 2 ^ 56 = 0x82 ∧ r.at_ = s.t.up then { r with word := r.word ||| ((m.setWidth 64) <<< 8) } else r
  { s with trip.lastCoinc := s.trip.lastCoinc ||| m,
           trip.last := s.trip.last.map (fun g => { g with coinc := g.coinc ||| m }),
           capt.fifo := s.capt.fifo.map fix }

/-- A pending fire for the ring (04 R196); none under the ORPHAN condition (15 R678) or at a tail (19 R850). Of two fires the earlier key is
pending, first written in the superframe after it came (DESIGN CHOICE, log 98). -/
def firePend (s : State) (k : BitVec 56) : State :=
  if isOrphan s || isTail s || s.ring.peg == 0 || s.trip.armId == 0 then s
  else
    match s.ring.fire with
    | some old => if old.toNat ≤ k.toNat then s else { s with ring.fire := some k, ring.fireSf := s.t.sf }
    | none => { s with ring.fire := some k, ring.fireSf := s.t.sf }

/-- Take a trigger: the event of 14 R631, TRIP_FIRE, DEAD, capture, and the fire of a session. One earlier than the point a partner's TRIG has
placed takes its place (19 R874; log 103). -/
def tripTake (s : State) (source type rule ch : Nat) (blk : Bool) (era : BitVec 16) (tick : BitVec 48) (frac : Byte)
    (coinc : BitVec 16) : State :=
  let c := s.trip.carry.getD (0, 0)
  let g : Trigger :=
    { source := source, type := type, rule := rule, ch := ch, blk := blk, era := era, tick := tick, frac := frac,
      coinc := coinc, recog := s.t.count, armId := s.trip.armId, prevDead := c.1, prevMissed := c.2 }
  let s1 := logE s orgUnit 0x0079 (source + 256 * rule) 0 (tick.setWidth 32)
  let s2 := { s1 with trip := { s1.trip with st := .dead, triggers := s.trip.triggers + 1, recogAt := s.t.up, deadTicks := 0,
                                             missed := 0, carry := none, last := some g, lastCoinc := coinc } }
  let k := mkKey tick frac
  let s3 := if s2.capt.byTrig && (pointKey s2).any (fun p => decide (k.toNat < p.toNat)) then
      { capFire { s2 with capt.ownKey := some k } k with capt.firePeg := s.ring.peg }
    else capTrigger s2 g
  let own := match s3.capt.ownKey with
    | some old => if old.toNat ≤ k.toNat then old else k
    | none => k
  let s5 := if s.trip.armId = 0 then s3 else firePend { s3 with capt.ownKey := some own } k
  if isLead s5 || isTail s5 then
    twinSend s5 0x0A (beBytes 6 tick.toNat ++ [frac, byteOf source, byteOf type] ++ beBytes 2 s.trip.armId.toNat)
  else s5

/-- A condition that comes true while DEAD: into the mask in the recognition tick, else one more missed (14 R634, R645). -/
def tripMiss (s : State) (m : BitVec 16) : State :=
  if s.t.up = s.trip.recogAt then coincAdd s m
  else { s with trip.missed := min 65535 (s.trip.missed + 1) }

/-! ### Arming (14 R635–R641, 15 R653) -/

/-- A slot's value in its TRIP_ARM entries. -/
def slotVal (t : TripSt) (i : Nat) : Word :=
  if t.armed.getLsbD i then natW (t.armId.toNat + 2 ^ 16) else 0

/-- Dead ticks of the running interval, saturating. -/
def deadNow (s : State) : Nat := min 0xFFFFFFFF (s.t.up - s.trip.recogAt)

/-- Write the slots' entries for a change from `old`. -/
def slotEntries (s : State) (old : TripSt) (origin : BitVec 16) : State :=
  forEach s (List.range 8) (fun s i =>
    if slotVal old i = slotVal s.trip i then s else logE s origin 0x0078 i (slotVal old i) (slotVal s.trip i))

/-- End a dead interval by re-arming (14 R635, R641). -/
def tripRearm (s : State) (origin : BitVec 16) : State :=
  if s.trip.st ≠ .dead then s else
    let d := deadNow s
    let s1 := { s with trip.st := .armed, trip.deadTicks := d, trip.carry := some (d, s.trip.missed) }
    logE s1 origin 0x0078 0xFF (natW (s.trip.armId.toNat + 2 ^ 17)) (natW (s.trip.armId.toNat + 2 ^ 16))

/-- Trackers of slots that stay armed are kept; the others are reset (14 R627, R637). -/
def keptTrackers (t : TripSt) : Vector Tracker 8 :=
  (List.range 8).foldl (fun v i => if t.armed.getLsbD i then v else vset v i Tracker0) t.trackers

/-- The armed slots become exactly those of a mask, with their entries (14 R637, R641). -/
def tripSlots (s : State) (mask : BitVec 8) (armId : BitVec 16) (origin : BitVec 16) : State :=
  slotEntries { s with trip := { s.trip with armed := mask, armId := armId, trackers := keptTrackers s.trip } } s.trip origin

/-- The Tripwire is ARMED, and a session opens where capture is EMPTY (15 R653). -/
def tripOpen (s : State) (armId : BitVec 16) : State :=
  let s1 := { s with trip.st := .armed }
  if s1.capt.phase = .empty then capOpen s1 armId else s1

/-- Arm exactly the slots of a mask (14 R637). -/
def tripArm (s : State) (mask : BitVec 8) (armId : BitVec 16) (origin : BitVec 16) : State :=
  tripOpen (tripRearm (tripSlots s mask armId origin) origin) armId

/-- Disarm the slots of a mask; with none left the Tripwire is DISARMED and a RECORDING segment closes (14 R638, 15 R677), but for one that an
overflow has stopped, which closes OVERFLOW (15 R658). -/
def tripDisarm (s : State) (mask : BitVec 8) (origin : BitVec 16) : State :=
  let old := s.trip
  let left := old.armed &&& ~~~mask
  let s1 := slotEntries { s with trip.armed := left } old origin
  if left ≠ 0 ∨ old.armed = 0 then s1
  else
    let s2 := { s1 with trip.st := .disarmed, trip.armId := 0, trip.carry := none,
                        trip.deadTicks := if old.st = .dead then deadNow s else old.deadTicks }
    if s2.capt.phase = .recording && !s2.capt.stopping && s2.capt.lostAt.isNone then capClose s2 4 origin
    else { s2 with capt.nextDue := false }

/-- TRIP.DEAD_TICKS: of the present interval, or of the last (14 R634). -/
def deadTicks (s : State) : Nat := if s.trip.st = .dead then deadNow s else s.trip.deadTicks

/-- A later arming waits: the Tripwire holds another ARM_ID, or capture cannot take the session (14 R637, 15 R653). -/
def armBusy (s : State) (armId : BitVec 16) : Bool :=
  (s.trip.st != .disarmed && s.trip.armId != armId) || s.capt.phase == .closed || s.capt.phase == .full ||
  (s.capt.phase == .post && s.capt.armId != armId)

end Sys2Proof.Machine
end

