-- ==== Sys2Proof/Machine/Chains.lean ====
section
/-! DEFINITION. Front ends and chains of channels 0–13: starting, stopping and SNAP (12 R557, R558, R565), range and decade
changes (09 R407–R422, 10 R450–R457), lead capture (10 R460), and SYNC (12 R551–R556). -/

namespace Sys2Proof.Machine

/-! ### Front-end registers (01 R58) -/

/-- A channel is in a SNAP. -/
def inSnap (s : State) (c : Nat) : Bool := (chainOf s c).isSnap

/-- A channel is started or in a SNAP: "running" on its FILT page (12 R575). -/
def filtRunning (s : State) (c : Nat) : Bool := (chainOf s c).started || inSnap s c

/-- Control register of an AMP (0–7) or MOX (8–11) front end, or of a bridge's phase fraction (12, 13). -/
def ctlAddr (c : Nat) : Nat := if c < 8 then c else if c < 12 then c + 4 else c + 8

/-- Set the range field and hold the front end in reset: the first write of a change (09 R407, 10 R450). -/
def holdWord (w : BitVec 16) (n rg : Nat) : BitVec 16 :=
  if n < 8 then regField (regField w 9 7 rg) 10 10 1 else regField (regField w 9 7 rg) 0 0 0

/-- Release the front end: the second write, or the enable of a start. -/
def freeWord (w : BitVec 16) (n rg : Nat) : BitVec 16 :=
  if n < 8 then regField (regField w 9 7 rg) 10 10 0 else regField (regField w 9 7 rg) 0 0 1

/-- A control word holds its front end in reset. -/
def wordHeld (w : BitVec 16) (n : Nat) : Bool := if n < 8 then w.getLsbD 10 else !w.getLsbD 0

/-- Writes of a register not yet sent are replaced by the next one handed over. -/
def regReplace (s : State) (addr : Nat) (data : BitVec 16) : State :=
  let q := s.seam.regQ.filter (fun a => a.read || a.addr.toNat != addr || a.tries != 0)
  regWrite { s with seam.regQ := q } addr data

/-- Ask for a range or decade change, or a saturation reset: one write that holds (09 R407, R419, R436, R437). While the enable write of
a start is still on its way, the change waits for it (09 R411, 10 R451). -/
def rangeAsk (s : State) (n rg : Nat) (origin : BitVec 16) (auto reset : Bool) : State :=
  let q : RangeReq := { range := rg, origin := origin, auto := auto, reset := reset, start := false }
  let starting : Bool := match (frontOf s n).req with
    | some p => p.start
    | none => false
  if starting then modFront s n (fun f => { f with later := some q })
  else regReplace (modFront s n (fun f => { f with req := some q })) (ctlAddr n) (holdWord (regWant s (ctlAddr n)) n rg)

/-- The DC estimate of a channel becomes uninitialised, unless it is frozen (12 R567, R568). -/
def dcForget (s : State) (c : Nat) : State :=
  modChain s c (fun ch => if ch.frozen then ch else { ch with dcInit := false })

/-- The enable write of a start has applied at tick `e`: the reference tick of the start (12 R560), but of one that a SYNC fell on (12
R577; log 39); a change that waited for it is handed over. -/
def startApplied (s : State) (n rg e : Nat) : State :=
  let f := frontOf s n
  let s1 := modFront s n (fun f => { f with range := rg, oldRange := rg, on := true, closed := false, req := none, later := none,
                                            holdAt := none, relSent := false, freeAt := none, downCnt := 0 })
  let asSync := (chainOf s n).asSync
  let s2 := modChain s1 n (fun c =>
    { (if n < 8 then c else markClose .voidCell (e - 1) c) with ref := if asSync then c.ref else some e,
                                                                conv := if c.isSnap then some e else c.conv })
  let s3 := if asSync then s2 else settleFrom s2 n e
  match f.later with
  | some q => if q.range = rg && !q.reset then s3 else rangeAsk s3 n q.range q.origin q.auto q.reset
  | none => s3

/-- The check of one channel is INVALID (13 R603, R608). -/
def zSpoilChan (s : State) (c : Nat) : State :=
  { s with z.run := s.z.run.map (fun r =>
      if r.t0.isSome then { r with chans := r.chans.map (fun x => if x.ch = c then { x with invalid := true } else x) } else r) }

/-- The first write of a change has applied at tick `r` (09 R407, R410, 10 R450, R451). A stopped channel stays held: its start
releases it (09 R417, R422). -/
def holdApplied (s : State) (n : Nat) (q : RangeReq) (r : Nat) : State :=
  let f := frontOf s n
  let live := filtRunning s n
  let moved := decide (q.range ≠ f.range)
  let s1 := if moved then logAt s r q.origin 0x0041 n (natW f.range) (natW q.range) else s
  let s2 := modFront s1 n (fun f => { f with range := q.range, oldRange := if moved && live then f.range else f.oldRange, closed := true,
                                             req := none, holdAt := if live then some r else none, relSent := false,
                                             freeAt := none, downCnt := 0 })
  let s3 := if live then modChain s2 n (markOpen .hold r) else s2
  zSpoilChan (if moved then dcForget s3 n else s3) n

/-- The release has applied at tick `e`: the hold interval and a saturation episode end, and the channel settles (09 R408,
R420, 10 R450, R457). A change of range within the hold blocks the ranger until its settling is over (09 R412). -/
def releaseApplied (s : State) (n e : Nat) : State :=
  let s1 := modFront s n (fun f => { f with closed := false, holdAt := none, relSent := false, freeAt := none,
                                            relAt := if f.range = f.oldRange then f.relAt else some e, oldRange := f.range })
  let s2 := modChain s1 n (markClose .hold (e - 1))
  zSpoilChan (settleFrom (satEnd s2 n e) n e) n

/-- What a control-register write of a front end that applied at tick `r` means to the core: a start, the first write of a change, or
its release, which RANGE_CHANGE_RELEASE or DECADE_CHANGE_RELEASE then takes. -/
def frontApplied (s : State) (n : Nat) (w : BitVec 16) (r : Nat) : State :=
  let f := frontOf s n
  let rg := bits w.toNat 9 7
  let frees (s : State) : State := if !wordHeld w n && f.holdAt.isSome && f.freeAt.isNone then
      modFront s n (fun f => { f with freeAt := some r }) else s
  match f.req with
  | some q =>
    if q.range = rg ∧ wordHeld w n = !q.start then
      if q.start then startApplied s n rg r else holdApplied s n q r
    else frees s
  | none => frees s

/-- A held front end may be released by a write applying at tick `e` (09 R407). -/
def releaseDue (f : Front) (e : Nat) : Bool :=
  f.req.isNone && !f.relSent && (match f.holdAt with
    | some r => decide (r + 16 ≤ e)
    | none => false)

/-- The mask of held modulators that control registers make. -/
def heldMask (regs : Vector (BitVec 16) 24) : BitVec 12 :=
  BitVec.ofNat 12 (packFlags ((List.range 12).map (fun n => wordHeld (vget regs (ctlAddr n) 0) n)))

/-- The release that has applied takes (09 R407, R408, 10 R450). -/
def releaseNow (s : State) (n : Nat) : State :=
  match (frontOf s n).freeAt with
  | some e => releaseApplied s n e
  | none => s

/-! ### Starting (12 R557, 09 R411, 10 R451, R467) -/

/-- The range a start takes (09 R411, 10 R451). -/
def startRange (s : State) (n : Nat) : Nat :=
  let id (f : Nat) : Nat := if n < 8 then idAmp n f else idMox (n - 8) f
  let r := pNat s (id 0)
  if pOn s (id 1) then max (pNat s (id 2)) (min (pNat s (id 3)) r) else r

/-- The cell of an AMP channel is past step 4 of its enable sequence. -/
def cellOpen (s : State) (k : Nat) : Bool :=
  match (cellOf s k).step with
  | .opening 4 => true
  | .open_ => true
  | .closing 1 => true
  | _ => false

/-- A control word with the channel's decision fraction in it (12 R550, R578). -/
def fracWord (s : State) (c : Nat) (w : BitVec 16) : BitVec 16 := regField w 6 1 (pNat s (idFilt c 7))

/-- Hand over the range, the decision fraction and the release of a started AMP or MOX front end. An AMP channel whose cell is not open
takes its range at once and forms VOID samples until the cell opens (09 R432). -/
def frontStart (s : State) (n : Nat) : State :=
  let rg := startRange s n
  let a := ctlAddr n
  let w := fracWord s n (regWant s a)
  if n < 8 ∧ !cellOpen s (n / 2) then
    let s1 := regReplace s a (regField w 9 7 rg)
    let s2 := modFront s1 n (fun f => { f with range := rg, oldRange := rg, req := none, later := none, vstep := none, holdAt := none,
                                               relSent := false, freeAt := none, downCnt := 0 })
    modChain s2 n (fun c => { c with ref := some s.t.up, conv := if c.isSnap then some s.t.up else c.conv })
  else
    let q : RangeReq := { range := rg, origin := 0, auto := false, reset := false, start := true }
    regReplace (modFront s n (fun f => { f with req := some q, later := none, vstep := none, holdAt := none, relSent := false,
                                                freeAt := none, run := 0 })) a (freeWord w n rg)

/-- The range or decade in force, or that of a start on its way (09 R409, R411, 10 R451, R456). -/
def activeRange (s : State) (n : Nat) : Nat :=
  match (frontOf s n).req with
  | some q => if q.start then q.range else (frontOf s n).range
  | none => (frontOf s n).range

/-- A chain cleared and taking codes from this tick on the present grid. -/
def chainFresh (s : State) (c : Nat) : State :=
  modChain s c (fun ch => { clearChain ch with from_ := s.t.up, asSync := false, base := gridBase s c, due := [],
                                               frac := none, ref := none, settle := [] })

/-- A start on whose tick `u` a SYNC falls settles as the SYNC does: only spans that reach back before `u` (12 R577). -/
def startAsSync (u : Nat) (ch : Chain) : Chain := { ch with asSync := true, ref := some u, settle := [{ ref := u, left := 0 }] }

/-- The trackers watching a channel are reset (14 R627). -/
def trackersReset (s : State) (c : Nat) : State :=
  forEach s (List.range 8) (fun s i =>
    if pNat s (idTrip 1 i) = c then { s with trip.trackers := vset s.trip.trackers i Tracker0 } else s)

/-- A channel without an outcome counts its check period from its start (13 R598). -/
def zSinceStart (s : State) (c : Nat) : State :=
  if vget s.z.outcome c 0 = 0 then { s with z.since := vset s.z.since c s.t.sf } else s

/-- The present superframe's word is 0: VOID, and DEGRADED in the superframe after (10 R468). -/
def bridgeVoid (s : State) (b : Nat) : State :=
  let u := s.t.up - s.t.p
  modChain s (12 + b) (fun c => markAdd .voidBridge u (u + 511) (markAdd .bridgeAfter (u + 512) (u + 1023) c))

/-- Start one stopped channel by command, its CHANNEL_RUN entry included; a bridge gets its excitation task (10 R467). -/
def chanStart (s : State) (c : Nat) (origin : BitVec 16) : State :=
  let u := s.t.up
  let s1 := modChain (chainFresh s c) c (fun ch => { ch with started := true })
  let s2 := logE s1 origin 0x0040 c 0 1
  let s3 := zSinceStart (trackersReset (dcForget s2 c) c) c
  let s4 := if c < 12 then frontStart s3 c
    else
      let b := c - 12
      let n := nextTaskNum s3
      let t1 := taskNew s3 0x14 .heat origin (.bridge b)
      let t2 := modBrg t1 b (fun g => { g with running := true, task := n, target := none, reached := false, warm := 0, warmNow := false,
                                               ask := none, defers := 0, run := 0 })
      let t3 := regWrite t2 (0x14 + b) (regField (fracWord t2 c (regWant t2 (0x14 + b))) 0 0 1)
      let t4 := modChain t3 c (fun ch => markOpen .warmup u { ch with ref := some u })
      settleFrom (if (brgOf s b).code = 0 then bridgeVoid t4 b else t4) c u
  if s.ty = u then modChain s4 c (startAsSync u) else s4

/-! ### Stopping (12 R558, 09 R422, R438, 10 R467, R480) -/

/-- The front end of a stopped AMP or MOX channel: held reset where it is on, or its excitation off. -/
def frontStop (s : State) (n : Nat) : State :=
  let s1 := boundEnd (satEnd s n s.t.up) n
  let s2 := modChain s1 n (markClose .hold (s.t.up - 1))
  let s3 := modFront s2 n (fun f => { f with req := none, later := none, vstep := none, holdAt := none, relSent := false,
                                             freeAt := none, run := 0, downCnt := 0,
                                             on := if n < 8 then f.on else false,
                                             closed := if n < 8 then f.on else false })
  if n < 8 && !(frontOf s3 n).on then s3 else regReplace s3 (ctlAddr n) (holdWord (regWant s3 (ctlAddr n)) n (frontOf s3 n).range)

/-- Bridge excitation off: BRGCTL and the word of the next DRIVE ticks; a running bound episode ends (10 R466, R467). -/
def bridgeOff (s : State) (b : Nat) : State :=
  let g := brgOf s b
  let s1 := regSet s (0x14 + b) 0 0 0
  let s2 := if g.bound then logE s1 orgUnit 0x0063 (12 + b) 1 0 else s1
  let s3 := modBrg s2 b (fun g => { g with task := 0, target := none, ask := none, bound := false,
                                           boundNext := false, deferNow := false, deferNext := false })
  { s3 with seam.drive := vset s3.seam.drive (4 + b) 0 }

/-- End a bridge's task and excitation. -/
def bridgeEnd (s : State) (b status reason : Nat) : State :=
  if (brgOf s b).task = 0 then s else bridgeOff (taskEnd s (brgOf s b).task status reason []) b

/-- The chain as its past run left it. -/
def PastRun.into (p : PastRun) (ch : Chain) : Chain :=
  { ch with started := false, isSnap := false, conv := p.conv, integ := p.integ, comb := p.comb, fir := p.fir, avg := p.avg, from_ := p.from_,
            base := p.base, due := p.due, ref := p.ref, settle := p.settle, dcEst := p.dcEst, dcInit := p.dcInit }

/-- What a chain of a past run keeps of it. -/
def PastRun.out (p : PastRun) (ch : Chain) : PastRun :=
  { p with conv := ch.conv, integ := ch.integ, comb := ch.comb, fir := ch.fir, avg := ch.avg, from_ := ch.from_, base := ch.base,
           due := ch.due, ref := ch.ref, settle := ch.settle, dcEst := ch.dcEst, dcInit := ch.dcInit }

/-- The present run, set aside while the past one is served. -/
def presentRun (ch : Chain) : PastRun :=
  PastRun.out { cut := 0, conv := none, integ := ch.integ, comb := ch.comb, fir := [], avg := [], from_ := 0, base := 0, due := [],
                ref := none, settle := [], dcEst := 0, dcInit := false, page := [], coefs := [] } ch

/-- The settings of a channel's FILT page that are not at reset. -/
def filtPage (s : State) (c : Nat) : List (Nat × Word) := s.cfg.filter (fun e => e.1 / 256 == 0x20 + c)

/-- Stop one started channel at this tick, with its CHANNEL_RUN entry; the codes decided before it go on into its run (12 R558). -/
def chanStop (s : State) (c : Nat) (origin : BitVec 16) : State :=
  if !(chainOf s c).started then s else
    let keep (ch : Chain) : Option PastRun :=
      if s.u.st = .vigil ∧ ch.conv.isNone then none
      else some { presentRun ch with cut := s.t.up, page := filtPage s c, coefs := vget s.usets (pNat s (idFilt c 2)) [] }
    let s1 := modChain s c (fun ch => { ch with started := false, past := keep ch, conv := none, isSnap := false })
    let s2 := logE s1 origin 0x0040 c 1 0
    if c < 12 then
      let s3 := frontStop s2 c
      if 8 ≤ c then modMox s3 (c - 8) (fun m => { m with cap := none }) else s3
    else
      let s3 := modBrg s2 (c - 12) (fun g => { g with running := false, sat := none })
      modChain s3 c (fun ch => markClose .warmup (s.t.up - 1) (markClose .satHigh (s.t.up - 1)
        (markClose .satLow (s.t.up - 1) ch)))

/-! ### SNAP (12 R565) -/

/-- Start the conversion of one stopped channel 0–11. -/
def snapStart (s : State) (c : Nat) : State :=
  let s1 := modChain (chainFresh s c) c (fun ch => { ch with isSnap := true, conv := none })
  frontStart s1 c

/-- A channel's part in its SNAP is over, a conversion not yet emitted going with it (12 R565): the front end returns to its stopped condition, and the task ends with its last
channel; the mask in the task record holds those still converting, its DEFERS the samples emitted. -/
def snapEnd (s : State) (c : Nat) (emitted : Bool) : State :=
  if !inSnap s c then s else
    let s1 := frontStop (modChain s c (fun ch => { ch with isSnap := false, conv := none, outs := [] })) c
    let step (t : TaskRec) : TaskRec :=
      match t.obj with
      | .snap m =>
        if m.getLsbD c then { t with obj := .snap (m &&& ~~~(BitVec.ofNat 64 (2 ^ c))), stage := t.stage + b2n emitted } else t
      | _ => t
    let s2 := { s1 with sched.tasks := s1.sched.tasks.map step }
    match s2.sched.tasks.find? (fun t => match t.obj with
        | .snap m => m == 0
        | _ => false) with
    | some t => taskEnd s2 t.num 0 0 [byteOf t.stage]
    | none => s2

/-- Stop a channel, or cancel its SNAP. -/
def chanHalt (s : State) (c : Nat) (origin : BitVec 16) : State := snapEnd (chanStop s c origin) c false

/-! ### SYNC (12 R551, R556) -/

/-- Every started chain and every single conversion is cleared at tick `u`: codes decided from it on form new responses, and
spans that straddle it are SETTLING (12 R560, R580); a start whose tick it is settles as this (12 R577). -/
def chainsClear (s : State) (u : Nat) : State :=
  forEach s (List.range 14) (fun s c =>
    let ch := chainOf s c
    if ch.isSnap || ch.conv.isSome then chainDue s c u true
    else if ch.started then
      modChain (chainDue s c u true) c (fun ch =>
        if ch.from_ = u then startAsSync u ch else { ch with settle := { ref := u, left := 0 } :: ch.settle })
    else s)

/-- Every channel under test is INVALID from here on. -/
def ZRun.spoil (r : ZRun) : ZRun := { r with chans := r.chans.map (fun x => { x with invalid := true }) }

/-- A check whose tone has begun is INVALID (13 R608). -/
def zSpoil (s : State) : State := { s with z.run := s.z.run.map (fun r => if r.t0.isSome then r.spoil else r) }

/-- A SYNC at the present tick. -/
def syncReset (s : State) : State := zSpoil (chainsClear { s with ty := s.t.up } s.t.up)

/-- A named reset's tick has come. -/
def SyncDue.due (d : SyncDue) (s : State) : Bool :=
  match d.count with
  | some c => s.t.count == c
  | none => decide (d.up ≤ s.t.up)

/-- The named resets due by now take place as one, with one SYNC_RESET entry (12 R556). -/
def syncRun (s : State) : State :=
  let due := s.syncs.filter (fun d => d.due s)
  match due with
  | [] => s
  | d :: ds =>
    let first := ds.foldl (fun a b => if b.order < a.order then b else a) d
    let s1 := syncReset { s with syncs := s.syncs.filter (fun d => !d.due s) }
    logE s1 first.origin 0x0045 0 0 (tick32 s)

end Sys2Proof.Machine
end

