-- ==== Sys2Proof/Machine/Loads.lean ====
section
/-! DEFINITION. Ending heater runs (11 R507, R511, R516), and the impedance queue: serving, aborting and ending targets
(13 R597–R612). -/

namespace Sys2Proof.Machine

/-! ### Heaters -/

/-- The heater runs a profile or a LEADCAL (11 R519 "running"). -/
def htrRunning (s : State) (n : Nat) : Bool := (htrOf s n).prof.isSome || (htrOf s n).lead.isSome

/-- PROFILE + 1, or 0. -/
def profCode (h : Heater) : Nat :=
  match h.prof with
  | some p => p + 1
  | none => 0

/-- Turn heater `n` off: HTRCTL bit 0, the word of the next DRIVE ticks, HEATER_RUN where a profile ran, and the end of a bound
episode; the film it serves is DEGRADED from here on (11 R507, R512). -/
def htrOff (s : State) (n : Nat) (origin : BitVec 16) : State :=
  if !htrRunning s n then s else
    let h := htrOf s n
    let s1 := regSet s (0x10 + n) 0 0 0
    let s2 := if h.prof.isSome then logE s1 origin 0x0051 n (natW (profCode h)) 0 else s1
    let s3 := if h.bound then logE s2 orgUnit 0x0063 (14 + n) 1 0 else s2
    let s4 := modHtr s3 n (fun h => { h with prof := none, lead := none, task := 0, next := 0, bound := false,
                                             boundNext := false, deferNext := false, meas := none, abort := none,
                                             settle := 0, settleNow := false })
    let s5 := modChain s4 (8 + n) (fun c => markOpen .filmOff s.t.up (markClose .filmSettle (s.t.up - 1) c))
    { s5 with seam.drive := vset s5.seam.drive n 0 }

/-- End what heater `n` runs, task and all. -/
def htrEnd (s : State) (n status reason : Nat) (origin : BitVec 16) : State :=
  if !htrRunning s n then s else htrOff (taskEnd s (htrOf s n).task status reason []) n origin

/-! ### Impedance checks -/

/-- A waiting target: its task, what it tests, and its channels. -/
abbrev ZWait := Nat × ZTarget × List Nat

/-- Channels of a target (13 R585). -/
def zChansOf : ZTarget → List Nat
  | .cell k => [2 * k, 2 * k + 1]
  | .film n => [8 + n]
  | .bridge b => [12 + b]

/-- The target that measures a channel. -/
def zTargetOf (c : Nat) : ZTarget := if c < 8 then .cell (c / 2) else if c < 12 then .film (c - 8) else .bridge (c - 12)

/-- A channel is in a queued or running target (13 R598, R612). -/
def zBusy (s : State) (c : Nat) : Bool :=
  (match s.z.run with
   | some r => r.chans.any (fun x => x.ch == c)
   | none => false) ||
  s.z.queue.any (fun q => q.2.2.contains c)

/-- A cell is under check (13 R607). -/
def zCell (s : State) (k : Nat) : Bool :=
  match s.z.run with
  | some r => r.target == .cell k
  | none => false

/-- Count an outcome (0 targets, 1 PASS, 2 FAIL, 3 INVALID, 4 ABORTED) of a task. -/
def zCount (s : State) (task i : Nat) : State :=
  let v := (aget s.z.counts task).getD (Vector.replicate 5 0)
  { s with z.counts := aset s.z.counts task (vmod v i (· + 1)) }

/-- An outcome of a channel's check (13 R596, R598): 1 PASS to 4 ABORTED. -/
def zOutcome (s : State) (task c o : Nat) : State :=
  zCount { s with z.outcome := vset s.z.outcome c o, z.since := vset s.z.since c s.t.sf } task o

/-- Mark a channel of the running target as ended. -/
def zEndMark (s : State) (c : Nat) : State :=
  { s with z.run := s.z.run.map (fun r =>
      { r with chans := r.chans.map (fun x => if x.ch = c then { x with ended := true } else x) }) }

/-- A tone code travels in the BIAS frame of the tick of its hand-over (13 R586). -/
def toneBias (s : State) (k : Nat) (c : BitVec 14) : State :=
  { s with seam.biasPend := vset s.seam.biasPend k (some c), seam.biasAt := vset s.seam.biasAt k (s.t.up - 1) }

/-- A write of a film's decade goes first, in the REG frame of the tick of its hand-over (13 R587). -/
def toneReg (s : State) (n d : Nat) : State :=
  let a := 0x0C + n
  let w := regField (regWant s a) 9 7 d
  let acc : RegAcc := { read := false, addr := byteOf a, data := w, tries := 0, at_ := s.t.up - 1, alts := [] }
  { s with seam.regQ := acc :: s.seam.regQ, seam.want := vset s.seam.want a w }

/-- The tone's value returns at tick `u` + 1: its marks end at `u` (13 R590). -/
def toneStop (s : State) (r : ZRun) (u : Nat) : State :=
  forEach s (zChansOf r.target) (fun s c => modChain s c (fun ch => markClose .tested u (markClose .tone u ch)))

/-- Remove a tone that still sounds at this tick: the cell's own code, or the film's own decade, goes out in the frame of this tick, and
the tone interval ends (13 R590, R606, R609). -/
def zToneOff (s : State) (r : ZRun) : State :=
  if r.t0.isNone || r.tEnd != 0 then s else
    match r.target with
    | .cell k => let s1 := toneStop s r s.t.up
                 toneBias s1 k (biasCode (cellOf s1 k).target)
    | .film n => let s1 := toneStop s r s.t.up
                 if (frontOf s1 (8 + n)).on then toneReg s1 n (frontOf s1 (8 + n)).range else s1
    | .bridge _ => toneStop s r (s.t.up - 1)

/-- The next target in line starts waiting for its grant (13 R599). -/
def zNext (s : State) : State :=
  match s.z.queue with
  | [] => { s with z.run := none }
  | (task, tg, chs) :: rest =>
    let cs : List ZChan := chs.map (fun c => { ch := c, xs := [], win := none, invalid := false, ended := false })
    let r : ZRun := { task := task, target := tg, chans := cs, inc := 0, cycles := 0, ampl := 0, granted := false,
                      t0 := none, tEnd := 0, pts := [] }
    { s with z.queue := rest, z.run := some r }

/-- The targets of a set of channels, in ascending order of their lowest named channel. -/
def zTargets (chs : List Nat) : List (ZTarget × List Nat) :=
  chs.foldl (fun (l : List (ZTarget × List Nat)) ch =>
    let t := zTargetOf ch
    if l.any (fun x => x.1 == t) then l.map (fun x => if x.1 = t then (x.1, x.2 ++ [ch]) else x) else l ++ [(t, [ch])]) []

/-- Targets wait behind those already there; an idle generator takes the first. -/
def zEnqueue (s : State) (n : Nat) (chs : List Nat) : State :=
  let s1 := { s with z.queue := s.z.queue ++ (zTargets chs).map (fun x => (n, x.1, x.2)),
                     z.counts := aset s.z.counts n (Vector.replicate 5 0) }
  if s1.z.run.isNone then zNext s1 else s1

/-- The result bytes of a completed task (13 R601). -/
def zResult (s : State) (task : Nat) : List Byte :=
  let v := (aget s.z.counts task).getD (Vector.replicate 5 0)
  (v.toList.map byteOf) ++ [0, 0]

/-- The running target is over: count it, end its task with the last one, and serve the next (13 R599, R601). -/
def zTargetDone (s : State) (r : ZRun) : State :=
  let s1 := zCount { s with z.run := none } r.task 0
  let s2 :=
    if s1.z.queue.any (fun q => q.1 == r.task) then s1
    else
      let s3 := taskEnd s1 r.task 0 0 (zResult s1 r.task)
      { s3 with z.counts := adel s3.z.counts r.task }
  zNext s2

/-- A target whose channels have all ended is over. -/
def zCheckDone (s : State) : State :=
  match s.z.run with
  | some r => if r.chans.all ZChan.ended then zTargetDone (zToneOff s r) r else s
  | none => s

/-- A channel's check ends ABORTED: in the running target, or still waiting (13 R606). -/
def zAbortChan (s : State) (c : Nat) : State :=
  let waiting := s.z.queue.filter (fun (q : ZWait) => q.2.2.contains c)
  let s1 := waiting.foldl (fun (s : State) (q : ZWait) => zOutcome s q.1 c 4) s
  let s2 := { s1 with z.queue := (s1.z.queue.map (fun (q : ZWait) => (q.1, q.2.1, q.2.2.filter (· != c)))) }
  let emptied := s2.z.queue.filter (fun (q : ZWait) => q.2.2.isEmpty)
  let s3 := { s2 with z.queue := s2.z.queue.filter (fun (q : ZWait) => !q.2.2.isEmpty) }
  let s4 := match s3.z.run with
    | some r => if r.chans.any (fun x => x.ch == c && !x.ended) then zCheckDone (zEndMark (zOutcome s3 r.task c 4) c) else s3
    | none => s3
  emptied.foldl (fun (s : State) (q : ZWait) =>
    let s5 := zCount s q.1 0
    if s5.z.queue.any (fun x => x.1 == q.1) || (match s5.z.run with
        | some r => r.task == q.1
        | none => false) then s5
    else
      let s6 := taskEnd s5 q.1 0 0 (zResult s5 q.1)
      { s6 with z.counts := adel s6.z.counts q.1 }) s4

/-- The check of a channel in the running target ends INVALID: no sample of it comes any more (13 R610). -/
def zInvalid (s : State) (c : Nat) : State :=
  match s.z.run with
  | some r => if r.chans.any (fun x => x.ch == c && !x.ended) then zCheckDone (zEndMark (zOutcome s r.task c 3) c) else s
  | none => s

/-- The running target's checks end ABORTED (13 R607). -/
def zAbortRun (s : State) : State :=
  match s.z.run with
  | some r => forEach s ((r.chans.filter (fun x => !x.ended)).map ZChan.ch) zAbortChan
  | none => s

/-- The periodic channels of a check task start their period again at a refusal with reason STATE (13 R598). -/
def periodRestart (s : State) (task : Nat) : State :=
  match (taskOf s task).map TaskRec.obj with
  | some (.periodic _) =>
    let waiting := ((s.z.queue.filter (fun (q : ZWait) => q.1 == task)).map (fun q => q.2.2)).flatten
    let now := match s.z.run with
      | some r => if r.task = task then r.chans.map ZChan.ch else []
      | none => []
    forEach s (waiting ++ now) (fun s c => { s with z.since := vset s.z.since c s.t.sf })
  | _ => s

/-- A check task ends unfinished: its targets go with no outcome (13 R600, R609). -/
def zRefuse (s : State) (origin : BitVec 16) (task reason : Nat) : State :=
  let s1 := taskEndBy origin (if reason = 6 then periodRestart s task else s) task 3 reason []
  let s2 := { s1 with z.queue := s1.z.queue.filter (fun (q : ZWait) => q.1 != task), z.counts := adel s1.z.counts task }
  match s2.z.run with
  | some r => if r.task = task then zNext (zToneOff { s2 with z.run := none } r) else s2
  | none => s2

/-- Entry to IDLE (13 R609): the running task ends DONE, every unfinished target of it ABORTED, and its tone is removed, that of a target whose
channels have their results among them. -/
def zIdle (s : State) : State :=
  match s.z.run with
  | none => s
  | some r =>
    let mine := s.z.queue.filter (fun (q : ZWait) => q.1 == r.task)
    let s1 := { s with z.queue := s.z.queue.filter (fun (q : ZWait) => q.1 != r.task) }
    let s2 := mine.foldl (fun (s : State) (q : ZWait) => zCount (q.2.2.foldl (fun s c => zOutcome s r.task c 4) s) r.task 0) s1
    zCheckDone (forEach s2 ((r.chans.filter (fun x => !x.ended)).map ZChan.ch) zAbortChan)

/-- Entry to VIGIL or SAFE (13 R609): the running task ends REFUSED, reason STATE. -/
def zLeave (s : State) : State :=
  match s.z.run with
  | none => s
  | some r => zRefuse s orgUnit r.task 6

end Sys2Proof.Machine
end

