-- ==== Sys2Proof/Machine/States.lean ====
section
/-! DEFINITION. Unit states and what their entry does (03 R139–R155, R941), the end of a pair or a join (19 R829, R865, R866), and
tally events with what a source does when it becomes LASTING (16 R697–R702). -/

namespace Sys2Proof.Machine

/-! ### The pair's end (19 R829, R865, R866) -/

/-- A join ends without a pair (19 R829). -/
def joinEnd (s : State) (code : Nat) : State :=
  match s.twin.join with
  | none => s
  | some j =>
    let s1 := taskEnd s j.task 3 (if code = 1 then 5 else 6) [byteOf code]
    { s1 with twin := { s1.twin with join := none, active := false, joinResult := code, num := none, msgs := [], tx := [], rx := [],
                                     rxDead := false, rxDrop := false, lastLead := false } }

/-- A join that ends with a last message still to leave: the link goes down once it has (log 61). A candidate tail that has not taken its
numbering from the lead can send none. -/
def joinEndSend (s : State) (code : Nat) (msgs : List (List Byte)) : State :=
  match s.twin.join with
  | none => s
  | some j =>
    let s1 := joinEnd s code
    if !j.lead && s.twin.num.isNone then s1
    else { s1 with twin := { s1.twin with active := true, lastLead := j.lead, num := s.twin.num, msgs := msgs } }

/-- Rules of the lead after a split: those of a Span's tail channels CLEAR, a Mirror's in the pair's state (19 R866). -/
def splitLeadRules (s : State) (mode : Nat) : State :=
  forEach s (List.range 16) (fun s r =>
    if mode = 1 then
      if 32 ≤ pNat s (idAlarm 1 r) ∧ (ruleOf s r).st ≠ .clear then alarmTo s r .clear orgUnit nanW else s
    else modRule s r (fun a => { a with st := pairOf s r }))

/-- Rules of the tail after a split: every rule CLEAR with an empty window (19 R866). -/
def splitTailRules (s : State) (mode : Nat) : State :=
  forEach s (List.range 16) (fun s r =>
    let s1 := if mode = 4 ∧ (ruleOf s r).st ≠ .clear then alarmTo s r .clear orgUnit nanW else s
    modRule s1 r (fun a => { a with st := .clear, win := [], counted := none, vrun := 0 }))

/-- Split the pair: TWIN_STATE, the link down, and what each survivor keeps (19 R865, R866): a tail has bank 0, and after a Span pair
AOUT off. `link` is the split of R864. A Span tail whose requests have no GRANT yet decides for itself. -/
def twinSplit (s : State) (origin : BitVec 16) (link : Bool) : State :=
  if s.twin.mode = 0 then s else
    let mode := s.twin.mode
    let lane : Option Bulk := match s.cmd.bulk with
      | some b => if b.far.isSome then none else some b
      | none => none
    let s1 := { logE s origin 0x0080 s.twin.partner (natW mode) 0 with cmd.bulk := lane }
    let t := { s1.twin with mode := 0, partner := 0, active := false, serial := 0, byRequest := !link, byLink := link,
                            lost := s1.twin.lost || link, fallback := false, alrt := false, aflt := false, votes := 0,
                            farCfg := [], fwdIn := [], req := none, grant := none, handed := [], num := none, ruleWait := [], ruleGot := [],
                            msgs := [], tx := [], rx := [], rxDead := false, rxDrop := false, splitDue := none, splitAhead := 0, partnerSt := 0xFF,
                            leadCapt := if capRunning s1 then s1.twin.leadCapt else [] }
    let late := mode = 3 ∧ s.twin.req.isSome
    let s2 := { s1 with twin := t, sched.doneSf := if late then none else s1.sched.doneSf }
    if mode = 1 ∨ mode = 2 then splitLeadRules s2 mode
    else
      let s3 := splitTailRules { s2 with sched.bank := 0 } mode
      if mode = 3 then aoutOff s3 origin true else s3

/-! ### State changes (03 R139–R155) -/

/-- The change itself: STATE_CHANGE, the event, and the time of the change (03 R141, R125). It ends a join, of which the partner is told
(19 R826; log 95). -/
def stateTo (s : State) (st : UState) (cause : BitVec 16) (origin : BitVec 16) : State :=
  let old := stCode s.u.st
  let new := stCode st
  let s1 := logE s origin 0x0002 0 (natW old) (natW (new + cause.toNat * 2 ^ 16))
  let s2 := { s1 with u := { s1.u with st := st, safecause := cause, chgEra := s.t.era, chgTick := s.t.count } }
  let s3 := queueEvent s2 0x06 ([byteOf old, byteOf new] ++ beBytes 2 cause.toNat)
  joinEndSend s3 10 [twinMsg 0x0E [2]]

/-- Streaming stops (15 R685). -/
def streamOff (s : State) : State :=
  { s with stream := { s.stream with mask := 0, div := 0, st := .off, count := Vector.replicate 24 0 } }

/-- A dwell whose beginning was not converted: it forms no sample and counts no event. -/
def hkPartial : Nat := 1000

/-- Housekeeping steps again from the next p = 0, out of the sentinel low-power mode (03 R941). -/
def hkResume (s : State) : State :=
  let s1 := regSet s 0x17 1 0 1
  { s1 with hk := { s1.hk with monitor := (s.hk.monitor + 1) % 6, from_ := s.t.up + 512 - s.t.p, taken := hkPartial, sum := 0, bad := false, void := false, held := false },
            vigil := { s1.vigil with burst := none, waiting := 0 } }

/-- A burst conversion still running is discarded (03 R941: every started chain is cleared). -/
def burstDrop (s : State) : State :=
  forEach s (List.range 8) (fun s c => modChain s c (fun ch => if ch.isSnap then ch else { ch with conv := none }))

/-- The sample path wakes: codes of 64 ticks are discarded, each started chain is cleared and resumes on the grid (03 R941
says so of the return to RUN; the same is done on leaving for IDLE and SAFE: DESIGN CHOICE, log 13). -/
def vigilLeave (s : State) : State :=
  let u := s.t.up + 64
  let s0 := forEach (burstDrop (hkResume s)) (List.range 8) (fun s n => modFront s n (fun f => { f with vstep := none, run := 0 }))
  let s2 := forEach s0 (List.range 8) (fun s c =>
    if (chainOf s c).started then
      modChain (chainDue s c u true) c (fun ch => { ch with from_ := u, settle := { ref := u, left := 0 } :: ch.settle })
    else s)
  forEach s2 (List.range 16) (fun s r => modRule s r (fun a => { a with vrun := 0 }))

/-- RAISED rules leave that state on entry to IDLE (16 R718). -/
def alarmsIdle (s : State) : State :=
  forEach s (List.range 16) (fun s r =>
    if (ruleOf s r).st = .raised then alarmLeave s r orgUnit nanW
    else if s.twin.mode = 2 ∧ pairOf s r = .raised then
      pairTo s r (if bit (alarmOpt s r) 9 then .latched else .clear) nanW
    else s)

/-- Everything that runs stops on entry to IDLE (03 R142, R431, 09 R400, 10 R469, 11 R516, 13 R609, 14 R642, 15 R673, 18 R790). -/
def idleStops (s : State) : State :=
  let s1 := zIdle s
  let s2 := forEach s1 (List.range 14) (fun s c => chanHalt s c orgUnit)
  let s3 := forEach s2 [0, 1] (fun s b => bridgeEnd s b 0 0)
  let s4 := forEach s3 (List.range 4) (fun s n => htrEnd s n 0 0 orgUnit)
  let s5 := playEndAll s4
  let s6 := tripDisarm (capStop s5) 0xFF orgUnit
  let s7 := aoutOff (streamOff s6) orgUnit true
  let s8 := alarmsIdle s7
  forEach s8 (List.range 4) cellToIdle

/-- Enter IDLE. -/
def enterIdle (s : State) (origin : BitVec 16) : State :=
  let was := s.u.st
  let s1 := stateTo s .idle 0 origin
  let s2 := if was = .vigil then vigilLeave s1 else s1
  let s3 := idleStops s2
  { s3 with aout.safeClear := false }

/-- A playing waveform is suspended (18 R790). -/
def playSuspend (s : State) : State :=
  forEach s [0, 1, 2, 3, 4] (fun s t => modPlay s t (fun p => if p.st = .playing then { p with st := .suspended } else p))

/-- Loads off on entry to SAFE: the six control writes, zero drive words, tasks REFUSED with reason STATE (03 R153). -/
def safeLoads (s : State) : State :=
  let s1 := forEach s (List.range 4) (fun s n =>
    if htrRunning s n then htrEnd s n 3 6 orgUnit else regSet s (0x10 + n) 0 0 0)
  let s2 := forEach s1 [0, 1] (fun s b =>
    if (brgOf s b).task = 0 then regSet s (0x14 + b) 0 0 0 else bridgeEnd s b 3 6)
  { s2 with seam.drive := Vector.replicate 6 0 }

/-- The AOUT policy of SAFE (18 R789). -/
def safeAout (s : State) : State :=
  if !s.aout.enabled then s
  else if pNat s (idAout 3) = 1 then aoutOff s orgUnit true
  else { s with aout.safeClear := true }

/-- Enter SAFE, or add a cause to a stay in it (03 R152, R153). MOXCTL is not written, as its started channels keep converting (03 R154);
the RS pins are Z by 02 R90 (`rsDriven`; DEDUCED, log 11). -/
def enterSafe (s : State) (cause : BitVec 16) (origin : BitVec 16) : State :=
  if s.u.st = .safe then { s with u.safecause := s.u.safecause ||| cause }
  else if s.u.st = .dormant then s
  else
    let was := s.u.st
    let s1 := stateTo s .safe cause origin
    let s2 := if was = .vigil then vigilLeave s1 else s1
    let s3 := safeLoads (zLeave (playSuspend s2))
    autoSeal (forEach (safeAout s3) (List.range 4) cellToSafe) 0

/-- The sentinel set: started AMP channels with enabled cells (03 R147). -/
def sentinelSet (s : State) : BitVec 8 :=
  BitVec.ofNat 8 (packFlags ((List.range 8).map (fun n => (chainOf s n).started && cellOn s (n / 2))))

/-- Enter VIGIL (03 R146, R147, 10 R469, 11 R516, 13 R609, 14 R642, 15 R673, 16 R719). The monitor rotation starts again at channel 18
(03 R148 does not say: DESIGN CHOICE, log 12). -/
def enterVigil (s : State) (origin : BitVec 16) : State :=
  let s1 := stateTo s .vigil 0 origin
  let s2 := forEach (zLeave s1) (List.range 4) (fun s n => htrEnd s n 3 6 orgUnit)
  let s3 := forEach s2 [0, 1] (fun s b => bridgeEnd s b 3 6)
  let s4 := forEach s3 [8, 9, 10, 11, 12, 13] (fun s c => chanHalt s c orgUnit)
  let s5 := forEach s4 (List.range 8) (fun s c => snapEnd s c false)
  let s6 := tripDisarm (capStop (playEndAll (streamOff s5))) 0xFF orgUnit
  let s7 := regSet s6 0x17 1 0 2
  let v : VigilSt := { since := s.t.sf, set := sentinelSet s7, burst := none, waiting := 0, rotation := 0, wakeDue := false }
  let s8 := { s7 with vigil := v, hk := { s7.hk with monitor := bits (regWant s7 0x17).toNat 4 2, taken := hkPartial, sum := 0, bad := false } }
  autoSeal (forEach s8 (List.range 16) (fun s r => modRule s r (fun a => { a with vrun := 0 }))) 1

/-- Enter RUN: from VIGIL the sample path wakes (03 R941, R170). -/
def enterRun (s : State) (origin : BitVec 16) : State :=
  let was := s.u.st
  let s1 := stateTo s .run 0 origin
  if was = .vigil then vigilLeave s1 else s1

/-! ### Tally events and LASTING (16 R697–R702) -/

/-- A heater at fault is stopped: the abort of 11 R510 falls due at the next p = 0, with reason 0 unless a refusal gives one (11 R515,
R523). -/
def htrFaultOne (s : State) (n : Nat) : State :=
  modHtr s n (fun h => { h with fault := true, abort := some (h.abort.getD 0) })

/-- The heaters that have shown the condition in this superframe's measurements so far. -/
def htrFault (s : State) (open_ : Bool) : State :=
  forEach s (List.range 4) (fun s n =>
    let h := htrOf s n
    if htrRunning s n && h.meas.isSome && h.measAt == s.t.up && (if open_ then h.isOpen else h.isShort) then htrFaultOne s n else s)

/-- POLE_LINK LASTING ends a join with code 8 once the partner has been heard; a unit that joins alone waits for JOIN_WAIT and code 1 (19
R826, R868; log 96). -/
def joinHeard (s : State) : State :=
  if s.twin.join.any (fun j => j.hello.isSome) then joinEnd s 8 else s

/-- What a source does when it becomes LASTING (16 R700); ranging is suspended where its step is taken. -/
def lastingAction (s : State) (i : Nat) : State :=
  match i with
  | 0 => enterSafe s 0x0001 orgUnit
  | 1 => enterSafe s 0x0002 orgUnit
  | 2 => enterSafe s 0x0004 orgUnit
  | 4 => { s with ring.pegDrop := true }
  | 12 => htrFault s true
  | 13 => htrFault s false
  | 17 => enterSafe s 0x0010 orgUnit
  | 18 => enterSafe s 0x0020 orgUnit
  | 23 => twinSplit (joinHeard s) orgUnit true
  | _ => s

/-- A source becomes LASTING at once (16 R697). -/
def tallyNow (s : State) (i : Nat) : State := if isLasting s i then s else lastingAction (tallyLatch s i) i

/-- Count one event, and make the source LASTING where its count reaches K; in VIGIL one event does for a monitor (16 R702). -/
def tallyEvent (s : State) (i : Nat) : State :=
  let s1 := tallyAdd s i
  if tallyK s1 i ≤ tallyCount s1 i ∨ (s.u.st = .vigil ∧ 17 ≤ i ∧ i ≤ 22) then tallyNow s1 i else s1

end Sys2Proof.Machine
end

