-- ==== Sys2Proof/Machine/Trig.lean ====
section
/-! DEFINITION. Sine, cosine, square root and arc tangent for the impedance tone (13 R586–R593), to better than 2⁻⁴⁸; the spec
names the functions and gives no precision (DEDUCED, log 21). Fixed-point integers carry 64 fraction bits. -/

namespace Sys2Proof.Machine

/-- One, in 64 fraction bits. -/
def fxOne : Int := 2 ^ 64

/-- Multiply two fixed-point numbers. -/
def fxMul (a b : Int) : Int := a * b / fxOne

/-- 2π, in 64 fraction bits. -/
def fxTau : Int := 6283185307179586476925286766559005768394 * fxOne / 10 ^ 39

/-- The Taylor terms from `t` on, two powers at a time: the next is −t·x²/((k+1)(k+2)). -/
def fxSeries : Nat → Int → Int → Nat → Int
  | 0, _, _, _ => 0
  | fuel + 1, x2, t, k => t + fxSeries fuel x2 (-(fxMul t x2) / (((k + 1) * (k + 2) : Nat) : Int)) (k + 2)

/-- An angle in turns, as a fixed-point angle from −π to π. -/
def fxAngle (turns : Rat) : Int :=
  let f := turns - (roundEven turns : Rat)
  (f * (fxTau : Rat)).floor

/-- Sine and cosine of an angle in turns. -/
def sinT (turns : Rat) : Rat :=
  let a := fxAngle turns
  (fxSeries 24 (fxMul a a) a 1 : Rat) / (fxOne : Rat)
def cosT (turns : Rat) : Rat :=
  let a := fxAngle turns
  (fxSeries 24 (fxMul a a) fxOne 0 : Rat) / (fxOne : Rat)

/-- The square root of a rational of zero or more, to 64 significant bits. -/
def sqrtQ (q : Rat) : Rat :=
  if q ≤ 0 then 0 else
    let k : Int := 64 - log2Rat q / 2
    (Nat.sqrt (q * pow2 (2 * k)).floor.toNat : Rat) * pow2 (-k)

/-- Arc tangent of a small fixed-point number: t − t³/3 + t⁵/5 − … -/
def fxAtan : Nat → Int → Int → Nat → Int
  | 0, _, _, _ => 0
  | fuel + 1, t2, t, k => t / (k : Int) + fxAtan fuel t2 (-(fxMul t t2)) (k + 2)

/-- Halve an angle given by its tangent: t / (1 + √(1 + t²)). -/
def tanHalf (t : Rat) : Rat := t / (1 + sqrtQ (1 + t * t))

/-- Arc tangent of a number from −1 to 1, in turns. -/
def atanT (t : Rat) : Rat :=
  let h := tanHalf (tanHalf t)
  let f := (h * (fxOne : Rat)).floor
  4 * (fxAtan 32 (fxMul f f) f 1 : Rat) / (fxTau : Rat)

/-- atan2 in turns, from −1/2 (excluded) to 1/2; 0 at the origin. -/
def atan2T (y x : Rat) : Rat :=
  let ay := if y < 0 then -y else y
  let ax := if x < 0 then -x else x
  if ax = 0 ∧ ay = 0 then 0
  else
    let base : Rat := if ay ≤ ax then atanT (ay / ax) else 1 / 4 - atanT (ax / ay)
    let half : Rat := if x < 0 then 1 / 2 - base else base
    if y < 0 then -half else half

end Sys2Proof.Machine
end

