-- ==== Sys2Proof/Machine/Filter.lean ====
section
/-! DEFINITION. The chain of a channel 0–13 from code to averager output (12 R529–R540, R547, R548, R563), scaling and calibration
(12 R541), lead subtraction (10 R458), the DC block (12 R566), and a sample's quality (12 R559–R562, R571, R572). -/

namespace Sys2Proof.Machine

/-! ### Code to averager output -/

/-- One code into the four integrators (12 R530, R531). -/
def integrate (v : Vector (BitVec 37) 4) (code : Nat) : Vector (BitVec 37) 4 :=
  let x := BitVec.ofInt 37 (2 * (code : Int) - 15)
  let a := vget v 0 0 + x
  let b := vget v 1 0 + a
  let c := vget v 2 0 + b
  #v[a, b, c, vget v 3 0 + c]

/-- The four combs on the last integrator: their new registers and the CIC output y (12 R531, R532). -/
def combs (v : Vector (BitVec 37) 4) (x : BitVec 37) : Vector (BitVec 37) 4 × Int :=
  let a := x - vget v 0 0
  let b := a - vget v 1 0
  let c := b - vget v 2 0
  (#v[x, a, b, c], (c - vget v 3 0).toInt)

/-- A number brought within a bound of 0. -/
def within (b x : Rat) : Rat := if x < -b then -b else if b < x then b else x

/-- Half-coefficient `i` of ROM response `k`, `n` the centre's index: free but for a DC gain of 1 within 2⁻²² (12 R533; log 1). -/
def romHalf (k n i : Nat) : Rat :=
  if i < n then Config.romHalf k i
  else 1 + within (1 / (2 ^ 22 : Nat)) (Config.romHalf k n) - 2 * ((List.range n).map (Config.romHalf k)).sum

/-- Half-coefficient `i` of the response a channel selects (12 R533, R535). -/
def firHalf (s : State) (c i : Nat) : Rat :=
  if pNat s (idFilt c 1) = 0 then 1
  else if pNat s (idFilt c 1) = 7 then
    (((vget s.usets (pNat s (idFilt c 2)) []).getD i 0).toInt : Rat) / (2 ^ 22 : Nat)
  else romHalf (pNat s (idFilt c 1)) ((firLF s c).1 / 2) i

/-- The sum of inputs, newest first, with tap `i` = half-coefficient min(i, L − 1 − i). -/
def firSum (s : State) (c l : Nat) : Nat → List Rat → Rat
  | _, [] => 0
  | i, x :: xs => firHalf s c (min i (l - 1 - i)) * x + firSum s c l (i + 1) xs

/-- The grid origin of a chain: its single conversion's, else the output grid's. -/
def originOf (ch : Chain) : Int :=
  match ch.conv with
  | some t => (t : Int)
  | none => ch.base

/-- Decision tick `d` ends a period `n` of the grid. -/
def onGrid (ch : Chain) (d n : Nat) : Bool := n != 0 && decide (((d : Int) - originOf ch) % (n : Int) = (n : Int) - 1)

/-- A chain takes the code of decision tick `d` into its present run (12 R557, R558, 03 R148–R150): between VIGIL bursts the
modulators are off, those of a paired unit too (19 R859 keeps only its exchanges going; DEDUCED, log 111). -/
def takesCode (s : State) (c d : Nat) : Bool :=
  let ch := chainOf s c
  decide (ch.from_ ≤ d) && (ch.started || ch.isSnap) && (s.u.st != .vigil || ch.conv.isSome)

/-- One change of the grid, or clearing; a single conversion starts again at a clearing, and the conversions of an SCS chain begin at or after
it (12 R563, R580). -/
def applyOne (scs : Bool) (ch : Chain) (x : Nat × Int × Bool) : Chain :=
  let c1 := { ch with base := x.2.1 }
  if x.2.2 then
    { clearChain c1 with conv := ch.conv.map (max x.1), ref := if scs then ch.ref.map (max x.1) else ch.ref }
  else c1

/-- The changes of the grid, and clearings, that fall due by the code of tick `d` (12 R549, R551, R563). -/
def applyDue (scs : Bool) (ch : Chain) (d : Nat) : Chain :=
  (ch.due.filter (fun x => decide (x.1 ≤ d))).foldl (applyOne scs) { ch with due := ch.due.filter (fun x => decide (d < x.1)) }

/-- Whether the averager output tagged `d` becomes a sample: every one in continuous mode, the one of a conversion in SCS mode,
which must begin at or after the reference tick (12 R560, R563, R564). -/
def emits (s : State) (c d : Nat) (ch : Chain) : Bool :=
  match ch.conv with
  | some t => decide (d + 1 = t + chainPscs s c)
  | none =>
    if ch.isSnap then false
    else if pOn s (idFilt c 5) then
      onGrid ch d (chainPscs s c) &&
      (match ch.ref with
       | some r => decide (max r ch.from_ + chainPscs s c ≤ d + 1)
       | none => false)
    else true

/-- The averager: the mean of the newest A outputs, if tick `d` ends its block. -/
def chainAvg (s : State) (c d : Nat) (y : Rat) (ch : Chain) : Chain :=
  let avg := (y :: ch.avg).take (avgA s c)
  let c1 := { ch with avg := avg }
  if onGrid ch d (chainP s c) && emits s c d ch then
    let o : ChainOut := { tag := d, val := avg.foldl (· + ·) 0 / (avgA s c : Nat) }
    { c1 with outs := c1.outs ++ [o] }
  else c1

/-- The FIR: its delay line, and its output if tick `d` is on its grid. -/
def chainFir (s : State) (c d : Nat) (m : Rat) (ch : Chain) : Chain :=
  let lf := firLF s c
  let line := (m :: ch.fir).take lf.1
  let c1 := { ch with fir := line }
  if onGrid ch d (cicC s c * lf.2) then chainAvg s c d (firSum s c lf.1 0 line) c1 else c1

/-- One code of decision tick `d` into a chain as it stands. -/
def feedCode (s : State) (c d code : Nat) (ch0 : Chain) : Chain :=
  let ch := applyDue (pOn s (idFilt c 5)) ch0 d
  let ig := integrate ch.integ code
  let c1 := { ch with integ := ig }
  if onGrid ch d (cicC s c) then
    let k := combs ch.comb (vget ig 3 0)
    chainFir s c d ((k.2 : Rat) / (cicC s c ^ 4 : Nat)) { c1 with comb := k.1 }
  else c1

/-- A configuration list with the FILT page of a channel replaced. -/
def pageIn (cfg : List (Nat × Word)) (c : Nat) (page : List (Nat × Word)) : List (Nat × Word) :=
  let bare := (cfg.filter (fun e => e.1 / 256 == 0x20 + c)).foldl (fun m e => cfgSet m e.1 (resetOf e.1)) cfg
  page.foldl (fun m e => cfgSet m e.1 e.2) bare

/-- The state with the settings of a past run in force (12 R537). -/
def asPast (s : State) (c : Nat) (p : PastRun) : State :=
  { s with cfg := pageIn s.cfg c p.page,
           usets := vset s.usets (cfgGet p.page (idFilt c 2)).toNat p.coefs }

/-- The present run `ch` takes its place again, and `x` is what its past run has become. -/
def pastBack (ch : Chain) (p : PastRun) (x : Chain) : Chain :=
  { (presentRun ch).into x with started := ch.started, isSnap := ch.isSnap, past := some (p.out x) }

/-- Serve the past run of a channel with `f`; the present run and the present settings stand as before. -/
def inPast (s : State) (c : Nat) (p : PastRun) (f : State → State) : State :=
  let r := f (modChain (asPast s c p) c p.into)
  { modChain r c (pastBack (chainOf s c) p) with cfg := pageIn r.cfg c (filtPage s c), usets := s.usets }

/-- One code of decision tick `d` into chain `c`: into the run that ends with it, or into the present one. -/
def chainCode (s : State) (c d code : Nat) : State :=
  let s1 := match (chainOf s c).past with
    | some p => if p.from_ ≤ d ∧ d < p.cut then modChain s c (fun ch => pastBack ch p (feedCode (asPast s c p) c d code (p.into ch))) else s
    | none => s
  if takesCode s1 c d then modChain s1 c (feedCode s1 c d code) else s1

/-! ### Scaling, calibration and lead subtraction (12 R541, 10 R458) -/

/-- Clip to 24 bits, with the flag that it clipped. -/
def clip24 (v : Int) : Int × Bool :=
  if 8388607 < v then (8388607, true) else if v < -8388608 then (-8388608, true) else (v, false)

/-- Range or decade stamped on a sample formed now. -/
def rangeNow (s : State) (c : Nat) : Nat := if c < 12 then (frontOf s c).range else 0

/-- Factory gain and offset of a channel on a range (12 R542). -/
def facGain (s : State) (c rg : Nat) : Word :=
  if c < 8 then vget s.fac.gainAmp (6 * c + rg) 0
  else if c < 12 then vget s.fac.gainMox (6 * (c - 8) + rg) 0 else vget s.fac.gainBrg (c - 12) 0
def facOff (s : State) (c rg : Nat) : Word :=
  if c < 8 then vget s.fac.offAmp (6 * c + rg) 0
  else if c < 12 then vget s.fac.offMox (6 * (c - 8) + rg) 0 else vget s.fac.offBrg (c - 12) 0

/-- Stage 5: the calibrated, clipped value of an averager output. -/
def scaleCal (s : State) (c rg : Nat) (a : Rat) : Int × Bool :=
  let z := a * (2 ^ 23 : Nat) / 12
  let f := f32Val (facGain s c rg) * z + f32Val (facOff s c rg)
  clip24 (roundAway (f32Val (chainOf s c).gain * f + f32Val (chainOf s c).off))

/-- Film excitation of a decade in amperes, and full scale of an AMP range (10 R446, 09 R405). -/
def decadeA (d : Nat) : Rat := (10 ^ d : Nat) / (10 ^ 9 : Nat)

/-- Stage 6: what a MOX channel subtracts for its leads. -/
def leadSub (s : State) (c rg : Nat) (v : Int × Bool) : Int × Bool :=
  if c < 8 ∨ 12 ≤ c ∨ v.2 then v
  else if pNat s (idMox (c - 8) 5) = 1 then
    clip24 (v.1 - roundAway (pVal s (idMox (c - 8) 6) * decadeA rg * (2 ^ 23 : Nat)))
  else v

/-- A value in the unit of its channel (14 R617). -/
def convert (s : State) (c rg : Nat) (v : Int) : Rat :=
  let x : Rat := (v : Rat) / (2 ^ 23 : Nat)
  if c < 8 then x * decadeA rg
  else if c < 12 then x / decadeA rg
  else if c < 14 then x / 4
  else if c < 18 then x * 1000
  else f32Val (vget s.fac.houseOff (c - 18) 0) + f32Val (vget s.fac.houseGain (c - 18) 0) * x

/-! ### Quality (12 R571, R572) -/

/-- A mark reaches into the ticks `lo` to `hi`. -/
def Mark.meets (m : Mark) (lo : Int) (hi : Nat) : Bool :=
  decide (m.first ≤ hi) &&
  (match m.last with
   | none => true
   | some l => decide (m.first ≤ l) && decide (lo ≤ (l : Int)))

/-- A condition holds at some tick of a span of channel `c`. -/
def spanHas (s : State) (c : Nat) (k : MarkKind) (lo : Int) (hi : Nat) : Bool :=
  ((chainOf s c).marks ++ s.gmarks).any (fun m => m.kind == k && m.meets lo hi)

/-- The first tick of the span of a sample tagged `tag`. -/
def spanLo (s : State) (c tag : Nat) : Int := (tag : Int) - (chainS s c : Int) + 1

/-- A settling entry covers a sample: one still counted, or a straddle of its reference tick; in SCS mode only a straddle (12 R559,
R561). -/
def Settle.covers (e : Settle) (scs : Bool) (lo : Int) (tag : Nat) : Bool :=
  decide (e.ref ≤ tag) && ((!scs && decide (0 < e.left)) || decide (lo < (e.ref : Int)))

/-- The entries left after a sample: a count that reaches 0 ends, a straddle ends with the first span past it. -/
def settleNext (es : List Settle) (lo : Int) (tag : Nat) : List Settle :=
  (es.map (fun e => if e.ref ≤ tag ∧ 1 < e.left then { e with left := e.left - 1 } else e)).filter
    (fun e => decide (tag < e.ref) || (if e.left = 0 then decide (lo < (e.ref : Int)) else true))

/-- Entries whose last counted sample is this one go; in SCS mode no later span reaches a reference tick this one has passed. -/
def settleStep (es : List Settle) (scs : Bool) (lo : Int) (tag : Nat) : List Settle :=
  if scs then es.filter (fun e => decide (tag < e.ref))
  else settleNext (es.filter (fun e => !(decide (e.ref ≤ tag) && e.left == 1))) lo tag

/-- A sample of channel `c` settles (12 R560–R562). -/
def isSettling (s : State) (c tag : Nat) : Bool :=
  let ch := chainOf s c
  let lo := spanLo s c tag
  let before : Bool := match ch.ref with
    | some r => decide (tag < r)
    | none => true
  (before && !scsMode s c) || ch.settle.any (fun e => e.covers (scsMode s c) lo tag)

/-- Bit of a channel's group in FLAGS [35:28] (01 R49, 09 R423, 10 R472); 14 + n stands for heater n. -/
def groupBit (c : Nat) : Nat :=
  if c < 4 then 7 else if c < 8 then 6 else if c < 12 then 5 else if c = 12 then 3 else if c = 13 then 2 else 4

/-- Newest ticks whose per-pin bytes have not all arrived, for a channel (09 R424). Byte j was last seen `back` ticks before the
newest frame. -/
def uncovered (s : State) (c : Nat) : Nat :=
  let ph := s.t.p + 512 - (s.t.up - (s.seam.flagAt + 1)) % 512
  let back (j : Nat) : Nat := (ph + 16 - j) % 16
  if c < 8 then max (back 1) (max (back 2) (back 3))
  else if c < 12 then back 4
  else if c < 14 then max (back 7) (back 8)
  else max (back 5) (back 6)

/-- A group flag stands in for per-pin bytes still to come, at a tick of the span. -/
def provisional (s : State) (c : Nat) (lo : Int) (hi : Nat) : Bool :=
  (List.range (uncovered s c)).any (fun i =>
    (s.seam.flagHist.getD i 0).getLsbD (groupBit c) && decide (i ≤ s.seam.flagAt) &&
    decide (s.seam.flagAt - i ≤ hi) && decide (lo ≤ ((s.seam.flagAt - i : Nat) : Int)))

/-- FILM_LINK of the heater serving a MOX channel. -/
def filmLinked (s : State) (c : Nat) : Bool := decide (8 ≤ c) && decide (c < 12) && pOn s (idHtr (c - 8) 7)

/-- The quality of a sample of channels 0–13 with its span, without or with the tone; `clip` is a clip of its own value. -/
def qualOf (s : State) (c tag : Nat) (clip tone : Bool) : Nat :=
  let lo := spanLo s c tag
  let has (k : MarkKind) : Bool := spanHas s c k lo tag
  let film (k : MarkKind) : Bool := filmLinked s c && has k
  if has .voidSeam || has .voidCell || has .voidBridge then 7
  else if clip || has .satHigh || has .satLow || has .pinClamp || provisional s c lo tag then 2
  else if has .bound || film .filmStarved then 5
  else if isSettling s c tag || has .hold || has .warmup || film .filmSettle then 1
  else if tone && has .tone then 4
  else if (neighbours c).any (fun n => has (.neighbour n)) || has .orphan || has .bridgeAfter || has .bridgeLimit || film .filmOff || film .filmFault then 3
  else if has .held then 6
  else 0

/-- The rank of a quality code: 1 is highest. -/
def rankOf : Nat → Nat
  | 7 => 1 | 2 => 2 | 5 => 3 | 1 => 4 | 4 => 5 | 3 => 6 | 6 => 7 | _ => 8

/-- The code of two that ranks higher. -/
def higher (a b : Nat) : Nat := if rankOf a ≤ rankOf b then a else b

/-- A sample word (12 R570). -/
def wordOf (x : Sample) : Word :=
  BitVec.ofNat 32 ((BitVec.ofInt 24 x.value).toNat * 256 + x.qual % 8 * 32 + x.ch % 32)

/-! ### The DC block (12 R566–R568) -/

/-- Stage 7 on a primary sample: the chain after it and the blocked sample. -/
def dcBlock (k : Nat) (ch : Chain) (x : Sample) : Chain × Sample :=
  let x24 : Int := x.value * 2 ^ 24
  let c1 := if !ch.frozen && !ch.dcInit && x.qual == 0 then { ch with dcEst := x24, dcInit := true } else ch
  if c1.dcInit then
    let b := clip24 (roundAway (((x24 - c1.dcEst : Int) : Rat) / (2 ^ 24 : Nat)))
    let c2 := if !c1.frozen && x.qual == 0 then { c1 with dcEst := c1.dcEst + (x24 - c1.dcEst) / (2 ^ k : Nat) } else c1
    (c2, { x with value := b.1, qual := if b.2 then higher 2 x.qual else x.qual })
  else (c1, { x with value := 0, qual := higher 1 x.qual })

end Sys2Proof.Machine
end

