-- ==== Sys2Proof/Machine/Sample.lean ====
section
/-! DEFINITION. What a sample passes through in its output tick (01 R74): the Tripwire (14 R613–R630), the alarm rules (16 R706–R731),
the capture decision (15 R655–R665), the stream (15 R683, R685); then the ranger (09 R412–R416, 10 R452–R455), lead capture
(10 R460) and the demodulation of an impedance check (13 R592–R596). -/

namespace Sys2Proof.Machine

/-! ### Tripwire conditions (14 R618–R624) -/

/-- Settings of a slot, mirrored so that POL 1 reads as POL 0 of negated values; `pol` keeps that its "≥" and "<" are exchanged
(14 R620). -/
structure SlotCfg where
  pol  : Bool
  type : Nat
  mode : Nat
  a    : Rat
  b    : Rat
  rel  : Rat
  tmin : Int
  tmax : Int
  deriving DecidableEq, Repr

def slotSign (s : State) (i : Nat) : Rat := if pNat s (idTrip 3 i) = 1 then -1 else 1

def slotCfg (s : State) (i : Nat) : SlotCfg :=
  let g := slotSign s i
  { pol := pNat s (idTrip 3 i) = 1, type := pNat s (idTrip 0 i), mode := pNat s (idTrip 4 i), a := g * pVal s (idTrip 5 i), b := g * pVal s (idTrip 6 i),
    rel := g * pVal s (idTrip 5 i) - pVal s (idTrip 7 i), tmin := 256 * (pNat s (idTrip 8 i) : Int),
    tmax := 256 * (pNat s (idTrip 9 i) : Int) }

/-- A pair of accepted samples: tags and mirrored values. -/
structure Pair where
  ta : Int
  va : Rat
  tb : Int
  vb : Rat
  deriving DecidableEq, Repr

/-- The pair crosses a level upward, downward; and the instant, in 1/256 tick (14 R618). -/
def Pair.up (p : Pair) (l : Rat) : Bool := decide (p.va < l) && decide (l ≤ p.vb)
def Pair.dn (p : Pair) (l : Rat) : Bool := decide (l < p.va) && decide (p.vb ≤ l)
def Pair.at_ (p : Pair) (l : Rat) : Int :=
  256 * p.ta + (p.tb - p.ta) * max 1 (roundUp (256 * (l - p.va) / (p.vb - p.va)))

/-- "v ≥ l" of a mirrored value: POL 1 makes it "v < l" of the value as it stands, which a value at the level does not meet. -/
def SlotCfg.ge (g : SlotCfg) (v l : Rat) : Bool := if g.pol then decide (l < v) else decide (l ≤ v)

/-- The tracker on its init sample. -/
def trackInit (g : SlotCfg) (t : Int) (v : Rat) : Tracker :=
  { prev := some (t, v), seen := 0, mode := if g.ge v g.a then 1 else 0, at_ := 256 * t, fired := false }

/-- PULSE: mode 1 while in a pulse (14 R621). -/
def trackPulse (g : SlotCfg) (p : Pair) (k : Tracker) : Tracker × Option Int :=
  if k.mode = 0 then (if p.up g.a then ({ k with mode := 1, at_ := p.at_ g.a }, none) else (k, none))
  else if p.dn g.rel then
    let w := p.at_ g.rel - k.at_
    let inside := decide (g.tmin ≤ w) && decide (w ≤ g.tmax)
    ({ k with mode := 0 }, if inside == (g.mode == 0) then some (p.at_ g.rel) else none)
  else (k, none)

/-- RUNT: 0 below, 1 above, 2 rising (14 R622). -/
def trackRunt (g : SlotCfg) (p : Pair) (k : Tracker) : Tracker × Option Int :=
  let m := if k.mode = 0 ∧ p.up g.a then 2 else k.mode
  if m = 2 ∧ g.ge p.vb g.b then
    ({ k with mode := if p.dn g.a then 0 else 1 }, none)
  else if m = 2 ∧ p.dn g.a then ({ k with mode := 0 }, some (p.at_ g.a))
  else if m = 1 ∧ p.dn g.a then ({ k with mode := 0 }, none)
  else ({ k with mode := m }, none)

/-- TIMEOUT, NOCROSS and NOEXIT (14 R623). -/
def trackTimeout (g : SlotCfg) (p : Pair) (k : Tracker) : Tracker × Option Int :=
  if g.mode = 0 then
    let dl := k.at_ + g.tmax
    if p.up g.a then ({ k with at_ := p.at_ g.a }, if dl < p.at_ g.a then some dl else none)
    else if dl ≤ 256 * p.tb then ({ k with at_ := dl }, some dl)
    else (k, none)
  else
    let k1 := if k.mode = 0 ∧ p.up g.a then { k with mode := 1, at_ := p.at_ g.a, fired := false } else k
    let dl := k1.at_ + g.tmax
    if k1.mode = 0 then (k1, none)
    else if p.dn g.rel then
      ({ k1 with mode := 0 }, if !k1.fired && decide (dl < p.at_ g.rel) then some dl else none)
    else if !k1.fired && decide (dl ≤ 256 * p.tb) then ({ k1 with fired := true }, some dl)
    else (k1, none)

/-- SLEW: mode 1 in transit (14 R624). -/
def trackSlew (g : SlotCfg) (p : Pair) (k : Tracker) : Tracker × Option Int :=
  let k1 := if p.up g.a then { k with mode := 1, at_ := p.at_ g.a } else k
  if k1.mode = 1 ∧ p.up g.b then
    let w := p.at_ g.b - k1.at_
    let hit := if g.mode = 0 then decide (w < g.tmin) else decide (g.tmax < w)
    ({ k1 with mode := 0 }, if hit then some (p.at_ g.b) else none)
  else if k1.mode = 1 ∧ p.dn g.a then ({ k1 with mode := 0 }, none)
  else (k1, none)

/-- An accepted sample of tag `t` and mirrored value `v`: the tracker after it, and the instant at which the condition came true. -/
def track (g : SlotCfg) (k : Tracker) (t : Int) (v : Rat) : Tracker × Option Int :=
  match k.prev with
  | none =>
    let k0 := trackInit g t v
    ((if g.type = 1 ∨ g.type = 4 then { k0 with mode := 0 } else k0), none)
  | some (ta, va) =>
    let p : Pair := { ta := ta, va := va, tb := t, vb := v }
    let r := match g.type with
      | 1 => trackPulse g p k
      | 2 => trackRunt g p k
      | 3 => trackTimeout g p k
      | 4 => trackSlew g p k
      | _ => (k, none)
    ({ r.1 with prev := some (t, v) }, r.2)

/-! ### What a formed sample carries -/

/-- A sample in its output tick: the primary, the blocked one of channels 0–13, and whether its span meets a tone interval. -/
structure Formed where
  prim : Sample
  blk  : Option Sample
  tone : Bool
  deriving DecidableEq, Repr

/-- The stream a slot, a rule or capture looks at. -/
def Formed.stream (f : Formed) (blocked : Bool) : Option Sample := if blocked then f.blk else some f.prim

/-- A sample's value in its channel's unit. -/
def sampleVal (s : State) (x : Sample) : Rat := convert s x.ch x.range x.value

/-- The count at a sample's tag. -/
def tagCount (s : State) (x : Sample) : BitVec 48 := (tagOf s x.tag).1

/-! ### Step 2: the slots watching a sample (14 R615, R616, R628, R629) -/

/-- One slot on one sample: its tracker moves, and the point at which it came true. -/
def slotEval (s : State) (i : Nat) (x : Sample) : State × Option Int :=
  if !bit (pNat s (idTrip 10 i)) x.qual then (s, none) else
    let k := vget s.trip.trackers i Tracker0
    let k0 := if s.t.cuts.any (fun c => decide (k.seen < c.1) && decide (c.1 ≤ x.tag)) then Tracker0 else k
    let r := track (slotCfg s i) k0 (tagCount s x).toNat (slotSign s i * sampleVal s x)
    ({ s with trip.trackers := vset s.trip.trackers i { r.1 with seen := x.tag } }, r.2)

/-- Slot `i` is armed and watches the sample's channel and a stream it has. -/
def slotSample (s : State) (i : Nat) (f : Formed) : Option Sample :=
  if s.trip.st != .disarmed && s.trip.armed.getLsbD i && pNat s (idTrip 1 i) == f.prim.ch then
    f.stream (pNat s (idTrip 2 i) == 1)
  else none

/-- Every armed slot watching the sample, in ascending order, and those that came true with their points. -/
def slotsEval (s : State) (f : Formed) : State × List (Nat × Int) :=
  (List.range 8).foldl (fun (acc : State × List (Nat × Int)) i =>
    match slotSample acc.1 i f with
    | none => acc
    | some x =>
      let r := slotEval acc.1 i x
      match r.2 with
      | none => (r.1, acc.2)
      | some p => (r.1, acc.2 ++ [(i, p)])) (s, [])

/-- The present tick has given its one trigger, whatever the Tripwire has become since (14 R629). -/
def tripNow (s : State) : Bool := s.trip.last.isSome && s.trip.recogAt == s.t.up

/-- A slot that comes true: it defines the trigger, joins its mask, or is missed. -/
def slotTrue (s : State) (f : Formed) (i : Nat) (p : Int) : State :=
  let m : BitVec 16 := BitVec.ofNat 16 (2 ^ i)
  let era := (tagOf s f.prim.tag).2
  let q := heldPoint s era p
  if tripNow s then coincAdd s m
  else if s.trip.st = .armed then
    tripTake s i (pNat s (idTrip 0 i)) 0 f.prim.ch (pNat s (idTrip 2 i) == 1) era (BitVec.ofInt 48 (q / 256))
      (BitVec.ofInt 8 (q % 256)) m
  else if s.trip.st = .dead then tripMiss s m else s

def tripStep (s : State) (f : Formed) : State :=
  let r := slotsEval s f
  r.2.foldl (fun (s : State) (h : Nat × Int) => slotTrue s f h.1 h.2) r.1

/-! ### Step 3: the alarm rules (16 R706–R719) -/

/-- The channel of this unit that rule `r` watches here. -/
def ruleChan (s : State) (r : Nat) : Option Nat :=
  let c := alarmN s 1 r
  if s.twin.mode = 3 then (if 32 ≤ c ∧ c < 46 then some (c - 32) else none)
  else if c < 24 then some c else none

/-- Set and clear conditions (16 R708). -/
def ruleSets (s : State) (r : Nat) (v : Rat) : Bool :=
  match alarmN s 3 r with
  | 0 => decide (f32Val (alarmW s 4 r) ≤ v)
  | 1 => decide (v ≤ f32Val (alarmW s 4 r))
  | _ => decide (f32Val (alarmW s 4 r) ≤ v) || decide (v ≤ f32Val (alarmW s 6 r))
def ruleClears (s : State) (r : Nat) (v : Rat) : Bool :=
  match alarmN s 3 r with
  | 0 => decide (v < f32Val (alarmW s 5 r))
  | 1 => decide (f32Val (alarmW s 5 r) < v)
  | _ => decide (f32Val (alarmW s 7 r) < v) && decide (v < f32Val (alarmW s 5 r))

/-- The rule becomes RAISED: its window is emptied, but in VIGIL (16 R709, R710, R719). -/
def ruleRaise (s : State) (r : Nat) (w : Word) : State :=
  alarmTo (if s.u.st = .vigil then s else modRule s r (fun a => { a with win := [], counted := none })) r .raised orgUnit w

/-- A set event outside RAISED: one a superframe in the window, or in VIGIL a run long enough (16 R709, R719). -/
def ruleCount (s : State) (r : Nat) (w : Word) : State :=
  if s.u.st = .vigil then (if alarmN s 0xC r ≤ (ruleOf s r).vrun then ruleRaise s r w else s)
  else if (ruleOf s r).counted = some s.t.sf then s
  else
    let s1 := modRule s r (fun a => { a with win := winAdd a.win (alarmN s 9 r) s.t.sf, counted := some s.t.sf })
    if alarmN s 8 r ≤ alarmCount s1 r then ruleRaise s1 r w else s1

/-- One evaluation of a rule on a converted value. -/
def ruleEval (s : State) (r : Nat) (v : Rat) : State :=
  let w := f32Of v
  let run (a : AlarmRule) : Nat := if s.u.st = .vigil ∧ ruleSets s r v then a.vrun + 1 else 0
  let s1 := modRule s r (fun a => { a with value := w, skipped := false, vrun := run a })
  if (ruleOf s r).st = .raised then
    if ruleClears s r v then alarmLeave s1 r orgUnit w else s1
  else if ruleSets s r v then ruleCount s1 r w
  else s1

/-- The raising sample raises a Tripwire trigger (01 R75, 14 R630, R646). -/
def ruleTrip (s : State) (r : Nat) (x : Sample) (blocked : Bool) : State :=
  if tripNow s then coincAdd s 0x100
  else if s.trip.st = .armed then tripTake s 8 5 r x.ch blocked (tagOf s x.tag).2 (tagCount s x) 0 0x100
  else if s.trip.st = .dead then tripMiss s 0x100
  else s

/-- Evaluate rule `r` on a sample or result `v`, with the trigger its transition to RAISED may raise. -/
def ruleOn (s : State) (r : Nat) (v : Rat) : State × Bool :=
  let s1 := ruleEval s r v
  (s1, ruleSt s r != .raised && ruleSt s1 r == .raised && bit (alarmAct s r) 3)

/-- The sample rule `r` evaluates, if it watches the sample's channel and stream. -/
def ruleSample (s : State) (r : Nat) (f : Formed) : Option Sample :=
  if alarmOn s r && ruleChan s r == some f.prim.ch && decide (alarmN s 2 r < 2) then f.stream (alarmN s 2 r == 1) else none

/-- The impedance result rule `r` evaluates, if it sources one of the sample's channel: |Z|, NaN where it cannot be formed (00 R17), or the
phase in degrees (16 R707). -/
def ruleResult (s : State) (r : Nat) (f : Formed) (res : Option (Option Rat × Rat)) : Option (Option Rat) :=
  match res with
  | none => none
  | some z =>
    if alarmOn s r && ruleChan s r == some f.prim.ch && decide (2 ≤ alarmN s 2 r) then
      some (if alarmN s 2 r = 2 then z.1 else some z.2)
    else none

/-- Rule `r` evaluates a NaN: it meets neither condition (16 R708). -/
def ruleNaN (s : State) (r : Nat) : State := modRule s r (fun a => { a with value := nanW, skipped := false, vrun := 0 })

/-- Rule `r` evaluates a value; of the rules that raise a trigger the first supplies its number (16 R713), and each one more while DEAD is
missed (14 R634, 16 R731). -/
def ruleFire (s : State) (r : Nat) (v : Rat) (x : Sample) (blocked : Bool) : State :=
  let q := ruleOn s r v
  if q.2 then ruleTrip q.1 r x blocked else q.1

/-- Rule `r` on the sample or result it sources, if any. -/
def alarmOne (f : Formed) (res : Option (Option Rat × Rat)) (s : State) (r : Nat) : State :=
  match ruleSample s r f, ruleResult s r f res with
  | some x, _ =>
    let hold := bit (alarmOpt s r) 8 && f.tone
    if hold || !bit (alarmOpt s r) x.qual then modRule s r (fun a => { a with skipped := hold })
    else ruleFire s r (sampleVal s x) x (alarmN s 2 r == 1)
  | none, some (some v) => ruleFire s r v f.prim false
  | none, some none => ruleNaN s r
  | none, none => s

/-- The rules in ascending order, on a sample and on the result formed with it. -/
def alarmStep (s : State) (f : Formed) (res : Option (Option Rat × Rat)) : State :=
  if !stActive s then s else (List.range 16).foldl (alarmOne f res) s

/-! ### Step 4: the capture decision (15 R655, R656, R660–R665) -/

/-- The stream of a channel that capture records, if it records it. -/
def captSample (s : State) (f : Formed) : Option Sample :=
  if bit (pNat s (idCapt 0)) f.prim.ch then f.stream (bit (pNat s (idCapt 1)) f.prim.ch && f.blk.isSome) else none

/-- A sample is recorded (15 R655). -/
def captTakes (s : State) (x : Sample) : Bool :=
  match vget s.capt.stored x.ch none with
  | none => true
  | some p =>
    let d := sampleVal s x - p.value
    p.qual != x.qual || p.range != x.range || decide (pVal s (idCapt (0x10 + x.ch)) < (if d < 0 then -d else d))

/-- DELTA of a tag against the base in force. -/
def captDelta (s : State) (x : Sample) : Nat := (tagCount s x - (tagOf s s.capt.base).1).toNat

/-- The era starts and corrections between the last TIME record and a SAMPLE's tag (15 R662). -/
def timeCuts (s : State) (x : Sample) : List (Nat × Nat) :=
  s.t.cuts.filter (fun c => decide (s.capt.timeAt < c.1) && decide (c.1 ≤ x.tag))

/-- The TIME record a SAMPLE needs before it (15 R661, R662): for an era start or a correction, before the first SAMPLE tagged from it on.
The opening TIME serves the first SAMPLE unless its tick lies past the sample's tag (log 91). -/
def captTimeFor (s : State) (x : Sample) : State :=
  let cs := timeCuts s x
  if !cs.isEmpty then capTime s x.tag (if cs.any (fun c => c.2 == 2) then 2 else 3)
  else if x.tag < s.capt.base then capTime s x.tag 1
  else if 4194303 < captDelta s x then capTime s x.tag 0
  else s

/-- The RANGE event of an AMP or MOX channel (15 R656). -/
def captRange (s : State) (x : Sample) : State :=
  if 12 ≤ x.ch then s else
    let same : Bool := match vget s.capt.stored x.ch none with
      | some p => p.range == x.range
      | none => false
    if same then s else capPush s (evWord 0x06 (x.ch * 2 ^ 43 + x.range * 2 ^ 40)) s.t.up

/-- Record one sample, of TYPE 3 by a Span tail (15 R659, 19 R842). In POST it counts from the trigger point on, and the count reached closes the segment. -/
def captWrite (s : State) (x : Sample) : State :=
  let s1 := captRange (captTimeFor s x) x
  let s2 := capPush s1 (sampleWord (if s.twin.mode = 3 then 3 else 0) x.ch x.qual (captDelta s1 x) x.value) x.tag
  if s2.capt.lostAt.isSome then s2
  else
    let st : Stored := { qual := x.qual, range := x.range, value := sampleVal s x }
    let s3 := { s2 with capt.stored := vset s2.capt.stored x.ch (some st), capt.base := x.tag }
    if s3.capt.phase == .post && s3.capt.placed && afterPoint s3 x.tag s3.capt.trigEra s3.capt.trigTick then
      let s4 := { s3 with capt.postDone := s3.capt.postDone + 1 }
      if s4.capt.postDone = captN s4 3 then capClose s4 1 orgUnit else s4
    else s3

def captStep (s : State) (f : Formed) : State :=
  if !capRunning s || s.capt.stopping || s.capt.lostAt.isSome then s else
    match captSample s f with
    | none => s
    | some x => if captTakes s x then captWrite s x else s

/-! ### Step 5: the stream queue (15 R683, R685) -/

/-- Streaming overflows: the queue goes, and one overflow entry of the lost sample's tag and superframe is queued. -/
def streamOverflow (s : State) (tag sf : Nat) : State :=
  let e : StreamEnt := { ch := 31, qual := 7, range := 0, value := 0, tag := tag, sf := sf }
  { s with stream := { s.stream with mask := 0, div := 0, queue := [e], st := .overflow, lost := s.stream.lost + 1 } }

def streamStep (s : State) (x : Sample) : State :=
  if s.stream.st != .on || !s.stream.mask.getLsbD x.ch then s else
    let n := vget s.stream.count x.ch 0 + 1
    if n < s.stream.div then { s with stream.count := vset s.stream.count x.ch n }
    else
      let s1 := { s with stream.count := vset s.stream.count x.ch 0 }
      if 24 ≤ s1.stream.queue.length then streamOverflow s1 x.tag s.t.sf
      else
        let e : StreamEnt := { ch := x.ch, qual := x.qual, range := x.range, value := x.value, tag := x.tag, sf := s.t.sf }
        { s1 with stream.queue := s1.stream.queue ++ [e] }

/-- Steps 2 to 5 of 01 R74; `res` is the impedance result formed with the sample, magnitude and phase in degrees. -/
def passSample (s : State) (f : Formed) (res : Option (Option Rat × Rat)) : State :=
  streamStep (captStep (alarmStep (tripStep s f) f res) f) f.prim

/-! ### The ranger (09 R412–R416, R441, 10 R452–R455, 13 R603) -/

/-- One LOOP_BOUND episode starts on a ranger (09 R413). -/
def boundStart (s : State) (n : Nat) : State :=
  if (frontOf s n).bound then modFront s n (fun f => { f with quiet := 0 }) else
    let s1 := modChain (modFront s n (fun f => { f with bound := true, quiet := 0 })) n (markOpen .bound s.t.up)
    tallyEvent (logE s1 orgUnit 0x0063 n 0 1) 16

/-- Settings of a ranger: on, and its bounds by code. -/
def rangerOn (s : State) (n : Nat) : Bool := pOn s (if n < 8 then idAmp n 1 else idMox (n - 8) 1)
def rangerMin (s : State) (n : Nat) : Nat := pNat s (if n < 8 then idAmp n 2 else idMox (n - 8) 2)
def rangerMax (s : State) (n : Nat) : Nat := pNat s (if n < 8 then idAmp n 3 else idMox (n - 8) 3)
def rangerHold (s : State) (n : Nat) : Nat := pNat s (if n < 8 then idAmp n 4 else idMox (n - 8) 4)

/-- The step toward less sensitivity that a wish takes: the code, or none at the software bound; the hardware's own end of a
MOX channel takes none and binds nothing. -/
def upStep (s : State) (n : Nat) : Option Nat × Bool :=
  let r := (frontOf s n).range
  if n < 8 then (if r < rangerMax s n then (some (r + 1), false) else (none, true))
  else if rangerMin s n < r then (some (r - 1), false)
  else (none, rangerMin s n != 0)

/-- The step toward more sensitivity, within its bound (09 R414, 10 R454). -/
def downStep (s : State) (n : Nat) : Option Nat :=
  let r := (frontOf s n).range
  if n < 8 then (if rangerMin s n < r then some (r - 1) else none)
  else if r < rangerMax s n then some (r + 1) else none

/-- A change of range is on its way, unreleased or settling (09 R412). -/
def rangeMoving (s : State) (n : Nat) : Bool :=
  let f := frontOf s n
  let moves (q : Option RangeReq) : Bool := match q with
    | some q => !q.start && q.range != f.range
    | none => false
  moves f.req || f.later.isSome || (f.holdAt.isSome && f.range != f.oldRange)

/-- The ranger makes no decision while a change is unreleased or settling. -/
def rangerBlocked (s : State) (n tag : Nat) : Bool :=
  rangeMoving s n ||
  (match (frontOf s n).relAt with
   | some e => decide (tag < e)
   | none => false) ||
  (chainOf s n).settle.any (fun e => some e.ref == (frontOf s n).relAt && e.covers (scsMode s n) (spanLo s n tag) tag)

/-- A step decided in VIGIL waits for the next burst; a burst takes one (03 R151). -/
def vigilStep (s : State) (n r : Nat) : State :=
  modFront s n (fun f => if f.vstep.isSome then f else { f with vstep := some r })

/-- The ranger takes a step: at once, or in VIGIL from the next burst (09 R412, R416). -/
def rangerTake (s : State) (n r : Nat) : State :=
  if s.u.st = .vigil then vigilStep s n r else rangeAsk s n r orgUnit true false

/-- A sample without a wish to widen: a bound episode ends after 16 of them (09 R413). -/
def rangerQuiet (s : State) (n : Nat) : State :=
  if !(frontOf s n).bound then s
  else if 15 ≤ (frontOf s n).quiet then boundEnd s n
  else modFront s n (fun f => { f with quiet := f.quiet + 1 })

/-- The decision on one sample of value `v` (stage 5) and quality `q`; `blocked` is `rangerBlocked` before its settling counted. A sample on
which no decision is made counts toward the end of a bound episode where its value gives no wish (09 R413; log 109). -/
def rangerStep (s : State) (n : Nat) (v : Int) (q : Nat) (blocked tone : Bool) : State :=
  let f := frontOf s n
  let on := rangerOn s n
  let wish := on && decide (7549747 ≤ v.natAbs)
  let low := q == 0 && decide (v.natAbs ≤ 671088)
  let cnt := if on && low && !tone && !blocked then f.downCnt + 1 else 0
  let s1 := modFront s n (fun f => { f with downCnt := cnt })
  if blocked || tone then (if wish then s1 else rangerQuiet s1 n)
  else if wish then
    match upStep s1 n with
    | (some r, _) =>
      let s2 := modFront s1 n (fun f => { f with quiet := 0 })
      if f.suspended then s2 else rangerTake s2 n r
    | (none, true) => if f.suspended && !f.bound then s1 else boundStart s1 n
    | (none, false) => modFront s1 n (fun f => { f with quiet := 0 })
  else
    let s2 := rangerQuiet s1 n
    if on && !f.suspended && decide (rangerHold s n ≤ cnt) then
      match downStep s2 n with
      | some r => rangerTake (modFront s2 n (fun f => { f with downCnt := 0 })) n r
      | none => s2
    else s2

/-! ### Lead capture (10 R460, R481) -/

/-- One GOOD sample of a capture, in ohms before the subtraction; the last one writes RLEAD. -/
def leadTake (s : State) (n : Nat) (r : Rat) : State :=
  match (moxOf s n).cap with
  | none => s
  | some c =>
    if 1 < c.left then modMox s n (fun m => { m with cap := some { c with left := c.left - 1, sum := c.sum + r } })
    else
      let mean := (c.sum + r) / (c.total : Nat)
      let w := f32Of (if mean < 0 then 0 else if 100 < mean then 100 else mean)
      let old := param s (idMox n 6)
      let s1 := setParam (modMox s n (fun m => { m with cap := none, leadSrc := true })) (idMox n 6) w
      if sameVal (idMox n 6) old w then s1 else logE s1 c.origin 0x0010 (idMox n 6) old w

/-! ### Impedance demodulation (13 R588–R596) -/

/-- Tone phase, in turns, at a tick. -/
def toneTurns (r : ZRun) (t0 : Nat) (u : Rat) : Rat :=
  match r.target with
  | .cell _ => (u - (t0 : Nat)) * (r.inc : Nat) / (2 ^ 32 : Nat)
  | .film _ => (u - (t0 : Nat)) / (2 * r.inc : Nat)
  | .bridge _ => (u - (t0 : Nat)) * (r.inc : Nat) / (512 * 2 ^ 32 : Nat)

/-- The instant of a phase. -/
def toneAt (r : ZRun) (t0 : Nat) (turns : Rat) : Rat :=
  (t0 : Rat) + (match r.target with
    | .cell _ => turns * (2 ^ 32 : Nat) / (r.inc : Nat)
    | .film _ => turns * (2 * r.inc : Nat)
    | .bridge _ => turns * (512 * 2 ^ 32 : Nat) / (r.inc : Nat))

/-- Sums of x cos θ and x sin θ over samples. -/
def demodXs (r : ZRun) (t0 : Nat) (xs : List (Nat × Rat)) : Rat × Rat :=
  xs.foldl (fun (a : Rat × Rat) x =>
    let th := toneTurns r t0 (x.1 : Nat)
    (a.1 + x.2 * cosT th, a.2 + x.2 * sinT th)) (0, 0)

/-- The fundamental of the tone as applied, over the window of phases 1 to `cycles`: each point held until the next; the sums
are the integrals of val · cos θ and val · sin θ over phase, times 2π (DEDUCED, log 22). -/
def demodPts (r : ZRun) (t0 : Nat) : List TonePt → Rat × Rat
  | [] => (0, 0)
  | p :: ps =>
    let stop : Rat := match ps with
      | q :: _ => toneTurns r t0 (q.tick : Nat)
      | [] => (r.cycles : Nat)
    let lo := max 1 (toneTurns r t0 (p.tick : Nat))
    let hi : Rat := min (r.cycles : Rat) stop
    let rest := demodPts r t0 ps
    if hi ≤ lo then rest
    else (rest.1 + p.val * (sinT hi - sinT lo), rest.2 + p.val * (cosT lo - cosT hi))

/-- A phase in 0.01°, wrapped into −17 999 to +18 000. -/
def wrapPhase (h : Int) : Int := (h + 17999) % 36000 - 17999

/-- Magnitude and phase (0.01°) of a finished window: Z = V/I of a cell or film, H of a bridge (13 R585, R593; log 23). A magnitude whose
divisor is 0 cannot be formed (00 R17); a phase of a vector of length 0 is not stated (log 88). -/
def zMagPhase (r : ZRun) (t0 : Nat) (xs : List (Nat × Rat)) : Option Rat × Int :=
  let x := demodXs r t0 xs
  let p := demodPts r t0 r.pts
  let n : Rat := (xs.length : Nat)
  -- amp_x = 2·|x|/n ; amp_r = 2·|p|/(2π·cycles)
  let w : Rat := (fxTau : Rat) / (fxOne : Rat) * ((r.cycles - 1 : Nat) : Rat)
  let x2 := (x.1 * x.1 + x.2 * x.2) / (n * n)
  let p2 := (p.1 * p.1 + p.2 * p.2) / (w * w)
  let phx := atan2T x.1 x.2
  let php := atan2T p.1 p.2
  let isCell : Bool := match r.target with
    | .cell _ => true
    | _ => false
  let num := if isCell then p2 else x2
  let den := if isCell then x2 else p2
  let d := if isCell then php - phx else phx - php
  let ph := if x2 = 0 ∨ p2 = 0 then Config.zPhase t0 else roundAway (d * 36000)
  (if den = 0 then none else some (sqrtQ (num / den)), wrapPhase ph)

/-- Realised frequency in hertz (13 R589). -/
def toneHz (r : ZRun) : Rat :=
  match r.target with
  | .cell _ => (r.inc : Nat) * 512000 / (2 ^ 32 : Nat)
  | .film _ => 256000 / (r.inc : Nat)
  | .bridge _ => (r.inc : Nat) * 1000 / (2 ^ 32 : Nat)

/-- Output period in force: P, or P_SCS. -/
def outPeriod (s : State) (c : Nat) : Nat := if pOn s (idFilt c 5) then chainPscs s c else chainP s c

/-- The tone is over: the running target ends once its channels have (13 R590, R599). -/
def zSettle (s : State) : State :=
  match s.z.run with
  | some r => if r.tEnd != 0 && decide (r.tEnd < s.t.up) then zCheckDone s else s
  | none => s

/-- A result lies inside the window of its check, bounds included; one that cannot be formed lies in none (13 R595). -/
def zPasses (s : State) (zc : ZChan) (z : Option Rat) (ph : Int) : Bool :=
  let c := zc.ch
  let w := zc.win.getD (param s (idZchk 4 c), param s (idZchk 5 c), param s (idZchk 6 c), param s (idZchk 7 c))
  (match z with
   | some z => decide (f32Val w.1 ≤ z) && decide (z ≤ f32Val w.2.1)
   | none => false) &&
  decide (w.2.2.1.toInt ≤ ph) && decide (ph ≤ w.2.2.2.toInt)

/-- The outcome of a channel's check, with its result: magnitude, and phase in degrees (13 R594–R596). -/
def zFinish (s : State) (r : ZRun) (t0 : Nat) (zc : ZChan) : State × Option (Option Rat × Rat) :=
  let c := zc.ch
  let slow := decide ((512000 : Rat) / (outPeriod s c : Nat) < 8 * toneHz r)
  let res := if zc.invalid || slow || decide (zc.xs.length < 16) then none else some (zMagPhase r t0 zc.xs)
  match res with
  | none => (zEndMark (zOutcome s r.task c 3) c, none)
  | some (z, ph) =>
    let pass := zPasses s zc z ph
    let s1 := { s with z.zNow := vset s.z.zNow c (f32OfOpt z), z.phNow := vset s.z.phNow c (BitVec.ofInt 32 ph),
                       z.tick := vset s.z.tick c (tick32 s) }
    let s2 := zOutcome s1 r.task c (if pass then 1 else 2)
    let s3 := if pass then s2 else tallyEvent { s2 with z.fails := vmod s2.z.fails c (· + 1) } 14
    (zEndMark s3 c, some (z, (ph : Rat) / 100))

/-- A sample of a channel under test: it joins the window by its centre, and the last of the window brings the result. -/
def zSample (s : State) (x : Sample) (q0 : Nat) : State × Option (Option Rat × Rat) :=
  match s.z.run with
  | none => (s, none)
  | some r =>
    match r.t0, r.chans.find? (fun z => z.ch == x.ch && !z.ended) with
    | some t0, some zc =>
      if x.tag < t0 then (s, none) else
        let centre := x.tag - chainG s x.ch
        let turns : Rat := toneTurns r t0 (centre : Nat)
        let inW := decide (t0 ≤ centre) && decide (1 ≤ turns) && decide (turns < (r.cycles : Nat))
        let v : Rat := if 8 ≤ x.ch ∧ x.ch < 12 then (x.value : Rat) / (2 ^ 23 : Nat) else sampleVal s x
        let zc1 := { zc with invalid := zc.invalid || q0 != 0, xs := if inW then zc.xs ++ [(centre, v)] else zc.xs }
        let s1 := { s with z.run := some { r with chans := r.chans.map (fun z => if z.ch = x.ch then zc1 else z) } }
        let after : Rat := toneTurns r t0 ((centre + outPeriod s x.ch : Nat) : Rat)
        if (r.cycles : Rat) ≤ after then zFinish s1 r t0 zc1 else (s1, none)
    | _, _ => (s, none)

end Sys2Proof.Machine
end

