-- ==== Sys2Proof/Machine/Samples.lean ====
section
/-! DEFINITION. SAMPLE_OUTPUT: one sample of a channel formed and processed in its output tick (12 R547, 01 R74), and the samples of
channels 18–23 (12 R574, 16 R702). -/

namespace Sys2Proof.Machine

/-! ### Channels 0–13 -/

/-- The stage-5 value of an output: clipped to the rail of a saturation run its span meets (09 R420). -/
def rawValue (s : State) (c tag rg : Nat) (a : Rat) : Int × Bool :=
  let lo := spanLo s c tag
  if spanHas s c .satHigh lo tag then (8388607, true)
  else if spanHas s c .satLow lo tag then (-8388608, true)
  else scaleCal s c rg a

/-- The primary sample of an output (12 R541, R571). -/
def primOf (s : State) (c : Nat) (o : ChainOut) (v : Int × Bool) (tone : Bool) : Sample :=
  { ch := c, tag := o.tag, span := chainS s c, value := v.1, qual := qualOf s c o.tag v.2 tone, range := rangeNow s c }

/-- The readings a sample updates: LAST, LAST_BLK, R_NOW, RATIO_NOW (12 R575, 10 R459, R461). -/
def noteSample (s : State) (x b : Sample) : State :=
  let s1 := modChain s x.ch (fun ch => { ch with last := wordOf x, lastBlk := wordOf b })
  let w := f32Of (sampleVal s x)
  if x.qual ≠ 0 ∨ x.ch < 8 then s1
  else if x.ch < 12 then modMox s1 (x.ch - 8) (fun m => { m with rNow := w })
  else modBrg s1 (x.ch - 12) (fun g => { g with ratioNow := w })

/-- A single conversion has emitted: a SNAP ends its part, a burst channel is done (12 R564, R565, 03 R148). -/
def convDone (s : State) (c : Nat) : State :=
  if (chainOf s c).conv.isNone then s
  else if inSnap s c then snapEnd s c true
  else { modChain s c (fun ch => { ch with conv := none }) with
         vigil := { s.vigil with waiting := s.vigil.waiting &&& ~~~(BitVec.ofNat 24 (2 ^ c)) } }

/-- The tone holds the ranger of a channel: it is under test, or its sample meets the tone of its test (13 R603). -/
def toneHolds (s : State) (c tag : Nat) : Bool := spanHas s c .tested (spanLo s c tag) tag || markIsOpen .tested (chainOf s c)

/-- One output of a chain, through every step of its output tick. -/
def sampleMain (s : State) (c : Nat) (o : ChainOut) : State :=
  let rg := rangeNow s c
  let v5 := rawValue s c o.tag rg o.val
  let v6 := leadSub s c rg v5
  let lo := spanLo s c o.tag
  let tone := spanHas s c .tone lo o.tag
  let x := primOf s c o v6 true
  let q0 := (primOf s c o v6 false).qual
  let held := c < 12 && rangerBlocked s c o.tag
  let d := dcBlock (pNat s (idFilt c 8)) (chainOf s c) x
  let s1 := modChain s c (fun _ => { d.1 with settle := settleStep d.1.settle (scsMode s c) lo o.tag })
  let z := zSample (noteSample s1 x d.2) x q0
  let s2 := passSample z.1 { prim := x, blk := some d.2, tone := tone } z.2
  let s3 := if x.qual = 0 ∧ 8 ≤ c ∧ c < 12 then leadTake s2 (c - 8) (convert s c rg v5.1) else s2
  let s4 := zSettle s3
  let s5 := if c < 12 ∧ (chainOf s4 c).started then rangerStep s4 c v5.1 x.qual held (toneHolds s4 c o.tag) else s4
  convDone s5 c

/-- The oldest output of a chain whose output tick has come; one tagged before a CHSTOP is a sample of the run it ended (12 R558). -/
def chainOutput (s : State) (c : Nat) : State :=
  match (chainOf s c).outs with
  | [] => s
  | o :: rest =>
    if s.t.up < o.tag + 3 then s
    else
      let s1 := modChain s c (fun ch => { ch with outs := rest })
      match (chainOf s1 c).past with
      | some p => if o.tag < p.cut then inPast s1 c p (fun s => sampleMain s c o) else sampleMain s1 c o
      | none => sampleMain s1 c o

/-! ### Channels 18–23 -/

/-- A converted monitor value outside its limits counts one event (16 R702). -/
def monitorLimits (s : State) (c : Nat) (v : Rat) : State :=
  let out : Bool := match c with
    | 18 => decide (pVal s (idTally 0xC1) < v)
    | 19 => decide (pVal s (idTally 0xC2) < v)
    | _ =>
      let b := 0xC3 + 2 * (c - 20)
      decide (v < pVal s (idTally b)) || decide (pVal s (idTally (b + 1)) < v)
  if out then tallyEvent s (c - 1) else s

/-- A mark of every channel at once in the 448 ticks of a conversion. -/
def hkHas (s : State) (k : MarkKind) (tag : Nat) : Bool :=
  s.gmarks.any (fun m => m.kind == k && m.meets ((tag : Int) - 447) tag)

/-- The sample of a monitor conversion. -/
def hkSample (s : State) (o : HkOut) : Sample :=
  let v := clip24 (roundAway ((o.sum : Rat) * (2 ^ 23 : Nat) / (12 * 448)))
  let q := if hkHas s .voidSeam o.tag then 7 else if v.2 then 2 else if hkHas s .orphan o.tag then 3
    else if hkHas s .held o.tag then 6 else 0
  { ch := o.ch, tag := o.tag, span := 448, value := v.1, qual := q, range := 0 }

/-- What the caps and the HOUSE page keep of it (17 R739, 10 R465, 20 R895). -/
def hkNote (s : State) (x : Sample) : State :=
  let i := x.ch - 18
  let h := s.hk
  let fit := x.qual == 0 || x.qual == 3 || x.qual == 6
  { s with hk := { h with newest := if fit then vset h.newest i (some (x.value, x.qual)) else h.newest,
                          goodV := if x.qual = 0 then vset h.goodV i (some x.value) else h.goodV,
                          now := if x.qual = 7 then h.now else vset h.now i (f32Of (sampleVal s x)) } }

/-- One monitor conversion through every step of its output tick. -/
def hkOutput (s : State) (c : Nat) : State :=
  match s.hk.out with
  | none => s
  | some o =>
    if o.ch ≠ c ∨ s.t.up < o.tag + 3 then s else
      let x := hkSample s o
      let s1 := { s with hk.out := none, vigil.waiting := s.vigil.waiting &&& ~~~(BitVec.ofNat 24 (2 ^ c)) }
      let s2 := passSample (hkNote s1 x) { prim := x, blk := none, tone := false } none
      if x.qual = 7 then s2 else monitorLimits s2 c (sampleVal s x)

/-- SAMPLE_OUTPUT (01 R74). Channels 14–17 form and process theirs in HEATER_MEASUREMENT (11 R492; log 24). -/
def execSampleOutput (c : Fin 24) (s : State) : Host.Outcome State Fault Refusal :=
  .next (if c.val < 14 then chainOutput s c.val else if c.val < 18 then s else hkOutput s c.val)

end Sys2Proof.Machine
end

