-- ==== Sys2Proof/Machine/Seam.lean ====
section
/-! DEFINITION. The up frame: what the field die sends (01 R44–R51) and what the core die takes from it (01 R59, R61–R66, R69, R939,
09 R418–R427, 10 R470–R474, 11 R514, R518, 18 R776). -/

namespace Sys2Proof.Machine

/-! ### The field die's frame -/

/-- Modulators 0–11 held reset in tick `d`. -/
def heldAt : List (Nat × BitVec 12) → Nat → BitVec 12
  | [], _ => 0
  | (r, m) :: l, d => if r ≤ d then m else heldAt l d

/-- Byte `j` (1–8) of a 64-bit per-pin report. -/
def pinByte (pins : BitVec 64) (j : Nat) : Nat := pins.toNat / 2 ^ (8 * (8 - j)) % 256

/-- Code of modulator `m` in a frame of codes. -/
def codeOf (codes : BitVec 92) (m : Nat) : Nat := codes.toNat / 2 ^ (88 - 4 * m) % 16

/-- The codes decided in tick `d` of phase `pd`: a held modulator decides 7 in even phases and 8 in odd (09 R407). -/
def sentCodes (s : State) (u : UpIn) (d pd : Nat) : BitVec 92 :=
  let h := heldAt s.fd.held d
  BitVec.ofNat 92 ((List.range 23).foldl (fun acc m =>
    acc * 16 + (if m < 12 && h.getLsbD m then 7 + pd % 2 else codeOf u.codes m)) 0)

/-- FLAGS of a tick from its clamped pins and limits (01 R49). -/
def flagsOf (u : UpIn) : BitVec 8 :=
  let b (j m : Nat) : Bool := Nat.land (pinByte u.pins j) m != 0
  BitVec.ofNat 8 (packFlags [u.ilim != 0, b 8 0x0C, b 7 0xCC || b 8 0xC0, b 7 0x33 || b 8 0x30, b 5 0xFF || b 6 0xFF, b 4 0xFF,
    b 1 0xF0 || b 2 0xF0 || b 3 0xCC, b 1 0x0F || b 2 0x0F || b 3 0x33])

/-- A field-die register as read (01 R58). -/
def fieldReg (s : State) (a : Nat) : BitVec 16 :=
  if a = 0xF0 then s.fd.frev.setWidth 16
  else if a = 0xF1 then (if s.fd.frst then 1 else 0)
  else vget s.fd.regs a 0

/-- A down frame of the 16 ticks ending with the previous one was rejected (01 R50). -/
def sderrNow (s : State) : Bool :=
  match s.fd.badAt with
  | some u => decide (s.t.up ≤ u + 16)
  | none => false

/-- What the field die's own state gives of rotation byte `j` in the present tick (01 R50); the pins of j = 1–8, the limits and the
thermal warning join it from the frame's input. -/
def statOwn (s : State) (j : Nat) : Nat :=
  let f := s.fd
  let r (a i : Nat) : Bool := (vget f.regs a 0).getLsbD i
  match j with
  | 0 => f.hkIndex * 32 + packFlags [sderrNow s, false, f.vdrv, f.vhtr, f.vdda]
  | 9 => f.rdAddr.toNat
  | 10 => f.rdData.toNat / 256
  | 11 => f.rdData.toNat % 256
  | 12 => if f.vhtr then f.htrOn.toNat else 0
  | 13 => (if f.vhtr then f.excOn.toNat * 16 else 0) + b2n (r 0x16 0) * 8 + b2n f.frst * 4
  | 14 => packFlags [r 8 0, r 9 0, r 10 0, r 11 0, !r 8 1, !r 9 1, !r 10 1, !r 11 1]
  | 15 => f.frev.toNat
  | _ => 0

/-- Rotation byte `j` as sent: the field die's own part with what the frame's input brings. -/
def statByte (s : State) (u : UpIn) (x : UpTx) : Nat :=
  match x.p % 16 with
  | 0 => x.stat + 2 * b2n u.warn
  | 12 => x.stat + u.ilim.toNat % 16 * 16
  | 13 => x.stat + u.ilim.toNat / 16 * 64
  | j => if j ≤ 8 then pinByte s.fd.clamps j else x.stat

/-- A read requested in tick t is answered in the bytes that travel from tick t + 2 on (01 R51). -/
def fieldAnswer (s : State) : State :=
  match s.fd.rdReq with
  | none => s
  | some (a, t) =>
    if s.t.up < t + 2 then s
    else { s with fd.rdReq := none, fd.rdAddr := a, fd.rdData := fieldReg s a.toNat, fd.rdAt := t + 1 }

/-- Frames travel: always, but in VIGIL only in a burst or while something must reach the field die (03 R150);
a paired unit's go on between bursts too, as its exchanges do (19 R859; DEDUCED, log 111). -/
def seamRuns (s : State) : Bool :=
  s.u.st != .vigil || s.twin.mode != 0 || s.vigil.burst.isSome || !s.seam.regQ.isEmpty || !s.seam.reads.isEmpty ||
  s.seam.biasPend.toList.any Option.isSome || s.fd.aout != s.seam.aout

/-- The end of a tick: the up frame that has travelled in it, with what the field die's state gave (01 R45, R50, R77, R939). -/
def fieldSends (s : State) : State :=
  let s1 := if s.t.p % 16 = 9 then fieldAnswer s else s
  let x : UpTx := { p := s.t.p, stat := statOwn s1 (s.t.p % 16), good := s.fd.vdda, cut := s.seam.cut }
  { s1 with fd.tx := if seamRuns s then some x else none }

/-- Pins reported in a good frame of rotation `j` are cleared; with a failed frame they stay latched (01 R50, R62). -/
def fieldSent (s : State) (j : Nat) : State :=
  if 1 ≤ j ∧ j ≤ 8 then
    { s with fd.clamps := BitVec.ofNat 64 (s.fd.clamps.toNat - pinByte s.fd.clamps j * 2 ^ (8 * (8 - j))) }
  else s

/-- The 15 bytes before the CRC. -/
def upHead (codes : BitVec 92) (flags stat : Nat) : List Byte :=
  beBytes 15 (codes.toNat * 2 ^ 28 + flags * 2 ^ 20 + stat * 2 ^ 12)

/-- The frame as received: its 128 bits with the errors of the lanes. -/
def upFrame (codes : BitVec 92) (flags stat : Nat) (err : BitVec 128) : BitVec 128 :=
  let h := upHead codes flags stat
  BitVec.ofNat 128 (beNat h * 256 + crc8 h) ^^^ err

/-- The CRC of a received frame holds (01 R60). -/
def upGood (f : BitVec 128) : Bool := crc8 (beBytes 15 (f.toNat / 256)) == f.toNat % 256

/-! ### Codes (01 R61–R64, R45) -/

/-- A register access to an address waits, or is being read back. -/
def regBusy (s : State) (a : Nat) : Bool :=
  s.seam.regQ.any (fun x => x.addr.toNat == a) || s.seam.reads.any (fun r => r.2.addr.toNat == a)

/-- Settling after a change of range still counts; a single conversion begun after the release has none (12 R561, R564). -/
def rangeSettling (s : State) (n : Nat) : Bool :=
  let ch := chainOf s n
  ch.settle.any (fun e => some e.ref == (frontOf s n).relAt && (match ch.conv with
    | some t => decide (t < e.ref)
    | none => true))

/-- A saturation episode starts on an AMP or MOX channel with the code of tick `d` (09 R418, R419, 10 R457). -/
def satStart (s : State) (n d : Nat) : State :=
  let f := frontOf s n
  let s1 := modFront s n (fun f => { f with sat := some (d - 15), satCount := f.satCount + 1 })
  let s2 := modChain s1 n (markOpen (if f.runHigh then .satHigh else .satLow) (d - 15))
  let s3 := zSpoilChan (neighbourOpen s2 n (d - 15)) n
  let keep : RangeReq := match f.req with
    | some q => { q with reset := true, start := false }
    | none => { range := f.range, origin := orgUnit, auto := false, reset := true, start := false }
  let asIs (s : State) : State := rangeAsk s n keep.range keep.origin keep.auto true
  if !(chainOf s n).started || !rangerOn s n || f.suspended || rangeMoving s n || rangeSettling s n then asIs s3
  else
    let s4 := modFront s3 n (fun f => { f with quiet := 0 })
    match upStep s n with
    | (some r, _) => if s.u.st = .vigil then asIs (vigilStep s4 n r) else rangeAsk s4 n r orgUnit true true
    | (none, wish) => asIs (if wish then boundStart s4 n else s4)

/-- The run of rail codes of an AMP or MOX channel started or in a SNAP: codes that are discarded or gated break it, and so does a disabled
cell (09 R418, R439, 10 R457, 03 R148, R150). -/
def satCode (s : State) (n d code : Nat) : State :=
  if !filtRunning s n || !(frontOf s n).on then s
  else if !takesCode s n d || (n < 8 && !cellOpen s (n / 2)) then modFront s n (fun f => { f with run := 0 })
  else
    let rail := code == 15 || code == 0
    let f := frontOf s n
    let run := if !rail then 0 else if f.run != 0 && f.runHigh == (code == 15) then f.run + 1 else 1
    let s1 := modFront s n (fun f => { f with run := run, runHigh := code == 15 })
    if run = 16 ∧ f.sat.isNone then satStart s1 n d else s1

/-- The run of a bridge: its episode ends with the first code off the rail, and settles from there (10 R471). -/
def satBridge (s : State) (b d code : Nat) : State :=
  if !(brgOf s b).running then s else
    let g := brgOf s b
    let rail := code == 15 || code == 0
    let run := if !rail then 0 else if g.run != 0 && g.runHigh == (code == 15) then g.run + 1 else 1
    let ends := g.sat.isSome && (!rail || g.runHigh != (code == 15))
    let s1 := modBrg s b (fun g => { g with run := run, runHigh := code == 15 })
    let s2 := if ends then
        let s3 := modChain s1 (12 + b) (fun c => markClose .satHigh (d - 1) (markClose .satLow (d - 1) c))
        settleFrom (modBrg s3 b (fun g => { g with sat := none })) (12 + b) d
      else s1
    if run = 16 ∧ (brgOf s2 b).sat.isNone then
      modChain (modBrg s2 b (fun g => { g with sat := some (d - 15), satCount := g.satCount + 1 })) (12 + b)
        (markOpen (if code = 15 then .satHigh else .satLow) (d - 15))
    else s2

/-- The heater sums of one tick; the last of a superframe closes them (11 R489). -/
def heaterCodes (s : State) (codes : BitVec 92) (pd : Nat) (void held : Bool) (n : Nat) : State :=
  let x (m : Nat) : Int := 2 * (codeOf codes m : Int) - 15
  let add (h : Heater) : Heater := { h with sumV := h.sumV + x (14 + 2 * n), sumI := h.sumI + x (15 + 2 * n),
                                            void := h.void || void, held := h.held || held }
  let roll (h : Heater) : Heater :=
    { h with doneV := h.sumV, doneI := h.sumI, doneVoid := h.void, doneHeld := h.held, doneClamp := h.clamp, doneOld := h.old, old := false,
             doneOff := h.drvOff, doneLim := h.limit, doneSeen := h.seen, sumV := 0, sumI := 0, void := false,
             held := false, clamp := false, drvOff := false, limit := false, limRep := false, seen := false }
  modHtr s n (fun h => if pd = 511 then roll (add h) else add h)

/-- One Seam event, once the Seam is up (01 R68). -/
def seamEvent (s : State) (i : Nat) : State := if s.seam.up then tallyEvent s i else s

/-- The core die expects monitor codes: stepping, or a burst still waiting for its monitor (01 R69, 03 R148). -/
def hkConverting (s : State) : Bool :=
  s.u.st != .vigil || (s.vigil.burst.isSome && s.vigil.waiting.getLsbD (18 + s.hk.monitor))

/-- The end of a dwell or of a burst's conversion: its sample, or its discard with one event (01 R69, 12 R574). -/
def hkRoll (s : State) (d : Nat) : State :=
  let h := s.hk
  let o : HkOut := { ch := 18 + h.monitor, tag := d, sum := h.sum }
  let next := if s.u.st = .vigil then h.monitor else (h.monitor + 1) % 6
  let s1 := { s with hk := { h with monitor := next, taken := 0, sum := 0, bad := false } }
  if h.bad then
    let s2 := { s1 with seam.hkDiscard := s.seam.hkDiscard + 1,
                        vigil.waiting := s.vigil.waiting &&& ~~~(BitVec.ofNat 24 (2 ^ (18 + h.monitor))) }
    seamEvent s2 0
  else if h.taken = 448 then { s1 with hk.out := some o } else s1

/-- The housekeeping code of phase `pd`: the first 64 ticks of a dwell are discarded. -/
def hkCode (s : State) (codes : BitVec 92) (pd d : Nat) : State :=
  if !hkConverting s || decide (d < s.hk.from_) then s else
    let h := s.hk
    let s1 := if pd < 64 then (if pd = 0 then { s with hk := { h with taken := 0, sum := 0 } } else s)
      else { s with hk := { h with taken := h.taken + 1, sum := h.sum + (2 * (codeOf codes 22 : Int) - 15) } }
    if pd = 511 then hkRoll s1 d else s1

/-- The codes of decision tick `d` into every chain and sum. -/
def takeCodes (s : State) (codes : BitVec 92) (d pd : Nat) (void held : Bool) : State :=
  let s1 := forEach s (List.range 14) (fun s c => chainCode s c d (codeOf codes c))
  let s2 := forEach s1 (List.range 12) (fun s n => satCode s n d (codeOf codes n))
  let s3 := forEach s2 [0, 1] (fun s b => satBridge s b d (codeOf codes (12 + b)))
  let s4 := forEach s3 (List.range 4) (heaterCodes · codes pd void held ·)
  hkCode s4 codes pd d

/-! ### Clamps (09 R423–R427, 10 R472–R474) -/

/-- Bits of byte `j` that belong to a channel; 14 + n is heater n. -/
def chanBits (c j : Nat) : Nat :=
  if c < 8 then
    (match j with
     | 1 => 2 ^ c
     | 2 => 2 ^ c
     | 3 => 17 * 2 ^ (c / 2)
     | _ => 0)
  else if c < 12 then (if j = 4 then 17 * 2 ^ (c - 8) else 0)
  else if c < 14 then (if j = 7 then 51 * 4 ^ (c - 12) else if j = 8 then 48 * 4 ^ (c - 12) else 0)
  else if j = 5 ∨ j = 6 then 17 * 2 ^ (c - 14) else 0

/-- Ticks of the newest 16 at which a channel's group flag was set, oldest first. -/
def flagged (s : State) (c : Nat) : List Nat :=
  ((List.range 16).filter (fun i => i ≤ s.seam.flagAt && (s.seam.flagHist.getD i 0).getLsbD (groupBit c))).reverse.map
    (s.seam.flagAt - ·)

/-- The ticks a reported pin clamped in: those flagged, or, where no good frame carried the flag, those whose frames failed (01 R79). -/
def clampTicks (s : State) (c : Nat) : List Nat :=
  match flagged s c with
  | [] => s.seam.failTicks.reverse
  | l => l

/-- Mark one tick, joined to the mark just before it. -/
def markTick (k : MarkKind) (u now : Nat) (c : Chain) : Chain :=
  match c.marks with
  | m :: ms =>
    if m.kind == k && (match m.last with
        | some l => decide (m.first ≤ u) && decide (u ≤ l + 1)
        | none => false) then { c with marks := { m with last := some (max u (m.last.getD u)) } :: ms }
    else { c with marks := { kind := k, first := u, last := some u } :: prune now c.marks }
  | [] => { c with marks := [{ kind := k, first := u, last := some u }] }

/-- The pin-clamp episode with tick `u`, and whether it starts with it. -/
def pinStep (p : Option (Nat × Nat)) (u : Nat) : Option (Nat × Nat) × Bool :=
  match p with
  | some (f, l) => if u ≤ l + 1 then (some (f, max u l), false) else (some (u, u), true)
  | none => (some (u, u), true)

/-- A clamped tick of a channel joins its pin-clamp episode, or starts one; the episode is counted with the first per-pin byte that
attributes it (09 R426). One that tags no sample marks neither its channel nor the neighbours. -/
def pinTick (s : State) (c : Nat) (count tags : Bool) (u : Nat) : State :=
  let s1 := if tags then modChain s c (markTick .pinClamp u s.t.up) else s
  if c < 12 then
    let r := pinStep (frontOf s1 c).pin u
    let done := !r.2 && (frontOf s1 c).pinCounted
    let s2 := modFront s1 c (fun f => { f with pin := r.1, pinCounted := done || count, clamps := f.clamps + b2n (count && !done) })
    if tags then neighbourOpen s2 c u else s2
  else
    let r := pinStep (brgOf s1 (c - 12)).pin u
    let done := !r.2 && (brgOf s1 (c - 12)).pinCounted
    modBrg s1 (c - 12) (fun g => { g with pin := r.1, pinCounted := done || count, clamps := g.clamps + b2n (count && !done) })

/-- A clamp on REk or CEk of a cell that is disabled at the clamped tick `u` tags no sample (09 R432, R443). -/
def pinTags (s : State) (c j u : Nat) : Bool :=
  j != 3 || decide (8 ≤ c) || !(chainOf s c).marks.any (fun m => m.kind == .voidCell && m.meets (u : Int) u)

/-- A per-pin byte, good or lost (01 R61, 09 R424): the channels it clamps, in the ticks whose group flag was set. Heaters take
it into the measurement of the present superframe (11 R492). -/
def pinReport (s : State) (j byte : Nat) (lost : Bool) : State :=
  let hit (c : Nat) : Bool := Nat.land (if lost then 255 else byte) (chanBits c j) != 0
  let ticks (s : State) (c : Nat) : List Nat := if lost then flagged s c else clampTicks s c
  let s1 := forEach s ((List.range 14).filter hit)
    (fun s c => (ticks s c).foldl (fun s u => pinTick s c (!lost) (pinTags s c j u) u) s)
  forEach s1 ((List.range 4).filter (fun n => hit (14 + n))) (fun s n =>
    if (ticks s 14).any (fun u => decide (s.t.up - s.t.p ≤ u)) then modHtr s n (fun h => { h with clamp := true }) else s)

/-- Episodes whose last clamped tick lies before the ticks now covered are over (09 R426, R429). -/
def pinClose (s : State) (c upto : Nat) : State :=
  if c < 12 then
    match (frontOf s c).pin with
    | some (_, l) =>
      if l < upto then neighbourClose (modFront s c (fun f => { f with pin := none, pinCounted := false })) c (l + 1) else s
    | none => s
  else
    match (brgOf s (c - 12)).pin with
    | some (_, l) => if l < upto then modBrg s (c - 12) (fun g => { g with pin := none, pinCounted := false }) else s
    | none => s

/-- The first good frame of the superframe carrying a clamp flag counts one event of its group (09 R427, 10 R474). -/
def clampTally (s : State) (flags : BitVec 8) : State :=
  forEach s (List.range 5) (fun s i =>
    let b := [7, 6, 5, 3, 2].getD i 0
    if flags.getLsbD b && !s.counted.getLsbD i then tallyEvent { s with counted := putBit s.counted i true } (6 + i) else s)

/-! ### Rotation bytes (01 R50, R59, R62, R66) -/

/-- Cells the field die is found to have lost are disabled and shorted at 0 V, their waveforms ended, and front ends are off
(01 R939, 18 R811). Of the Seam registers only FSTAT is written again: HKCTL's stepping and the phase fractions are not sent again
(DESIGN CHOICE, log 104); accesses to 0x00–0x0F still queued are dropped, read-backs under way go on (DESIGN CHOICE, log 105). -/
def frontsLost (s : State) : State :=
  let s1 := forEach s (List.range 4) (fun s k =>
    let s2 := playEnd (if cellOn s k then logE s orgUnit 0x0050 k 1 0 else s) (k + 1) orgUnit true
    modCell (taskEnd s2 (cellOf s2 k).task 0 0 []) k (fun _ => Cell0))
  let s3 := forEach s1 (List.range 12) (fun s n =>
    let s4 := boundEnd (satEnd s n s.t.up) n
    let s5 := modFront s4 n (fun f => { f with on := false, closed := false, req := none, later := none, vstep := none,
                                               holdAt := none, relSent := false, freeAt := none, run := 0 })
    modChain s5 n (fun c => markOpen .voidCell s.t.up (markClose .hold (s.t.up - 1) { c with ref := some (c.ref.getD s.t.up) })))
  let w := (List.range 16).foldl (fun v a => vset v a (0 : BitVec 16)) s3.seam.want
  { s3 with seam := { s3.seam with want := w, regQ := s3.seam.regQ.filter (fun a => decide (16 ≤ a.addr.toNat)),
                                   bias := Vector.replicate 4 8192, biasPend := Vector.replicate 4 none } }

/-- A j = 13 report with FRST set, after the FSTAT write has been read back: one event of its source, which becomes LASTING at once (01 R939,
16 R700). -/
def frstReport (s : State) : State :=
  if !s.seam.fstatDone then s else
    let s1 := frontsLost (enterSafe (tallyNow (seamEvent s 2) 2) 0x0004 orgUnit)
    regWrite { s1 with seam := { s1.seam with fstatDone := false } } 0xF1 0

/-- A byte j = 0 of the frame that travelled in the tick before this one tells of the monitor named by HKCTL as last written: no write
of it is still to be sent, and the last was sent before that tick (01 R69, 03 R148). -/
def hkTold (s : State) : Bool :=
  !s.seam.regQ.any (fun a => !a.read && a.tries == 0 && a.addr == 0x17) && decide (s.seam.hkSent + 1 < s.t.up)

/-- Byte j = 0. From the fourth SDERR in a row on, each makes the source LASTING at once, also after a TALLYCLEAR (01 R66, 16 R697,
R727; DEDUCED, log 112). -/
def stat0 (s : State) (b : Nat) : State :=
  let s1 := { s with seam := { s.seam with vdda := bit b 4, vhtr := bit b 3, vdrv := bit b 2, warn := bit b 1 } }
  let s2 := if hkConverting s1 && hkTold s1 && b / 32 != s1.hk.monitor && s1.hk.taken < hkPartial then
      { s1 with hk.bad := true } else s1
  if bit b 0 then
    let s3 := seamEvent { s2 with seam := { s2.seam with sderrs := s2.seam.sderrs + 1, sderrRun := s2.seam.sderrRun + 1 } } 1
    if 4 ≤ s3.seam.sderrRun ∧ s3.seam.up then tallyNow s3 1 else s3
  else { s2 with seam.sderrRun := 0 }

/-- A third mismatch on a register of a cell stops its enable sequence (03 R144). -/
def cellStuck (s : State) (a : Nat) : State :=
  let k := if a < 8 then a / 2 else a - 8
  if 12 ≤ a then s else
    match (cellOf s k).step with
    | .opening _ => modCell s k (fun c => { c with stuck := true })
    | _ => s

/-- A write made again goes first, behind a read-back that has to follow its own write. -/
def rewrite (acc : RegAcc) : List RegAcc → List RegAcc
  | [] => [acc]
  | x :: xs => if x.read then x :: acc :: xs else acc :: x :: xs

/-- The Seam comes up with the answer to the FREV read: FREV is checked, HKCTL starts the stepping and FSTAT clears FRST; the first
whole dwell is the one that begins after the write has applied (01 R68, R69, 03 R152). -/
def seamUpNow (s : State) (frev : Byte) : State :=
  let wait := if s.t.p ≤ 504 then 512 - s.t.p else 1024 - s.t.p
  let s1 := { s with seam := { s.seam with up := true, goodRun := 0, asking := false, failRun := 0, frev := frev },
                     hk := { s.hk with monitor := (s.fd.hkIndex + 1) % 6, from_ := s.t.up + wait, taken := hkPartial, sum := 0,
                                       bad := false } }
  let s2 := regWrite (regWrite s1 0x17 1) 0xF1 0
  if frev = s.fac.wantFrev then s2
  else enterSafe { s2 with u.bootFault := s2.u.bootFault ||| 0x0008 } 0x0008 orgUnit

/-- The answer of the oldest FIELDREAD of an address: it fills the reply that holds its place, a repeat's copy of it, and the client's record
(20 R898, 06 R281, R305). -/
def fieldAnswered (s : State) (addr : Byte) (data : BitVec 16) : State :=
  match s.seam.fieldRead.find? (fun x => x.1 == addr) with
  | none => s
  | some x =>
    let ans := answer stDone (addr :: beBytes 2 data.toNat)
    let fill (r : Reply) : Reply := if r.wait = some 0 ∧ r.src = x.2.1 ∧ r.seq = x.2.2 then
        { r with wait := none, ans := if r.ans.status.toNat = stSeqDup then dupAnswer ans else ans } else r
    let note (d : Nat × Dup) : Nat × Dup := if d.2.wait = some 0 ∧ d.1 = x.2.1.toNat ∧ d.2.seq = x.2.2 then
        (d.1, { d.2 with ans := ans, wait := none }) else d
    { s with seam.fieldRead := s.seam.fieldRead.erase x, cmd.replies := s.cmd.replies.map fill, cmd.dups := s.cmd.dups.map note }

/-- The answer of a read-back (01 R59): the value written, or that of a later write to the address, is a match and ends the access; a
mismatch repeats the write with the latest value sent, up to three in all. A read with no write behind it is FIELDREAD's, or, before
the Seam is up, that of FREV. -/
def readBack (s : State) (acc : RegAcc) (data : BitVec 16) : State :=
  let a := acc.addr.toNat
  if acc.tries = 0 then (if s.seam.up then fieldAnswered s acc.addr data else if s.seam.asking then seamUpNow s (data.setWidth 8) else s)
  else if (if a = 0xF1 then data == 0 else data == acc.data || acc.alts.contains data) then
    (if a = 0xF1 then { s with seam.fstatDone := true } else s)
  else
    let s2 := seamEvent { s with seam.mismatch := s.seam.mismatch + 1 } 2
    let again : RegAcc := { acc with read := false, data := vget s.seam.sent a 0, at_ := s.t.up, alts := [] }
    if acc.tries < 3 then { s2 with seam.regQ := rewrite again s2.seam.regQ }
    else tallyNow (cellStuck s2 a) 2

/-- The bytes of an answer have gone by: the read answered ends, and those that a later read replaced, or whose answer was lost, are
requested again after the accesses pending (01 R51, R59, R62). -/
def readSlot (s : State) (got : Option (BitVec 16)) : State :=
  let past := s.seam.reads.filter (fun r => decide (r.1 + 5 ≤ s.t.up))
  let mine (r : Nat × RegAcc) : Bool := got.isSome && r.1 + 1 == s.fd.rdAt
  let again := (past.filter (fun r => !mine r)).reverse.map (fun r => { r.2 with read := true, at_ := s.t.up })
  let s1 := { s with seam := { s.seam with reads := s.seam.reads.filter (fun r => decide (s.t.up < r.1 + 5)),
                                           regQ := s.seam.regQ ++ again } }
  match past.find? mine, got with
  | some r, some d => readBack s1 r.2 d
  | _, _ => s1

/-- Bytes j = 9–11 received. -/
def statRead (s : State) (j b : Nat) : State :=
  if j = 9 then { s with seam.rbAddr := some (byteOf b), seam.rbHi := none }
  else if j = 10 then { s with seam.rbHi := some (byteOf b) }
  else
    let s1 := { s with seam.rbAddr := none, seam.rbHi := none }
    match s.seam.rbAddr, s.seam.rbHi with
    | some _, some h => readSlot s1 (some (BitVec.ofNat 16 (h.toNat * 256 + b)))
    | _, _ => readSlot s1 none

/-- A lost byte of a read-back (01 R62). -/
def readLost (s : State) (j : Nat) : State :=
  let s1 := { s with seam.rbAddr := none, seam.rbHi := none }
  if j = 11 then readSlot s1 none else s1

/-- The present superframe of a film is tagged as at a fault (11 R512, R514, R518). -/
def filmFaultSf (s : State) (n : Nat) : State :=
  modChain s (8 + n) (fun c => markTick .filmFault (s.t.up - s.t.p + 511) s.t.up
    { c with marks := { kind := .filmFault, first := s.t.up - s.t.p, last := some (s.t.up - s.t.p + 511) } :: c.marks })

/-- A heater seen at its limit, by a report, which is counted once a superframe, or through the group flag of a lost one (01 R62, 11 R514). -/
def heaterLimit (s : State) (n : Nat) (report : Bool) : State :=
  let h := htrOf s n
  if !htrRunning s n then s
  else
    let s1 := if report && !h.limRep then modHtr s n (fun h => { h with limRep := true, ilim := h.ilim + 1 }) else s
    if h.limit then s1 else filmFaultSf (modHtr s1 n (fun h => { h with limit := true, limitNow := true })) n

/-- Byte j = 12 for heater `n` (11 R491, R514, R518). -/
def statHeater (s : State) (b n : Nat) : State :=
  let on := bit b n
  let s1 := if on || htrRunning s n then modHtr s n (fun h => { h with seen := true }) else s
  let s2 := if bit b (4 + n) then heaterLimit s1 n true else s1
  if on || !htrRunning s2 n then (if on then s2 else modHtr s2 n (fun h => { h with drvOff := true }))
  else if !(regWant s2 (0x10 + n)).getLsbD 0 || regBusy s2 (0x10 + n) then modHtr s2 n (fun h => { h with drvOff := true })
  else
    let s3 := if (htrOf s2 n).drvOff then s2 else filmFaultSf s2 n
    let s4 := modHtr s3 n (fun h => { h with drvOff := true })
    if s4.seam.sderrRun != 0 || !s4.seam.vhtr then s4 else regWrite s4 (0x10 + n) (regWant s4 (0x10 + n))

def stat12 (s : State) (b : Nat) : State :=
  let s1 := { s with seam := { s.seam with htrOn := BitVec.ofNat 4 b, htrLim := BitVec.ofNat 4 (b / 16) } }
  forEach s1 (List.range 4) (statHeater · b ·)

/-- The 16 ticks a rotation byte covers carry a mark on a channel. -/
def coverMark (s : State) (c : Nat) (k : MarkKind) : State :=
  modChain s c (markAdd k (s.t.up - 17) (s.t.up - 2))

/-- A bridge at its current limit: DEGRADED ticks of a running one, and one event a superframe for a report (10 R468, R474). -/
def bridgeLimit (s : State) (b : Nat) (report : Bool) : State :=
  let s1 := if (brgOf s b).running then coverMark (modBrg s b (fun g => { g with limitNow := true })) (12 + b) .bridgeLimit else s
  if report && !s.counted.getLsbD (5 + b) then tallyEvent { s1 with counted := putBit s1.counted (5 + b) true } 11 else s1

/-- The ticks of a report of excitation off are VOID, and the superframe after is DEGRADED (10 R468). -/
def bridgeOffTicks (s : State) (b : Nat) : State :=
  let e := s.t.up - s.t.p + 512
  modChain (coverMark s (12 + b) .voidBridge) (12 + b) (markAdd .bridgeAfter e (e + 511))

/-- Excitation of bridge `b` reported off: VOID ticks, DEGRADED in the superframe after, and the register rewritten where it was
expected on (10 R468, R470). -/
def bridgeSeenOff (s : State) (b : Nat) : State :=
  let s2 := bridgeOffTicks s b
  if (regWant s2 (0x14 + b)).getLsbD 0 && !regBusy s2 (0x14 + b) && s2.seam.vhtr && s2.seam.sderrRun == 0 then
    regWrite s2 (0x14 + b) (regWant s2 (0x14 + b))
  else s2

/-- AOUT reported disabled while enabled: nothing is written, and no later write of AOUTCTL enables it (18 R776, R777). -/
def aoutLost (s : State) : State :=
  let s1 := aoutOff s orgUnit false
  { s1 with aout := { s1.aout with byField := true }, seam.want := vset s1.seam.want 0x16 (regField (regWant s1 0x16) 0 0 0) }

/-- Byte j = 13. -/
def stat13 (s : State) (b : Nat) : State :=
  let s1 := { s with seam := { s.seam with excOn := BitVec.ofNat 2 (b / 16), brgLim := BitVec.ofNat 2 (b / 64), aoutOn := bit b 3,
                                           frst := bit b 2 } }
  let s2 := forEach s1 [0, 1] (fun s i =>
    let s3 := modBrg s i (fun g => { g with off := !bit b (4 + i), limitNow := bit b (6 + i) })
    let s4 := if bit b (6 + i) then bridgeLimit s3 i true else s3
    if !bit b (4 + i) && (brgOf s4 i).running then bridgeSeenOff s4 i else s4)
  let s5 := if !bit b 3 && s2.aout.enabled && !regBusy s2 0x16 then
      aoutLost s2 else s2
  if bit b 2 then frstReport s5 else s5

/-- A rotation byte of a good frame. -/
def statTake (s : State) (j b : Nat) : State :=
  match j with
  | 0 => stat0 s b
  | 9 => statRead s 9 b
  | 10 => statRead s 10 b
  | 11 => statRead s 11 b
  | 12 => stat12 s b
  | 13 => stat13 s b
  | 14 => { s with seam := { s.seam with ceOn := BitVec.ofNat 4 b, swClosed := BitVec.ofNat 4 (b / 16) } }
  | 15 => { s with seam.frev := byteOf b }
  | _ => pinReport s j b false

/-- A rotation byte lost with its frame (01 R61, R62). -/
def statLost (s : State) (j : Nat) : State :=
  let ilim := s.seam.flagHist.any (fun f => f.getLsbD 0)
  match j with
  | 0 => s
  | 9 => readLost s 9
  | 10 => readLost s 10
  | 11 => readLost s 11
  | 12 => if ilim then forEach s (List.range 4) (heaterLimit · · false) else s
  | 13 =>
    forEach s [0, 1] (fun s b =>
      let s1 := modBrg s b (fun g => { g with limitNow := ilim })
      let s2 := if ilim && g1 s1 b then bridgeLimit s1 b false else s1
      if (brgOf s2 b).off && g1 s2 b then bridgeOffTicks s2 b else s2)
  | 14 => s
  | 15 => s
  | _ => pinReport s j 0 true
where
  g1 (s : State) (b : Nat) : Bool := (brgOf s b).running

/-- Pin-clamp episodes are judged once the last byte of their pins has come. -/
def episodesClose (s : State) (j d : Nat) : State :=
  match j with
  | 3 => forEach s (List.range 8) (pinClose · · (d - 2))
  | 4 => forEach s [8, 9, 10, 11] (pinClose · · d)
  | 8 => forEach s [12, 13] (pinClose · · (d - 1))
  | _ => s

/-! ### The frame -/

/-- FLAGS of decision tick `d` into the history. -/
def noteFlags (s : State) (flags : BitVec 8) (d : Nat) : State :=
  { s with seam := { s.seam with flags := flags, flagHist := (flags :: s.seam.flagHist).take 16, flagAt := d } }

/-- A good frame that travelled at phase `p`. -/
def upTake (s : State) (f : BitVec 128) (d p : Nat) : State :=
  let codes := BitVec.ofNat 92 (f.toNat / 2 ^ 36)
  let flags := BitVec.ofNat 8 (f.toNat / 2 ^ 28)
  let s1 := { s with gmarks := closeIn .held (d - 1) (closeIn .voidSeam (d - 1) s.gmarks),
                     seam := { s.seam with codes := codes, failRun := 0 } }
  let s2 := clampTally (noteFlags s1 flags d) flags
  let s3 := statTake (takeCodes s2 codes d ((p + 511) % 512) false false) (p % 16) (f.toNat / 2 ^ 20 % 256)
  episodesClose s3 (p % 16) d

/-- A frame that failed, or was cut by a switchover and counts nowhere (01 R61, R64, R65, R77). From the 64th in a row on, each makes the
source LASTING at once, also after a TALLYCLEAR (16 R697, R727; DEDUCED, log 112). -/
def upFail (s : State) (d p : Nat) (cut : Bool) : State :=
  let run := if cut then s.seam.failRun else s.seam.failRun + 1
  let void := decide (17 ≤ run)
  let g1 := openIn .held d (prune s.t.up s.gmarks)
  let g2 := if void then openIn .voidSeam d g1 else g1
  let old := s.seam.failTicks.filter (fun x => decide (d < x + 32))
  let s1 := { s with gmarks := g2, seam := { s.seam with failRun := run, upFails := s.seam.upFails + 1,
                                                         upVoid := s.seam.upVoid + b2n void, failTicks := d :: old } }
  let s2 := takeCodes (noteFlags s1 s.seam.flags d) s.seam.codes d ((p + 511) % 512) void true
  let s3 := episodesClose (statLost s2 (p % 16)) (p % 16) d
  if cut then s3
  else
    let s4 := seamEvent s3 0
    if 64 ≤ run then tallyNow s4 0 else s4

/-- A good up frame while the Seam is not up: its codes and flags are kept, a j = 0 byte tells the supplies, the sixteenth in a row
asks for FREV, and the answer brings the Seam up (01 R61, R68). -/
def bringUp (s : State) (f : BitVec 128) (d j : Nat) : State :=
  let b := f.toNat / 2 ^ 20 % 256
  let s1 := noteFlags { s with seam := { s.seam with codes := BitVec.ofNat 92 (f.toNat / 2 ^ 36), goodRun := s.seam.goodRun + 1 } }
    (BitVec.ofNat 8 (f.toNat / 2 ^ 28)) d
  let s2 := if j = 0 then
      { s1 with seam := { s1.seam with vdda := bit b 4, vhtr := bit b 3, vdrv := bit b 2, warn := bit b 1 } }
    else if 9 ≤ j ∧ j ≤ 11 then statRead s1 j b
    else s1
  if s2.seam.up || s2.seam.asking || decide (s2.seam.goodRun < 16) then s2
  else
    let acc : RegAcc := { read := true, addr := 0xF0, data := 0, tries := 0, at_ := s2.t.up, alts := [] }
    { s2 with seam := { s2.seam with asking := true, regQ := acc :: s2.seam.regQ } }

/-- A failed one: the run is broken, and an answer lost with it is asked for again. -/
def bringFail (s : State) (j : Nat) : State :=
  let s1 := { s with seam.goodRun := 0 }
  if 9 ≤ j ∧ j ≤ 11 then readLost s1 j else s1

/-- UP_FRAME: in tick t, the frame that travelled in t − 1 with the codes of t − 2. -/
def execUpFrame (u : UpIn) (s : State) : Host.Outcome State Fault Refusal :=
  .next (
    match s.fd.tx with
    | none => s
    | some x =>
      if !alive s || s.t.up < 2 then s
      else
        let d := s.t.up - 2
        let j := x.p % 16
        let s1 := { s with fd := { s.fd with tx := none, clamps := s.fd.clamps ||| u.pins } }
        let f := upFrame (sentCodes s1 u d ((x.p + 511) % 512)) (flagsOf u).toNat (statByte s1 u x) u.err
        let good := x.good && !x.cut && upGood f
        let s2 := if good then fieldSent s1 j else s1
        if !s2.seam.up then (if good then bringUp s2 f d j else bringFail s2 j)
        else if good then upTake s2 f d x.p
        else upFail s2 d x.p x.cut)

end Sys2Proof.Machine
end

