-- ==== Sys2Proof/Machine/SeamDown.lean ====
section
/-! DEFINITION. The down frame (01 R46, R52–R58, R66), the field die's own acts (01 R41, R67, R939, 02 R97, R123), the housekeeping
step (01 R69), and the steps of cells and of range changes that fall due tick by tick (03 R144, R145, 09 R394, R407, 10 R450). -/

namespace Sys2Proof.Machine

/-! ### Choosing and building a frame -/

/-- What a down frame carries (01 R52, R53). -/
inductive DownFrame where
  | bias (a b : Option (Nat × BitVec 14))
  | drive (pair : Nat) (lo hi : BitVec 16)
  | reg (read : Bool) (addr : Byte) (data : BitVec 16)
  | idle
  deriving DecidableEq, Repr

/-- A slot of a BIAS frame: valid, cell, code. -/
def biasSlot : Option (Nat × BitVec 14) → Nat
  | none => 0
  | some (k, c) => 2 ^ 16 + k * 2 ^ 14 + c.toNat

/-- TYPE and payload. -/
def DownFrame.bits : DownFrame → Nat
  | .bias a b => biasSlot a * 2 ^ 29 + biasSlot b * 2 ^ 12
  | .drive p lo hi => 2 ^ 46 + p * 2 ^ 44 + lo.toNat * 2 ^ 28 + hi.toNat * 2 ^ 12
  | .reg rd a d => 2 ^ 47 + b2n rd * 2 ^ 45 + a.toNat * 2 ^ 37 + d.toNat * 2 ^ 21
  | .idle => 2 ^ 47 + 2 ^ 46

/-- The 64-bit frame (01 R52, R60). -/
def downWord (aout : BitVec 16) (f : DownFrame) : BitVec 64 :=
  let h := beBytes 7 ((aout.toNat * 2 ^ 48 + f.bits) / 256)
  BitVec.ofNat 64 (beNat h * 256 + crc8 h)

/-- A slot as received. -/
def slotParse (x : Nat) : Option (Nat × BitVec 14) :=
  if bit x 16 then some (x / 2 ^ 14 % 4, BitVec.ofNat 14 x) else none

/-- A received frame, its CRC aside. -/
def downParse (w : BitVec 64) : DownFrame :=
  let x := w.toNat
  match x / 2 ^ 46 % 4 with
  | 0 => .bias (slotParse (x / 2 ^ 29 % 2 ^ 17)) (slotParse (x / 2 ^ 12 % 2 ^ 17))
  | 1 => .drive (x / 2 ^ 44 % 4) (BitVec.ofNat 16 (x / 2 ^ 28)) (BitVec.ofNat 16 (x / 2 ^ 12))
  | 2 => .reg (bit x 45) (BitVec.ofNat 8 (x / 2 ^ 37)) (BitVec.ofNat 16 (x / 2 ^ 21))
  | _ => .idle

/-- The front end whose release is due first (09 R407). -/
def releaseFront (s : State) : Option Nat := (List.range 12).find? (fun n => releaseDue (frontOf s n) (s.t.up + 1))

/-- Cells with a pending code, in the order they are served: the tone's cell at p mod 8 = 0, then round-robin (01 R56, 13 R586). -/
def biasOrder (s : State) : List Nat :=
  let rr := (List.range 4).map (fun i => (s.seam.lastCell + 1 + i) % 4)
  let tone := if s.t.p % 8 = 0 then (List.range 4).filter (zCell s) else []
  (tone ++ rr.filter (fun k => !tone.contains k)).filter (fun k => (vget s.seam.biasPend k none).isSome && decide (vget s.seam.biasAt k 0 < s.t.up))

/-- A write leaves the core die, a repeated one with the latest value sent to its address; its read-back follows in the next REG frame,
and the read-backs still open for the address will take its value too (01 R59). -/
def sendWrite (s : State) (acc : RegAcc) (rest : List RegAcc) : State × DownFrame :=
  let a := acc.addr.toNat
  let d := if acc.tries = 0 then acc.data else vget s.seam.sent a 0
  let note (x : RegAcc) : RegAcc := if x.read && x.tries != 0 && x.addr == acc.addr then { x with alts := d :: x.alts } else x
  let mine : RegAcc := { acc with read := true, data := d, tries := acc.tries + 1, alts := [] }
  ({ s with seam := { s.seam with regQ := mine :: rest.map note, reads := s.seam.reads.map (fun r => (r.1, note r.2)),
                                  sent := vset s.seam.sent a d, hkSent := if a = 0x17 then s.t.up else s.seam.hkSent } },
   .reg false acc.addr d)

/-- A read leaves the core die. -/
def sendRead (s : State) (acc : RegAcc) (rest : List RegAcc) : State × DownFrame :=
  ({ s with seam := { s.seam with regQ := rest, reads := (s.t.up, acc) :: s.seam.reads } }, .reg true acc.addr 0)

/-- What is handed over in a tick travels in the next frame at the earliest (09's example: handed over at 102 427, sent at 102 428). -/
def regReady (s : State) (a : RegAcc) : Bool := decide (a.at_ < s.t.up)

/-- The release of front end `n` leaves, in place of the writes of its register not yet sent. -/
def sendRelease (s : State) (n : Nat) : State × DownFrame :=
  let a := ctlAddr n
  let w := freeWord (regWant s a) n (frontOf s n).range
  let acc : RegAcc := { read := false, addr := byteOf a, data := w, tries := 0, at_ := s.t.up - 1, alts := [] }
  let s1 := modFront { s with seam.want := vset s.seam.want a w } n (fun f => { f with relSent := true })
  sendWrite s1 acc (s1.seam.regQ.filter (fun x => x.read || x.addr.toNat != a || x.tries != 0))

/-- The REG frame, if an access is pending. -/
def sendReg (s : State) : Option (State × DownFrame) :=
  match releaseFront s with
  | some n => some (sendRelease s n)
  | none =>
    match s.seam.regQ.find? (regReady s) with
    | some acc =>
      let rest := s.seam.regQ.erase acc
      some (if acc.read then sendRead s acc rest else sendWrite s acc rest)
    | none => none

/-- Before the Seam is up only the read of FREV goes out, once it is asked for (01 R68). -/
def sendFrev (s : State) : Option (State × DownFrame) :=
  if !s.seam.asking then none else
  (s.seam.regQ.find? (fun a => a.read && a.tries == 0 && a.addr == 0xF0 && regReady s a)).map (fun acc =>
    sendRead s acc (s.seam.regQ.erase acc))

/-- One pending code goes out. -/
def biasOut (s : State) (k : Nat) : State × Option (Nat × BitVec 14) :=
  match vget s.seam.biasPend k none with
  | none => (s, none)
  | some c =>
    ({ s with seam := { s.seam with biasPend := vset s.seam.biasPend k none, bias := vset s.seam.bias k c, lastCell := k } },
     some (k, c))

/-- The BIAS frame, if a code is pending. -/
def sendBias (s : State) : Option (State × DownFrame) :=
  match biasOrder s with
  | [] => none
  | [k] =>
    let r := biasOut s k
    some (r.1, .bias r.2 none)
  | k :: l :: _ =>
    let r := biasOut s k
    let q := biasOut r.1 l
    some (q.1, .bias r.2 q.2)

/-- With nothing pending, the present codes of two cells, in alternation. -/
def sendRepeat (s : State) : State × DownFrame :=
  let k := if s.seam.altPair then 2 else 0
  ({ s with seam.altPair := !s.seam.altPair },
   .bias (some (k, vget s.seam.bias k 8192)) (some (k + 1, vget s.seam.bias (k + 1) 8192)))

/-- The frame of this tick, from what was handed over before it (01 R55, R56, R68). -/
def downChoose (s : State) : State × DownFrame :=
  let w (i : Nat) : BitVec 16 := vget s.seam.drive i 0
  if !s.seam.up then (sendFrev s).getD (s, .idle)
  else if 506 ≤ s.t.p then
    let k := (s.t.p - 506) % 3
    (s, .drive k (w (2 * k)) (w (2 * k + 1)))
  else
    let reg := sendReg s
    let first := if s.t.p % 8 = 3 then reg else none
    (first.orElse (fun _ => (sendBias s).orElse (fun _ => reg))).getD (sendRepeat s)

/-! ### The field die applies it (01 R46, R55, R58, 18 R781) -/

/-- A register write at CLK 0 of the present tick. -/
def fieldWrite (s : State) (a : Nat) (d : BitVec 16) : State :=
  if a = 0xF1 then { s with fd.frst := false }
  else
    let f := s.fd
    let regs := vset f.regs a d
    let htr := if 0x10 ≤ a ∧ a < 0x14 then putBit f.htrOn (a - 0x10) (d.getLsbD 0) else f.htrOn
    let exc := if a = 0x14 ∨ a = 0x15 then putBit f.excOn (a - 0x14) (d.getLsbD 0) else f.excOn
    let held := if a < 16 then ((s.t.up, heldMask regs) :: f.held).take 4 else f.held
    let on := a = 0x16 ∧ d.getLsbD 0 ∧ !(vget f.regs 0x16 0).getLsbD 0
    let hk := if a = 0x17 ∧ !d.getLsbD 0 then min 5 (bits d.toNat 4 2) else f.hkIndex
    { s with fd := { f with regs := regs, htrOn := htr, excOn := exc, held := held, hkIndex := hk,
                            aoutLevel := if on then f.aout else f.aoutLevel, deglitch := f.deglitch && !on } }

/-- The AOUT code at CLK 0 of the present tick, and the level the deglitcher lets through. -/
def fieldAout (s : State) (c : BitVec 16) : State :=
  let same := c.toNat / 256 == s.fd.aout.toNat / 256
  { s with fd := { s.fd with aout := c, aoutLevel := if same then c else s.fd.aoutLevel, deglitch := !same } }

/-- A bias slot applied. -/
def fieldBias (s : State) : Option (Nat × BitVec 14) → State
  | none => s
  | some (k, c) => { s with fd.bias := vset s.fd.bias k c }

/-- A step of a ranger counts at its application, and may suspend it (09 R415, 10 R455). -/
def stepCount (s0 s : State) (n : Nat) : State :=
  match (frontOf s0 n).req, (frontOf s n).req with
  | some q, none =>
    let was := (frontOf s0 n).range
    if !q.auto || q.start || q.range == was then s else
      let s1 := modFront s n (fun f => { f with steps := f.steps + 1 })
      let s2 := tallyEvent s1 15
      if isLasting s2 15 && !isLasting s1 15 then
        let keep := if n < 8 then max q.range was else min q.range was
        let s3 := modFront s2 n (fun f => { f with suspended := true })
        if keep = q.range then s3 else rangeAsk s3 n keep orgUnit false false
      else s2
  | _, _ => s

/-- A control register that brings the decision fraction handed over: the channel settles from here (12 R560). -/
def fracApplied (s : State) (a : Nat) (d : BitVec 16) : State :=
  let c := if a < 8 then a else if a < 16 then a - 4 else a - 8
  if (a < 8 ∨ (12 ≤ a ∧ a < 16) ∨ a = 20 ∨ a = 21) ∧ (chainOf s c).frac = some (bits d.toNat 6 1) then
    settleFrom (modChain s c (fun ch => { ch with frac := none })) c s.t.up
  else s

/-- What the core die takes a register write to mean from its application on. -/
def writeMeaning (s : State) (a : Nat) (d : BitVec 16) : State :=
  let n : Option Nat := if a < 8 then some a else if 12 ≤ a ∧ a < 16 then some (a - 4) else none
  let s1 := fracApplied s a d
  match n with
  | none => s1
  | some n => stepCount s1 (frontApplied s1 n d s.t.up) n

/-- A drive word as the field die takes it: a heater's on-time at most 2 048, a bridge's code 0 or 500 to 3 000 (01 R54, 10 R463). -/
def driveTaken (pair : Nat) (w : BitVec 16) : BitVec 16 :=
  let n := w.toNat % 4096
  if pair < 2 then BitVec.ofNat 16 (min 2048 n) else if n = 0 then 0 else BitVec.ofNat 16 (max 500 (min 3000 n))

/-- A good down frame of the tick before. -/
def fieldTake (s : State) (c : BitVec 16) (f : DownFrame) : State :=
  let s1 := fieldAout { s with fd.gap := 0 } c
  match f with
  | .bias a b => fieldBias (fieldBias s1 a) b
  | .drive p lo hi =>
    if p = 3 then s1
    else { s1 with fd.copies := vset (vset s1.fd.copies (2 * p) (some (driveTaken p lo))) (2 * p + 1) (some (driveTaken p hi)) }
  | .reg true a _ => { s1 with fd.rdReq := some (a, s1.t.up - 1) }
  | .reg false a d => writeMeaning (fieldWrite s1 a.toNat d) a.toNat d
  | .idle => s1

/-- At CLK 0 of a tick the field die applies what it received in the tick before; a tick without a good frame counts toward R67 (01 R46,
R66, R67). -/
def fieldApply (s : State) : State :=
  let s1 := { s with fd := { s.fd with inbox := .none, gap := s.fd.gap + 1 } }
  match s.fd.inbox with
  | .none => fieldAout s1 s1.fd.aout
  | .bad => fieldAout { s1 with fd.badAt := some (s.t.up - 1) } s1.fd.aout
  | .good w => fieldTake s1 (BitVec.ofNat 16 (w.toNat / 2 ^ 48)) (downParse w)

/-- DOWN_FRAME: the frame of this tick, with the bits of `err` inverted on its lane. -/
def execDownFrame (err : BitVec 64) (s : State) : Host.Outcome State Fault Refusal :=
  .next (
    if !alive s || !seamRuns s then s
    else
      let c := if s.seam.up then s.seam.aout else 0
      let r := downChoose s
      let w := downWord c r.2
      let got := w ^^^ err
      let good := crc8 (beBytes 7 (got.toNat / 256)) == got.toNat % 256
      { r.1 with out.down := w, fd.inbox := if !r.1.fd.vdda then .none else if good then .good got else .bad })

/-! ### The field die on its own -/

/-- Every heater driver and bridge excitation driver off, until a register write enables it again. -/
def driversOff (s : State) : State := { s with fd.htrOn := 0, fd.excOn := 0 }

/-- DOWN_FRAME_TIMEOUT (01 R67): 256 ticks without a good down frame. -/
def execDownFrameTimeout (s : State) : Host.Outcome State Fault Refusal :=
  .next (if s.fd.gap < 256 then s else driversOff s)

/-- SCK_LOSS (01 R41). -/
def execSckLoss (s : State) : Host.Outcome State Fault Refusal := .next (driversOff s)

/-- The field die after a reset: every register zero, FRST set (01 R58, R939). The frame that has travelled stands. -/
def fieldReset (s : State) (vdda : Bool) : State :=
  { s with fd := { FieldSt0 with regs := Vector.replicate 24 0, frst := true, frev := s.fd.frev, vdda := vdda,
                                 vhtr := s.fd.vhtr, vdrv := s.fd.vdrv, tx := s.fd.tx,
                                 held := ((s.t.up, 0xF00) :: s.fd.held).take 4 } }

/-- FIELD_DIE_RESET (01 R939): VDDA fails, and the field die loses its state. -/
def execFieldDieReset (s : State) : Host.Outcome State Fault Refusal := .next (fieldReset s false)

/-- VDDA_RETURN (01 R939). -/
def execVddaReturn (s : State) : Host.Outcome State Fault Refusal :=
  .next (if s.fd.vdda then s else fieldReset s true)

/-- VHTR_PRESENT_CHANGE (02 R97): the comparator holds the drivers off and shows in j = 0. -/
def execVhtrPresentChange (present : Bool) (s : State) : Host.Outcome State Fault Refusal :=
  .next { s with fd.vhtr := present }

/-- VDRV_PRESENT_CHANGE (02 R123, 18 R813): reported, with no action. -/
def execVdrvPresentChange (present : Bool) (s : State) : Host.Outcome State Fault Refusal :=
  .next { s with fd.vdrv := present }

/-- HOUSEKEEPING_STEP (01 R69): at p = 0 the multiplexer steps, unless HKCTL holds it on the monitor it names. The dwell just ended forms its
sample when its last code enters, two ticks on (01 R45, 12 R574). -/
def execHousekeepingStep (s : State) : Host.Outcome State Fault Refusal :=
  .next (
    if s.t.p ≠ 0 then s
    else
      { s with fd.hkIndex := if (vget s.fd.regs 0x17 0).getLsbD 0 then (s.fd.hkIndex + 1) % 6 else s.fd.hkIndex })

/-! ### Steps that fall due tick by tick -/

/-- RANGE_CHANGE_RELEASE (09 R407): the release of AMPn that the field die has applied takes. -/
def execRangeChangeRelease (n : Fin 8) (s : State) : Host.Outcome State Fault Refusal := .next (releaseNow s n.val)

/-- DECADE_CHANGE_RELEASE (10 R450). -/
def execDecadeChangeRelease (n : Fin 4) (s : State) : Host.Outcome State Fault Refusal := .next (releaseNow s (8 + n.val))

/-- CELL_ENABLE_STEP (03 R144). -/
def execCellEnableStep (k : Fin 4) (s : State) : Host.Outcome State Fault Refusal := .next (cellEnableStep s k.val)

/-- CELL_DISABLE_STEP (03 R145). -/
def execCellDisableStep (k : Fin 4) (s : State) : Host.Outcome State Fault Refusal := .next (cellDisableStep s k.val)

/-- BIAS_RAMP_STEP (09 R394). -/
def execBiasRampStep (k : Fin 4) (s : State) : Host.Outcome State Fault Refusal := .next (cellRampStep s k.val)

end Sys2Proof.Machine
end

