-- ==== Sys2Proof/Machine/Heaters.lean ====
section
/-! DEFINITION. Heaters: profile steps, measurements, loops, LEADCAL and aborts (11 R486–R528), and what a superframe's drive words
bring at p = 0 (01 R55, 10 R468, 11 R512). -/

namespace Sys2Proof.Machine

/-! ### Profile steps (11 R503–R507) -/

/-- The 64 bits of a step, byte 0 first, and its fields (11 R504). -/
def stMode (w : BitVec 64) : Nat := w.toNat / 2 ^ 56 % 16
def stSet (w : BitVec 64) : Nat := w.toNat / 2 ^ 40 % 65536
def stDur (w : BitVec 64) : Nat := w.toNat / 2 ^ 24 % 65536
def stDefer (w : BitVec 64) : Nat := w.toNat / 2 ^ 16 % 256
def stRamp (w : BitVec 64) : Bool := bit w.toNat 8
def stHold (w : BitVec 64) : Bool := bit w.toNat 9

/-- Step `i` of profile `p`; after step 31 an END with SET 0. -/
def profStep (s : State) (p i : Nat) : BitVec 64 := (vget s.profiles p []).getD i 0

/-- The present step of a heater. -/
def stepNow (s : State) (n : Nat) : BitVec 64 :=
  match (htrOf s n).prof with
  | some p => profStep s p (htrOf s n).step
  | none => 0

/-- Every field of a step lies in R504. -/
def stepOk (w : BitVec 64) : Bool :=
  let b0 := w.toNat / 2 ^ 56
  let fl := w.toNat / 2 ^ 8 % 256
  let s := stSet w
  b0 < 5 && fl < 4 &&
  (match b0 with
   | 0 => stDur w == 0 && stDefer w == 0 && fl == 0
   | 1 => s == 0 && stDur w != 0 && stDefer w == 0 && !stRamp w
   | 2 => 1 ≤ s && s ≤ 13750 && stDur w != 0
   | 3 => 1 ≤ s && s ≤ 5500 && stDur w != 0
   | _ => s ≤ 6000 && stDur w != 0)

/-- A step as kept: its reserved byte is not taken (00 R21, 11 R504). -/
def stKept (w : BitVec 64) : BitVec 64 := w &&& 0xFFFFFFFFFFFFFF00#64

/-- Enter a step: its counts start, and a CT step takes up the newest delivered power (11 R500, R525). -/
def stepEnter (s : State) (n i : Nat) (power : Rat) : State :=
  modHtr s n (fun h => { h with step := i, done := 0, defers := 0,
                                pInt := match h.prof with
                                  | some p => if stMode (profStep s p i) = 4 then power else h.pInt
                                  | none => h.pInt })

/-! ### Measurement quantities (11 R490, R494, R496, R499) -/

/-- V_H (11 R496). -/
def vH (s : State) : Rat :=
  match vget s.hk.goodV 2 none with
  | some v =>
    let x := convert s 20 0 v
    if 1 ≤ x then x else 11 / 2
  | none => 11 / 2

def rh25 (s : State) (n : Nat) : Rat := pVal s (idHtr n 1)

/-- R_h from the sensed resistance, per the hookup. -/
def rhOf (s : State) (n : Nat) (rs : Rat) : Rat := if pNat s (idHtr n 0) = 2 then rs else rs - pVal s (idHtr n 3)

/-- Heater temperature in °C. -/
def tempOf (s : State) (n : Nat) (rh : Rat) : Rat := 25 + (rh / rh25 s n - 1) / pVal s (idHtr n 2)

/-- R_h and I_on of the newest valid measurement, or what stands in before any. Where R_s cannot be formed, I_on is 0 and no power
follows from R_h. -/
def rhNow (s : State) (n : Nat) : Rat :=
  match (htrOf s n).meas with
  | some m => (m.rs.map (rhOf s n)).getD 0
  | none => rh25 s n
def ionNow (s : State) (n : Nat) : Rat :=
  match (htrOf s n).meas with
  | some m => m.ion
  | none => min (1 / 4) (vH s / (rh25 s n + pVal s (idHtr n 3)))

/-- Power delivered in the newest valid measurement, or 0. -/
def phNow (s : State) (n : Nat) : Rat :=
  match (htrOf s n).meas with
  | some m => m.ion * m.ion * (m.rs.map (rhOf s n)).getD 0 * (m.d : Nat) / 2048
  | none => 0

/-- Energy of a duty in µJ, and the mean supply current (11 R501, 17 R740). -/
def dutyEnergy (s : State) (n d : Nat) : Nat := (vH s * ionNow s n * (d : Nat) / 2048 * 1000).ceil.toNat
def dutyAmps (s : State) (n d : Nat) : Rat := ionNow s n * (d : Nat) / 2048

/-- The duty d_L of a LEADCAL, fixed as it first asks for L0; a run that starts again from L0 forms it again (11 R496, R498). -/
def leadDuty (s : State) (n : Nat) : Nat := min 2048 (roundAway (2048 * pVal s (idHtr n 0xB) / vH s)).toNat

/-! ### The loop (11 R499–R502, R506) -/

/-- The step to run in the coming superframe: a finished step gives way to the next, and an END with repeats left to step 0; the
flag is set where the profile ends there (11 R507). -/
def stepReady (s : State) (n : Nat) : State × Bool :=
  let h := htrOf s n
  let s1 := if stMode (stepNow s n) != 0 && decide (stDur (stepNow s n) ≤ h.done) then
      stepEnter s n (h.step + 1) (phNow s n) else s
  let w := stepNow s1 n
  if stMode w ≠ 0 then (s1, false)
  else
    let left : Nat := ((htrOf s1 n).repeats).getD (stSet w)
    if stSet w = 0 ∨ left = 0 then (s1, true)
    else
      let s2 := modHtr s1 n (fun h => { h with repeats := some (if stSet w = 65535 then 65535 else left - 1) })
      (stepEnter s2 n 0 (phNow s2 n), false)

/-- The effective setpoint in the step's next counted superframe, in W, V or °C (11 R506). -/
def setNow (s : State) (n : Nat) : Rat :=
  let h := htrOf s n
  let w := stepNow s n
  let prev : BitVec 64 := match h.prof with
    | some p => if h.step = 0 then 0 else profStep s p (h.step - 1)
    | none => 0
  let raw : Rat := if stRamp w && h.step != 0 && stMode prev == stMode w then
      (stSet prev : Rat) + ((stSet w : Rat) - (stSet prev : Rat)) * ((h.done + 1 : Nat) : Rat) / (stDur w : Nat)
    else (stSet w : Nat)
  match stMode w with
  | 2 => raw / 10000
  | 3 => raw / 1000
  | _ => raw / 10

/-- The integral after this computation (11 R500). -/
def pIntNext (s : State) (n : Nat) (e : Rat) : Rat :=
  let h := htrOf s n
  match h.meas with
  | some m => if h.used || m.bound || h.duty == 2048 then h.pInt else h.pInt + pVal s (idHtr n 6) * e
  | none => h.pInt

/-- The duty the mode asks for, before the bound; none where it is not finite (11 R499, R500). -/
def dutyWanted (s : State) (n : Nat) (pint : Rat) : Option Nat :=
  let rh := rhNow s n
  let g := ionNow s n * ionNow s n * rh
  if g ≤ 0 then none
  else
    let sp := setNow s n
    let of (p : Rat) : Nat := min 2048 (roundAway (2048 * p / g)).toNat
    match stMode (stepNow s n) with
    | 1 => some 0
    | 2 => some (of sp)
    | 3 => some (of (sp * sp / rh))
    | _ =>
      let p := pint + pVal s (idHtr n 5) * (sp - tempOf s n rh)
      some (max 64 (of (if p < 0 then 0 else p)))

/-- The bound duty (11 R502). -/
def dutyBound (s : State) (n : Nat) : Nat :=
  let g := vH s * ionNow s n * 1000
  if g ≤ 0 then 2048 else (pNat s (idHtr n 4) * 2048 / g).floor.toNat

/-- One computation of the loop: the duty of the next superframe, and whether it is bound. -/
def heaterLoop (s : State) (n : Nat) : State :=
  if (htrOf s n).prof.isNone then s else
    let r := stepReady s n
    if r.2 then r.1
    else
      let s1 := r.1
      let w := stepNow s1 n
      if stMode w = 1 then modHtr s1 n (fun h => { h with next := 0, boundNext := false })
      else
        let good := decide (0 < ionNow s1 n * ionNow s1 n * rhNow s1 n)
        let e := setNow s1 n - tempOf s1 n (rhNow s1 n)
        let pint := if stMode w = 4 ∧ good then pIntNext s1 n e else (htrOf s1 n).pInt
        let want := (dutyWanted s1 n pint).getD (htrOf s1 n).duty
        let b := dutyBound s1 n
        modHtr s1 n (fun h => { h with pInt := pint, used := h.used || h.meas.isSome, next := min want b,
                                       boundNext := decide (b < want) })

/-- HEATER_LOOP (11 R499). -/
def execHeaterLoop (n : Fin 4) (s : State) : Host.Outcome State Fault Refusal := .next (heaterLoop s n.val)

/-! ### Starting (11 R488, R508, R512) -/

/-- HTRCTL word of a heater turned on. -/
def htrWord (s : State) (n : Nat) (kelvin : Bool) : BitVec 16 :=
  regField (regField (regWant s (0x10 + n)) 0 0 1) 1 1 (b2n kelvin)

/-- What any start clears: measurements, fault conditions and readings count from it (11 R491, R492). -/
def heatFresh (task : Nat) (h : Heater) : Heater :=
  { h with task := task, meas := none, used := false, old := true, abort := none, isOpen := false, isShort := false,
           next := 0, boundNext := false, deferNext := false, rNow := nanW, tNow := nanW, pNow := nanW, iNow := nanW }

/-- Profile `p` starts on heater `n` at this tick (11 R508), with the mark of an earlier abort cleared (11 R510); what its first decision
gave is in the task. -/
def heatStart (s : State) (n p task : Nat) (origin : BitVec 16) : State :=
  let s1 := regWrite s (0x10 + n) (htrWord s n (pNat s (idHtr n 0) != 0))
  let s2 := logE s1 origin 0x0051 n 0 (natW (p + 1))
  let s3 := modHtr s2 n (fun h =>
    { heatFresh task h with prof := some p, lead := none, step := 0, done := 0, repeats := none, defers := 0, pInt := 0,
                            aborted := false, settle := pNat s (idHtr n 8) })
  modChain s3 (8 + n) (markClose .filmOff (s.t.up - 1))

/-- A LEADCAL starts (11 R496). -/
def leadStart (s : State) (n task : Nat) (origin : BitVec 16) : State :=
  let s1 := regWrite s (0x10 + n) (htrWord s n true)
  let r : LeadRun := { idx := 0, sumA := 0, sumB := 0, good := 0, bad := false, noRs := false, d := leadDuty s n, origin := origin }
  modHtr s1 n (fun h => { heatFresh task h with prof := none, lead := some r })

/-! ### What the decision's outcome brings to a heater (11 R506, R509) -/

/-- Put a drive word for the next superframe. -/
def driveSet (s : State) (i : Nat) (w : Nat) : State := { s with seam.drive := vset s.seam.drive i (BitVec.ofNat 16 w) }

/-- Granted energy `e`, or an OFF superframe: the word goes out and the superframe counts. A heater whose abort is due sends word 0
(11 R510, R515). -/
def heatGranted (s : State) (n e : Nat) : State :=
  if (htrOf s n).abort.isSome then driveSet s n 0
  else
    match (htrOf s n).lead with
    | some r =>
      driveSet (modHtr s n (fun h => { h with lead := some { r with idx := r.idx + 1 }, deferNext := false, charge := e })) n r.d
    | none =>
      driveSet (modHtr s n (fun h => { h with done := h.done + 1, defers := 0, deferNext := false, charge := e })) n (htrOf s n).next

/-- A LEADCAL at its start: nothing summed yet. -/
def LeadRun.fresh (r : LeadRun) : LeadRun := { r with idx := 0, sumA := 0, sumB := 0, good := 0, bad := false, noRs := false }

/-- Deferred: word 0; a step does not advance, a LEADCAL starts again from L0 (11 R498, R509). -/
def heatDeferred (s : State) (n : Nat) : State :=
  if (htrOf s n).abort.isSome then driveSet s n 0
  else
    match (htrOf s n).lead with
    | some r => driveSet (modHtr s n (fun h => { h with lead := some r.fresh, deferNext := true, boundNext := false })) n 0
    | none => driveSet (modHtr s n (fun h => { h with defers := h.defers + 1, deferNext := true, boundNext := false })) n 0

/-- Refused: word 0 now; the abort follows at p = 0 (11 R510). -/
def heatRefused (s : State) (n : Nat) (reason : Byte) : State :=
  driveSet (modHtr s n (fun h => { h with abort := some reason, boundNext := false, deferNext := false })) n 0

/-- The profile has ended (11 R507): at p = 0 of the first superframe without it the driver turns off and the task ends DONE. -/
def heatFinished (s : State) (n : Nat) : State := if (stepReady s n).2 && (htrOf s n).prof.isSome then htrEnd s n 0 0 orgUnit else s

/-! ### PROFILE_ABORT (11 R510, R515, R523) -/

/-- At p = 0 of the superframe that follows, a refusal or a fault become LASTING ends what heater `n` runs, once (11 R510, R515, R523). Bit
10 is a refusal's, bit 11 a fault's. -/
def execProfileAbort (n : Fin 4) (s : State) : Host.Outcome State Fault Refusal :=
  .next (
    match (htrOf s n.val).abort with
    | none => s
    | some reason =>
      if !htrRunning s n.val then modHtr s n.val (fun h => { h with abort := none })
      else if s.t.p ≠ 0 then s
      else
        let h := htrOf s n.val
        let opc : Word := match taskOf s h.task with
          | some t => t.opc.setWidth 32
          | none => 0
        let s1 := logE s orgUnit 0x0061 h.task opc (reason.setWidth 32)
        let s2 := htrEnd s1 n.val 3 reason.toNat orgUnit
        modHtr s2 n.val (fun h => { h with abort := none, aborted := h.aborted || !h.fault || reason != 0 }))

/-! ### The drive superframe begins (01 R55, 10 R466, R468, 11 R502, R512) -/

/-- The superframe of a running profile that just began: film marks, the bound episode, the settle count (11 R502, R512). -/
def heaterBegin (s : State) (n : Nat) : State :=
  let h := htrOf s n
  let w := (vget s.seam.drive n 0).toNat
  let e := s.t.up + 511
  let s1 := modHtr s n (fun h =>
    { h with doneDuty := h.duty, doneOn := h.seen || h.duty != 0, doneBound := h.boundNow, duty := w,
             boundNow := h.boundNext, deferNow := h.deferNext, energy := h.charge, charge := 0, limitNow := false,
             deferrals := h.deferrals + b2n h.deferNext })
  let mark (k : MarkKind) (s : State) : State := modChain s (8 + n) (markAdd k s.t.up e)
  let s2 := if h.boundNext || h.deferNext then mark .filmStarved s1 else s1
  if h.prof.isNone then s2
  else
    let settling := stHold (stepNow s n) || h.settle != 0
    let s3 := if settling then mark .filmSettle s2 else s2
    let s4 := modHtr s3 n (fun h => { h with settleNow := settling, settle := if h.deferNow then h.settle else h.settle - 1 })
    if h.boundNext && !h.bound then
      tallyEvent (logE (modHtr s4 n (fun h => { h with bound := true })) orgUnit 0x0063 (14 + n) 0 1) 16
    else if !h.boundNext && h.bound then
      logE (modHtr s4 n (fun h => { h with bound := false })) orgUnit 0x0063 (14 + n) 1 0
    else s4

/-- The bound episode at the first tick of a drive superframe (10 R466). -/
def bridgeBound (s : State) (b : Nat) : State :=
  let g := brgOf s b
  let s0 := if g.boundNext then modChain s (12 + b) (markAdd .bound s.t.up (s.t.up + 511)) else s
  if g.boundNext && !g.bound then
    tallyEvent (logE (modBrg s0 b (fun g => { g with bound := true })) orgUnit 0x0063 (12 + b) 0 1) 16
  else if !g.boundNext && g.bound then
    logE (modBrg s0 b (fun g => { g with bound := false })) orgUnit 0x0063 (12 + b) 1 0
  else s0

/-- The superframe of a bridge that just began: its code, VOID and DEGRADED ticks, warm-up, and the bound episode. -/
def bridgeBegin (s : State) (b : Nat) : State :=
  let g := brgOf s b
  let w := (vget s.seam.drive (4 + b) 0).toNat
  let u := s.t.up
  let s1 := modBrg s b (fun g => { g with code := w, energy := g.charge, charge := 0, limitNow := false, deferNow := g.deferNext,
                                          deferrals := g.deferrals + b2n g.deferNext })
  if !g.running then s1
  else
    let s2 := bridgeBound (if w = 0 then bridgeVoid s1 b else s1) b
    if !g.reached then s2
    else if g.warm != 0 then modBrg s2 b (fun g => { g with warm := g.warm - 1, warmNow := true })
    else modChain (modBrg s2 b (fun g => { g with warmNow := false })) (12 + b) (markClose .warmup (u - 1))

/-- DRIVE_WORD_APPLY (01 R55): at p = 0 the last good copy of each pair; a pair without one keeps its words. -/
def execDriveWordApply (s : State) : Host.Outcome State Fault Refusal :=
  .next (
    if s.t.p ≠ 0 then s
    else
      let w := (List.range 6).foldl (fun v i =>
        match vget s.fd.copies i none with
        | some c => vset v i c
        | none => v) s.fd.drive
      let s1 := { s with fd := { s.fd with drive := w, copies := Vector.replicate 6 none } }
      forEach (forEach s1 (List.range 4) heaterBegin) [0, 1] bridgeBegin)

/-! ### HEATER_MEASUREMENT (11 R489–R492, R513) -/

/-- A clamp flag of group H stands in for per-pin bytes still to come, in the superframe just ended. -/
def heaterProvisional (s : State) : Bool :=
  provisional s 14 ((s.t.up : Int) - s.t.p - 512) (s.t.up - s.t.p - 1)

/-- The sensed resistance of two sums (11 R489, R490); with a current sum of 0 it cannot be formed (00 R17). -/
def sensed (sv si : Int) : Option Rat := if si = 0 then none else some ((sv : Rat) * 6 / ((si : Rat) * (3 / 10)))

/-- A valid measurement, as the unit keeps it. -/
def measOf (h : Heater) : Meas :=
  { ion := (h.doneI : Rat) * (3 / 10) / 6144 * 2048 / (h.doneDuty : Nat), rs := sensed h.doneV h.doneI, d := h.doneDuty,
    bound := h.doneBound }

/-- M(s) of the superframe just ended is valid (11 R491). -/
def measValid (h : Heater) : Bool := decide (64 ≤ h.doneDuty) && h.doneSeen && !h.doneOff && !h.doneVoid

/-- A measurement of L2 to L33 joins the LEADCAL sums. Where its R_s cannot be formed, a free value stands for it, and the run is marked
(11 R496; 00 R17; log 25). -/
def leadSum (rs : Option Rat) (sv : Int) (r : LeadRun) : LeadRun :=
  if r.idx < 4 then r
  else
    let x := rs.getD (Config.rsZero sv)
    let r1 := { r with good := r.good + 1, noRs := r.noRs || rs.isNone }
    if r.idx % 2 = 0 then { r1 with sumA := r.sumA + x } else { r1 with sumB := r.sumB + x }

/-- One event of a condition that heater `n` shows; the source becoming LASTING in this superframe stops the heater (11 R513, R515). -/
def htrEvent (s : State) (n i : Nat) : State :=
  let s1 := tallyEvent s i
  if isLasting s1 i && (tallyOf s1 i).since == s1.t.up && htrRunning s1 n then htrFaultOne s1 n else s1

/-- The readings, the LEADCAL sums, and the open and short checks of a valid measurement (11 R492, R496, R513). -/
def measTake (s : State) (n : Nat) (m : Meas) : State :=
  let rh := m.rs.map (rhOf s n)
  let op := decide (m.ion < 1 / 1000) || m.rs.any (fun r => decide (pVal s (idHtr n 0xA) < r))
  let sh := m.rs.any (fun r => decide (r < pVal s (idHtr n 9)))
  let s1 := modHtr s n (fun h =>
    { h with meas := some m, measAt := s.t.up, used := false, lead := h.lead.map (leadSum m.rs h.doneV),
             rNow := f32OfOpt rh, tNow := f32OfOpt (rh.map (tempOf s n)),
             pNow := f32OfOpt (rh.map (fun r => m.ion * m.ion * r * (m.d : Nat) / 2048)), iNow := f32Of m.ion, isOpen := op,
             isShort := sh })
  if !htrRunning s n then s1
  else
    let span (c : Chain) : Chain :=
      { c with marks := { kind := .filmFault, first := s.t.up - s.t.p - 512, last := some (s.t.up - s.t.p - 1) } :: c.marks }
    let s2 := if op || sh then modChain s1 (8 + n) span else s1
    let s3 := if op then htrEvent s2 n 12 else s2
    if sh then htrEvent s3 n 13 else s3

/-- The sample of channel 14 + n (11 R492); where no R_h can be formed its value is free (log 26). -/
def heaterSample (s : State) (n : Nat) (h : Heater) (valid : Bool) : Sample :=
  let v := match valid, (measOf h).rs with
    | true, some rs => clip24 (roundAway (rhOf s n rs * (2 ^ 23 : Nat) / 1000))
    | _, _ => clip24 (Config.heaterVoid h.doneV h.doneI)
  let first : Int := (s.t.up : Int) - s.t.p - 512
  let last := s.t.up - s.t.p - 1
  let orphan := s.gmarks.any (fun m => m.kind == .orphan && m.meets first last)
  let q := if !valid then 7 else if h.doneClamp || heaterProvisional s || v.2 then 2 else if h.doneBound then 5
    else if (htrOf s n).isOpen || (htrOf s n).isShort || h.doneLim || orphan then 3 else if h.doneHeld then 6 else 0
  { ch := 14 + n, tag := last, span := 512, value := v.1, qual := q, range := 0 }

/-- HEATER_MEASUREMENT: at p = 2, the measurement of the superframe just ended, and its sample through 01 R74. -/
def execHeaterMeasurement (n : Fin 4) (s : State) : Host.Outcome State Fault Refusal :=
  .next (
    let h := htrOf s n.val
    if s.t.p ≠ 2 ∨ !h.doneOn ∨ s.t.up < 514 then s
    else
      let valid := measValid h
      let s1 := if h.doneOld then s
        else if valid then measTake s n.val (measOf h)
        else modHtr s n.val (fun h => { h with lead := h.lead.map (fun r => { r with bad := r.bad || 4 ≤ r.idx }) })
      let x := heaterSample s1 n.val h valid
      let s2 := modHtr s1 n.val (fun h => { h with doneOn := false, last := wordOf x })
      passSample s2 { prim := x, blk := none, tone := false } none)

/-! ### LEADCAL (11 R495–R498) -/

/-- LEADCAL_SWITCH: at p = 480, bit 1 for the coming superframe L`l`: clear in an A superframe, set otherwise (11 R496). A Span lead may
have decided on it already (19 R844). -/
def execLeadcalSwitch (n : Fin 4) (s : State) : Host.Outcome State Fault Refusal :=
  .next (
    match (htrOf s n.val).lead with
    | none => s
    | some r =>
      let l := if s.twin.mode = 1 ∧ s.sched.doneSf = some s.t.sf then r.idx - 1 else r.idx
      if s.t.p ≠ 480 ∨ 34 ≤ l then s
      else
        let a := decide (2 ≤ l) && l % 2 == 0
        regWrite s (0x10 + n.val) (htrWord s n.val (!a)))

/-- LEADCAL_DONE: at p = 2 of the superframe after L33 (11 R497). An R_drv that cannot be formed is the NaN of 00 R17 in the result; what its
limit writes to RLEAD is free (log 25). -/
def execLeadcalDone (n : Fin 4) (s : State) : Host.Outcome State Fault Refusal :=
  .next (
    match (htrOf s n.val).lead with
    | none => s
    | some r =>
      if r.idx < 35 ∨ s.t.p ≠ 2 then s
      else if r.bad ∨ r.good ≠ 32 then htrOff (taskEnd s (htrOf s n.val).task 0 0 [1]) n.val orgUnit
      else
        let q := (r.sumA - r.sumB) / 16
        let lim : Rat := if q < 0 then 0 else if 20 < q then 20 else q
        let w := f32Of lim
        let id := idHtr n.val 3
        let s1 := modHtr (setParam s id w) n.val (fun h => { h with leadSrc := true })
        let s2 := if sameVal id (param s id) w then s1 else logE s1 r.origin 0x0010 id (param s id) w
        htrOff (taskEnd s2 (htrOf s2 n.val).task 0 0 ([0] ++ beBytes 4 (f32OfOpt (if r.noRs then none else some q)).toNat)) n.val orgUnit)

/-! ### The bridge loop (10 R463–R467, R478, R479, 13 R588) -/

/-- The bound code c_B. -/
def codeBound (s : State) (b : Nat) : Nat :=
  ((pNat s (idBrg b 3) : Rat) * pVal s (idBrg b 2) / (vH s * 1000) * 1000).floor.toNat

/-- The target of the coming superframe (10 R465). -/
def nextTarget (s : State) (b : Nat) : Rat :=
  let goal := pVal s (idBrg b 0)
  let ramp := pVal s (idBrg b 1)
  match (brgOf s b).target with
  | none => if ramp = 0 then goal else 1 / 2
  | some t => if ramp = 0 then goal else moveToward t goal (ramp / 1000)

/-- Tone code of a bridge under check, in the coming superframe (13 R588). -/
def bridgeTone (s : State) (b : Nat) : Int :=
  match s.z.run with
  | some r =>
    if r.target = .bridge b && r.granted then
      let u := s.t.up - s.t.p + 512
      let t0 := r.t0.getD u
      if decide (t0 ≤ u) && decide (toneTurns r t0 (u : Nat) < (r.cycles : Nat)) then
        roundAway (r.ampl * sinT (toneTurns r t0 (u : Nat)) * 1000)
      else 0
    else 0
  | none => 0

/-- One computation of the loop: the code and the energy it asks for. A later computation in the same superframe asks the same. -/
def bridgeLoop (s : State) (b : Nat) : State :=
  let g := brgOf s b
  if !g.running || g.task == 0 then s else
    let want := (roundAway (nextTarget s b * 1000)).toNat
    let cb := codeBound s b
    let c := if min want cb < 500 then 0 else min want cb
    let e := (vH s * (c : Nat) / pVal s (idBrg b 2)).ceil.toNat
    modBrg s b (fun g => { g with ask := some (c, e) })

/-- BRIDGE_LOOP (10 R465). -/
def execBridgeLoop (b : Fin 2) (s : State) : Host.Outcome State Fault Refusal := .next (bridgeLoop s b.val)

/-- Granted energy `e`: the word carries c, with the tone of a check added and limited to c_B; the target moves (10 R467). -/
def bridgeGranted (s : State) (b e : Nat) : State :=
  let g := brgOf s b
  let t := nextTarget s b
  let cb := codeBound s b
  let c : Nat := (g.ask.getD (0, 0)).1
  let tone := bridgeTone s b
  let past := tone != 0 && decide ((cb : Int) < (c : Int) + tone)
  let w := if c = 0 then 0 else min cb ((c : Int) + tone).toNat
  let bound := decide (cb < (roundAway (t * 1000)).toNat)
  let reach := !g.reached && !bound && decide (t = pVal s (idBrg b 0))
  let s1 := modBrg s b (fun g => { g with target := some t, defers := 0, deferNext := false, boundNext := bound, ask := none, charge := e,
                                          reached := g.reached || reach,
                                          warm := if reach then pNat s (idBrg b 5) else g.warm })
  let s2 := if past then { s1 with z.run := s1.z.run.map ZRun.spoil } else s1
  driveSet s2 (4 + b) w

/-- Deferred: word 0, and the target stands; the superframe is not bound (17 R754). -/
def bridgeDeferred (s : State) (b : Nat) : State :=
  driveSet (modBrg s b (fun g => { g with defers := g.defers + 1, deferNext := true, boundNext := false, ask := none })) (4 + b) 0

/-- Refused: at p = 0 of the drive superframe the bridge is stopped, and a check on it ends INVALID (10 R467, 13 R610). -/
def bridgeRefused (s : State) (b : Nat) : State :=
  zAbortChan (chanHalt (bridgeOff (zInvalid s (12 + b)) b) (12 + b) orgUnit) (12 + b)

end Sys2Proof.Machine
end

