-- ==== Sys2Proof/Machine/Tone.lean ====
section
/-! DEFINITION. The test tone of an impedance check: its start, its codes and half-periods, and its end (13 R586–R594, R600). -/

namespace Sys2Proof.Machine

/-- The channel whose ZCHK fields set the tone: the lowest one named (13 R591, R597; log 27). -/
def zHead (r : ZRun) : Nat := (r.chans.head?.map ZChan.ch).getD 0

/-- The nearest whole number, at least 1. -/
def atLeastOne (x : Rat) : Nat := max 1 (roundAway x).toNat

/-- Phase increment N, or half-period h, of a target (13 R589). -/
def toneInc (s : State) (r : ZRun) : Nat :=
  let f := pVal s (idZchk 0 (zHead r))
  match r.target with
  | .cell _ => (roundAway (f * (2 ^ 32 : Nat) / 512000)).toNat
  | .film _ => 8 * atLeastOne (32000 / f)
  | .bridge _ => (roundAway (f * (2 ^ 32 : Nat) / 1000)).toNat

/-- First tick at which the tone is over (13 R590): the application tick after a cell's last cycle, the one of a film's last
half-period, the superframe after a bridge's last one. -/
def toneOver (r : ZRun) (t0 : Nat) : Nat :=
  match r.target with
  | .cell _ => if r.inc = 0 then t0 else t0 + 8 * ((r.cycles * 2 ^ 32 + 8 * r.inc - 1) / (8 * r.inc))
  | .film _ => t0 + r.cycles * 2 * r.inc
  | .bridge _ => if r.inc = 0 then t0 else t0 + 512 * ((r.cycles * 2 ^ 32 + r.inc - 1) / r.inc)

/-- A cell is BIASED: open, and its ramp done (09 R435). -/
def cellBiased (s : State) (k : Nat) : Bool := cellStatus s k == 3

/-- The conditions of R594 at t0. -/
def toneFit (s : State) (r : ZRun) : Bool :=
  match r.target with
  | .cell k => cellBiased s k && !isPlaying s (k + 1)
  | .film n => (frontOf s (8 + n)).range != 0
  | .bridge _ => true

/-- The tick of a superframe in which a tone may start (13 R590). -/
def toneTick (r : ZRun) : Nat :=
  match r.target with
  | .cell _ => 1
  | .film _ => 4
  | .bridge _ => 0

/-- First point of the tone: the cell's own code, the film's current at d − 1, no excitation added to a bridge. -/
def firstPoint (s : State) (r : ZRun) : Rat :=
  match r.target with
  | .cell k => biasVolt (biasCode (cellOf s k).target)
  | .film n => decadeA ((frontOf s (8 + n)).range - 1)
  | .bridge _ => 0

/-- The settings of a check, as they stand at its start: a later write governs the next one (13 R605). -/
def toneSettings (s : State) (r : ZRun) : ZRun :=
  let c := zHead r
  let win (x : ZChan) : Word × Word × Word × Word :=
    (param s (idZchk 4 x.ch), param s (idZchk 5 x.ch), param s (idZchk 6 x.ch), param s (idZchk 7 x.ch))
  { r with inc := toneInc s r, cycles := pNat s (idZchk 2 c) + 1, ampl := pVal s (idZchk 1 c),
           chans := r.chans.map (fun x => { x with win := some (win x) }) }

/-! ### The realised frequency (13 R589) -/

/-- The realised tone frequency of a channel's present settings (13 R589). -/
def zReal (s : State) (c : Nat) : Rat :=
  let zc : ZChan := { ch := c, xs := [], win := none, invalid := false, ended := false }
  let r : ZRun := { task := 0, target := zTargetOf c, chans := [zc], inc := 0, cycles := 0, ampl := 0, granted := false,
                    t0 := none, tEnd := 0, pts := [] }
  toneHz { r with inc := toneInc s r }

/-- F_REAL of a channel is formed: at a write of FREQ, and as a check takes its settings; before, it holds its reset value (13 R605;
log 107). -/
def realNote (s : State) (c : Nat) : State := { s with z.real := vset s.z.real c (f32Of (zReal s c)) }

/-- F_REAL follows a new value of its FREQ (13 R589). -/
def freqNote (s : State) (id : Nat) : State := if 0x1F00 ≤ id ∧ id < 0x1F0E then realNote s (id - 0x1F00) else s

/-- TONE_START: at its first application tick a granted target's tone begins at phase 0. -/
def execToneStart (s : State) : Host.Outcome State Fault Refusal :=
  .next (
    match s.z.run with
    | none => s
    | some r =>
      if !r.granted || r.t0.isSome || s.t.p != toneTick r then s
      else
        let chs := r.chans.map ZChan.ch
        let r0 := if r.cycles = 0 then toneSettings s r else r
        let r1 : ZRun := { r0 with t0 := some s.t.up, tEnd := 0, pts := [{ tick := s.t.up, val := firstPoint s r }],
                                   chans := r0.chans.map (fun x => { x with xs := [], invalid := false }) }
        let r2 := if toneFit s r then r1 else r1.spoil
        let s0 := if r.cycles = 0 then forEach s chs realNote else s
        let s1 := forEach { s0 with z.run := some r2 } (zChansOf r.target) (fun s c => modChain s c (markOpen .tone s.t.up))
        forEach s1 chs (fun s c => modChain s c (markOpen .tested s.t.up)))

/-- A deferred target starts again with its lead-in at the next grant; what made the removed attempt INVALID goes with it (13 R594,
R600). -/
def toneRestart (s : State) (r : ZRun) : State :=
  { s with z.run := some { r with t0 := none, tEnd := 0, pts := [], tone := 0,
                                  chans := r.chans.map (fun x => { x with xs := [], invalid := false }) } }

/-- Append a point applied at tick `u`. -/
def toneAdd (s : State) (r : ZRun) (u : Nat) (v : Rat) : State :=
  { s with z.run := some { r with pts := r.pts ++ [{ tick := u, val := v }] } }

/-- The tone is removed by a code or a write applied at the next tick: at its end, or for good cause (13 R590, R600). -/
def toneRemove (s : State) (r : ZRun) (done : Bool) : State :=
  let s1 := toneStop s r s.t.up
  let s2 := match r.target with
    | .cell k => toneBias s1 k (biasCode (cellOf s1 k).target)
    | .film n => toneReg s1 n (frontOf s1 (8 + n)).range
    | .bridge _ => s1
  if done then { s2 with z.run := some { r with tEnd := s.t.up, tone := 0 } } else toneRestart s2 r

/-- A later request of the running target was deferred for this superframe: its grant is gone, and the decision that took it
lies before p = 0. -/
def toneDropped (s : State) (r : ZRun) : Bool := !r.granted && s.sched.doneSf != some s.t.sf

/-- TONE_CODE: at p mod 8 = 0 the code of the next tick is handed over, the first at p = 0 with the tone at phase 0 (13 R586). -/
def execToneCode (s : State) : Host.Outcome State Fault Refusal :=
  .next (
    match s.z.run with
    | none => s
    | some r =>
      match r.target, r.t0 with
      | .cell k, none => if r.granted && s.t.p == 0 then toneBias s k (biasCode (cellOf s k).target) else s
      | .cell k, some t0 =>
        if s.t.p % 8 ≠ 0 ∨ r.tEnd ≠ 0 then s
        else if toneDropped s r then toneRemove s r false
        else if toneOver r t0 ≤ s.t.up + 1 then toneRemove s r true
        else
          let u := s.t.up + 1
          let x := r.ampl * sinT (toneTurns r t0 (u : Nat))
          let c := biasCode ((cellOf s k).target + x)
          toneAdd (toneBias s k c) { r with tone := x } u (biasVolt c)
      | _, _ => s)

/-- FILM_TONE_TOGGLE: at p mod 8 = 3 the write of a half-period that begins at the next tick is handed over; the square wave
starts at d − 1 (13 R587). A film at decade 0 has no lower one, and its check is INVALID (13 R594). -/
def execFilmToneToggle (s : State) : Host.Outcome State Fault Refusal :=
  .next (
    match s.z.run with
    | none => s
    | some r =>
      match r.target with
      | .film n =>
        let d := (frontOf s (8 + n)).range
        if s.t.p % 8 ≠ 3 ∨ r.tEnd ≠ 0 then s
        else
          match r.t0 with
          | none => if r.granted && s.t.p == 3 && d != 0 then toneReg s n (d - 1) else s
          | some t0 =>
            let u := s.t.up + 1
            if toneDropped s r then toneRemove s r false
            else if toneOver r t0 ≤ u then toneRemove s r true
            else if r.inc = 0 ∨ (u - t0) % r.inc ≠ 0 ∨ d = 0 then s
            else
              let v := if (u - t0) / r.inc % 2 = 0 then d - 1 else d
              toneAdd (toneReg s n v) r u (decadeA v)
      | _ => s)

/-- The running target asks for energy for the superframe that begins at tick `u` (13 R600). -/
def zAsks (s : State) (u : Nat) : Bool :=
  match s.z.run with
  | none => false
  | some r =>
    match r.t0 with
    | none => true
    | some t0 => r.tEnd == 0 && decide (u < toneOver r t0)

/-! ### What the decision brings to the running target (13 R600) -/

/-- Granted. -/
def zGranted (s : State) : State := { s with z.run := s.z.run.map (fun r => { r with granted := true }) }

/-- Deferred: a tone not yet started waits; one that runs is removed from the first application tick of that superframe, a
bridge's with its drive word. -/
def zDeferred (s : State) : State :=
  match s.z.run with
  | none => s
  | some r =>
    let r1 : ZRun := { r with granted := false }
    match r.target, r.t0 with
    | .bridge _, some _ => toneRestart (toneStop s r (s.t.up - s.t.p + 511)) r1
    | _, _ => { s with z.run := some r1 }

/-- After the last drive superframe that carries a bridge's tone, the tone has ended with the superframe before `u`, whatever becomes of
the bridge's own request (13 R590). -/
def bridgeToneOver (s : State) (b : Nat) (u : Nat) : State :=
  match s.z.run with
  | none => s
  | some r =>
    match r.t0 with
    | none => s
    | some t0 =>
      if r.target = .bridge b && r.tEnd == 0 && decide (toneOver r t0 ≤ u) then
        { toneStop s r (u - 1) with z.run := some { r with tEnd := u - 1 } }
      else s

/-- A bridge's granted drive word for the superframe beginning at `u` carries the tone (13 R588). -/
def bridgeToneNote (s0 : State) (b : Nat) (u : Nat) : State :=
  let s := bridgeToneOver s0 b u
  match s.z.run with
  | none => s
  | some r => if r.target = .bridge b && r.t0.isSome && r.tEnd == 0 && r.granted then toneAdd s r u ((bridgeTone s b : Rat) / 1000) else s

end Sys2Proof.Machine
end

