-- ==== Sys2Proof/Machine/Sched.lean ====
section
/-! DEFINITION. The energy decision of 17_energy_rations: income, caps, the requests of each task, their order, the verdict on each,
and what it brings (17 R735–R767). -/

namespace Sys2Proof.Machine

/-! ### Automatic tasks (17 R742, R743) -/

/-- A channel's check falls due. -/
def checkDue (s : State) (c : Nat) : Bool :=
  let n := pNat s (idZchk 3 c)
  n != 0 && (chainOf s c).started && !zBusy s c && decide (vget s.z.since c 0 + n ≤ s.t.sf)

/-- The channels due form one task of client 0, or owe it where the table is full (13 R598, 17 R743). -/
def periodicCreate (s : State) : State :=
  let chs := (List.range 14).filter (checkDue s)
  if chs.isEmpty then s
  else
    let obj : TaskObj := .periodic (chs.headD 0)
    if tasksFull s then { s with sched.owed := s.sched.owed ++ [obj] }
    else zEnqueue (taskNew s 0x2C .check orgUnit obj) (nextTaskNum s) chs

/-- A periodic task is owed. -/
def periodicOwed (s : State) : Bool := s.sched.owed.any (fun o => autoOpc o == 0x2C)

/-- The creation of owed tasks is tried again at each decision (17 R743). -/
def owedCreate (s : State) : State :=
  s.sched.owed.foldl (fun (s : State) o => if autoOpc o = 0x2C then periodicCreate s else autoTask s .chore o)
    { s with sched.owed := [] }

/-! ### Income (17 R735, R736) -/

/-- The header of this superframe is good and counts (04 R182, R193, R223). -/
def headerGood (s : State) : Bool := s.ring.hdr == .good && s.ring.lock == .locked && !isOrphan s

/-- Consecutive missing headers with this superframe's counted. -/
def missingNow (s : State) : Nat := if headerGood s then 0 else s.ring.missingRun + 1

/-- The ration source: r_in, MOTION used, and RATIONQ FLAGS bits [4:1]. -/
structure Ration where
  rin    : Nat
  motion : Bool
  flags  : Nat
  deriving DecidableEq, Repr

def rationOf (s : State) : Ration :=
  if s.ring.clk = .crystal then { rin := pNat s (idSched 8), motion := false, flags := 16 + 2 * b2n (headerGood s) }
  else if headerGood s then { rin := s.ring.ration.toNat, motion := s.ring.motion, flags := 2 }
  else if s.ring.anyGood ∧ missingNow s ≤ pNat s (idSched 6) then
    { rin := s.ring.ration.toNat, motion := s.ring.motion, flags := 4 }
  else { rin := pNat s (idSched 7), motion := true, flags := 8 }

/-- SHARE and KEEP of the tail at a Span lead: the values it has forwarded last; before, a free value in the parameter's range, as no message
carries them (19 R845; log 28). -/
def farSched (s : State) (id top : Nat) : Nat :=
  match aget s.twin.farCfg id with
  | some w => w.toNat
  | none => Config.tailSched id s.t.sf % (top + 1)
def farShare (s : State) : Nat := farSched s (idSched 0) 1024
def farKeep (s : State) : Nat := farSched s (idSched 2) 1000

/-- SHARE and KEEP of the decision: a Span lead's are the pair's (19 R845). -/
def shareOf (s : State) : Nat := pNat s (idSched 0) + if isSpanLead s then farShare s else 0
def keepOf (s : State) : Nat := pNat s (idSched 2) + if isSpanLead s then farKeep s else 0

/-! ### Caps (17 R739) -/

/-- The caps of one unit, as left by earlier grants of the decision. -/
structure Caps where
  thermal : Option Nat
  amps    : Rat
  noVhtr  : Bool
  sag     : Bool
  deriving DecidableEq, Repr

/-- A monitor's newest reading fit for the caps, in its SI unit. -/
def hkReading (s : State) (c : Nat) : Option Rat := (vget s.hk.newest (c - 18) none).map (fun x => convert s c 0 x.1)

/-- Hard and soft thermal caps. -/
def capHard (s : State) : Bool :=
  match hkReading s 18 with
  | some t => decide (pVal s (idSched 0xB) ≤ t)
  | none => false
def capSoft (s : State) : Bool :=
  match hkReading s 18 with
  | some t => decide (pVal s (idSched 0xA) ≤ t)
  | none => true
def capSag (s : State) : Bool :=
  match hkReading s 21 with
  | some v => decide (0 < pVal s (idSched 0xD)) && decide (v < pVal s (idSched 0xD))
  | none => false

def capsOf (s : State) : Caps :=
  { thermal := if capHard s then some 0 else if capSoft s then some (pNat s (idSched 0xC)) else none,
    amps := pVal s (idSched 9), noVhtr := !s.seam.vhtr, sag := capSag s }

/-! ### Requests (17 R741, R745, R748) -/

/-- What asks. -/
inductive Asker where
  | heater (n : Nat)
  | bridge (b : Nat)
  | check
  | chore
  /-- The partner's request (19 R844). -/
  | tail
  deriving DecidableEq, Repr

/-- A request: the taken packet it belongs to, if its task does not exist yet; its task; what R745 and R746 read of it; and the
drive word it would bring. -/
structure Req where
  asker  : Asker
  slot   : Option Nat
  task   : Nat
  cls    : TaskClass
  energy : Nat
  amps   : Rat
  vhtr   : Bool
  /-- Remaining allowance, superframe of creation, and place in the table. -/
  allow  : Nat
  born   : Nat
  place  : Nat
  /-- A deferral is within the limit. -/
  within : Bool
  word   : Nat
  deriving DecidableEq, Repr

def clsRank : TaskClass → Nat
  | .keep => 0 | .heat => 1 | .check => 2 | .chore => 3

/-- Served before: by class, then a Heat request by remaining allowance, then the older, then the lead's own, then table order. -/
def Req.before (a b : Req) : Bool :=
  let key (r : Req) : List Nat :=
    [clsRank r.cls, if r.cls = .heat then r.allow else 0, r.born, b2n (r.asker == .tail), r.place]
  decide (key a ≤ key b)

/-- Insert in order, behind its equals. -/
def reqInsert (r : Req) : List Req → List Req
  | [] => [r]
  | x :: xs => if x.before r then x :: reqInsert r xs else r :: x :: xs

def reqSort (rs : List Req) : List Req := rs.foldl (fun acc r => reqInsert r acc) []

/-- Age of a task in superframes. -/
def taskAge (s : State) (t : TaskRec) : Nat := s.t.sf - t.born

/-- An age within a limit. -/
def checkWithin (s : State) (t : TaskRec) : Bool := decide (taskAge s t ≤ pNat s (idSched 3))
def choreWithin (s : State) (t : TaskRec) : Bool := pNat s (idSched 4) == 0 || decide (taskAge s t ≤ pNat s (idSched 4))

/-- A request of task `t`, its home chapter's part still to be filled in. -/
def reqBase (s : State) (t : TaskRec) (asker : Asker) (energy : Nat) : Req :=
  { asker := asker, slot := none, task := t.num, cls := t.cls, energy := energy, amps := 0, vhtr := false, allow := 0,
    born := t.born, place := s.sched.tasks.findIdx (fun x => x.num == t.num),
    within := if t.cls = .chore then choreWithin s t else checkWithin s t, word := 0 }

/-- The request of a heater whose loop has run: none in an OFF step, or past a LEADCAL's last superframe. One whose fault abort is due
still asks, as a refusal falling due with it gives the reason (11 R523; log 106). -/
def heaterReq (s : State) (t : TaskRec) (n : Nat) : Option Req :=
  let h := htrOf s n
  match h.lead, h.prof with
  | some r, _ =>
    if 34 ≤ r.idx then none
    else some { reqBase s t (.heater n) (dutyEnergy s n r.d) with amps := dutyAmps s n r.d, vhtr := true, word := r.d }
  | none, some _ =>
    let w := stepNow s n
    if stMode w ≤ 1 then none
    else
      some { reqBase s t (.heater n) (dutyEnergy s n h.next) with
               amps := dutyAmps s n h.next, vhtr := true, allow := stDefer w - h.defers,
               within := decide (h.defers + 1 ≤ stDefer w), word := h.next }
  | none, none => none

/-- The request of a bridge whose loop has run (10 R465, R467). -/
def bridgeReq (s : State) (t : TaskRec) (b : Nat) : Option Req :=
  let g := brgOf s b
  match g.ask with
  | none => none
  | some (c, e) =>
    let lim := pNat s (idBrg b 4)
    some { reqBase s t (.bridge b) e with
             amps := (c : Nat) / 1000 / pVal s (idBrg b 2), vhtr := true, allow := lim - g.defers,
             within := decide (g.defers + 1 ≤ lim), word := c }

/-- The request of a check: the running target's, 12 µJ (13 R600). -/
def checkReq (s : State) (t : TaskRec) : Option Req :=
  match s.z.run with
  | none => none
  | some r =>
    if r.task = t.num && zAsks s (s.t.up - s.t.p + 512) then
      some { reqBase s t .check 12 with within := checkWithin s t }
    else none

/-- The request of one task, or none yet (17 R762). -/
def taskReq (s : State) (t : TaskRec) : Option Req :=
  match t.obj with
  | .profile n => heaterReq s t n
  | .leadcal n => heaterReq s t n
  | .bridge b => bridgeReq s t b
  | .zcheck _ => checkReq s t
  | .periodic _ => checkReq s t
  | _ => if t.cls = .chore then some (reqBase s t .chore 10) else none

def taskReqs (s : State) (ts : List TaskRec) : List Req := ts.filterMap (taskReq s)

/-! ### The verdicts (17 R746, R747) -/

/-- The decision under way. -/
structure Deciding where
  avail   : Nat
  taken   : Nat
  own     : Caps
  far     : Caps
  heatDef : Bool
  out     : List (Req × Verdict)
  deriving DecidableEq, Repr

/-- The state allows a class. -/
def clsAllowed (st : UState) : TaskClass → Bool
  | .heat => st == .run
  | .check => st == .run
  | _ => true

/-- The reason a request cannot be granted, or 0. -/
def noGrant (d : Deciding) (c : Caps) (r : Req) : Nat :=
  let hc := r.cls == .heat || r.cls == .check
  if hc && c.sag then 3
  else if hc && (match c.thermal with
    | some t => decide (t < r.energy)
    | none => false) then 2
  else if r.vhtr && decide (c.amps < r.amps) then 3
  else if (r.cls == .check || r.cls == .chore) && d.heatDef then 4
  else if r.energy ≤ d.avail - d.taken then 0
  else if r.energy ≤ d.avail then 4
  else 1

/-- Statuses of a decision as its verdicts carry them (06 R300): granted is ACCEPTED. -/
def vGrant : Nat := 1
def vDefer : Nat := 2
def vRefuse : Nat := 3

/-- The verdict on the next request. -/
def verdictOf (st : UState) (d : Deciding) (r : Req) : Verdict :=
  let c := if r.asker = .tail then d.far else d.own
  if r.asker != .tail && !clsAllowed st r.cls then { status := vRefuse, reason := 6, energy := r.energy }
  else if r.vhtr && c.noVhtr then { status := vRefuse, reason := 3, energy := r.energy }
  else
    let n := noGrant d c r
    if n = 0 then { status := vGrant, reason := 0, energy := r.energy }
    else if r.within then { status := vDefer, reason := n, energy := r.energy }
    else { status := vRefuse, reason := 5, energy := r.energy }

/-- Caps less a grant. -/
def Caps.less (c : Caps) (r : Req) : Caps :=
  { c with thermal := if r.cls = .heat ∨ r.cls = .check then c.thermal.map (· - r.energy) else c.thermal,
           amps := if r.vhtr then c.amps - r.amps else c.amps }

def decideNext (st : UState) (d : Deciding) (r : Req) : Deciding :=
  let v := verdictOf st d r
  let g := v.status == vGrant
  { d with taken := d.taken + (if g then r.energy else 0),
           own := if g && r.asker != .tail then d.own.less r else d.own,
           far := if g && r.asker == .tail then d.far.less r else d.far,
           heatDef := d.heatDef || (r.cls == .heat && v.status == vDefer),
           out := d.out ++ [(r, v)] }

/-- Verdicts on every request, in the order served. -/
def decideAll (st : UState) (avail : Nat) (own far : Caps) (rs : List Req) : Deciding :=
  (reqSort rs).foldl (decideNext st) { avail := avail, taken := 0, own := own, far := far, heatDef := false, out := [] }

/-! ### What a verdict brings (17 R749–R752) -/

/-- Leave something for p = 0 of the coming drive superframe. -/
def dueAdd (s : State) (d : DriveDue) : State := { s with sched.due := s.sched.due ++ [d] }

/-- TASK_DEFER, at a first deferral or a change of reason. -/
def deferLog (s : State) (n reason : Nat) (origin : BitVec 16) : State :=
  match taskOf s n with
  | none => s
  | some t =>
    if t.logged = some (byteOf reason) then s
    else taskMod (logE s origin 0x0060 n (t.opc.setWidth 32) (natW reason)) n (fun t => { t with logged := some (byteOf reason) })

/-- TASK_REFUSE. -/
def refuseLog (s : State) (n reason : Nat) (origin : BitVec 16) : State :=
  match taskOf s n with
  | none => s
  | some t => logE s origin 0x0061 n (t.opc.setWidth 32) (natW reason)

/-- The NV region a chore writes (07 R336); a load writes none. -/
def choreRegion (t : TaskRec) : Option Nat :=
  match t.obj with
  | .nvsave m => if bit m 0 && t.stage = 0 then some 1 else some 2
  | .calwrite _ _ _ => some 1
  | .sealLog _ => some 3
  | .rights => some 4
  | _ => none

/-- The NV write of a granted chore begins; NV serves one write at a time (03 R166). -/
def nvBegin (s : State) (t : TaskRec) : State :=
  if s.nv.writing.isSome then s else { s with nv.writing := (choreRegion t).map (fun r => (r, t.num)), nv.staged := none }

/-- An NV write broken off once it has started leaves its image failing its check (03 R166). -/
def nvTear (s : State) : State :=
  match s.nv.writing, s.nv.staged with
  | some (r, _), some _ =>
    let n := { s.nv with writing := none, staged := none, sealing := [] }
    { s with nv := match r with
      | 1 => { n with cfg := .bad }
      | 2 => { n with copies := .bad }
      | 3 => { n with sealDesc := .bad }
      | _ => { n with rights := .bad } }
  | _, _ => { s with nv.writing := none, nv.staged := none, nv.sealing := [] }

/-- The NV write of a task that ends is broken off. -/
def nvDrop (s : State) (n : Nat) : State :=
  if (match s.nv.writing with
    | some w => w.2 == n
    | none => false) then nvTear s else s

/-- Record a grant or a deferral in the task table. -/
def taskNote (s : State) (r : Req) (v : Verdict) : State :=
  taskMod s r.task (fun t =>
    if v.status = vGrant then
      { t with state := .granted, energy := v.energy, defers := if t.cls = .heat then 0 else t.defers }
    else { t with state := .deferred, energy := v.energy, reason := byteOf v.reason, defers := t.defers + 1 })

/-- A request of an existing task is granted. -/
def ownGranted (s : State) (r : Req) : State :=
  match r.asker with
  | .heater n => heatGranted s n r.energy
  | .bridge b => bridgeGranted (bridgeToneNote s b (s.t.up - s.t.p + 512)) b r.energy
  | .check => zGranted s
  | .chore => match taskOf s r.task with
    | some t => nvBegin s t
    | none => s
  | .tail => s

/-- The origin of the entries a verdict brings (17 R752, 19 R838). -/
def Verdict.origin (v : Verdict) : BitVec 16 := if v.far then orgTwin else orgUnit

def ownDeferred (s : State) (r : Req) (v : Verdict) : State :=
  let s1 := dueAdd s (.deferred r.task v.reason v.origin)
  match r.asker with
  | .heater n => heatDeferred s1 n
  | .bridge b => bridgeDeferred (bridgeToneOver s1 b (s.t.up - s.t.p + 512)) b
  | .check => zDeferred s1
  | _ => s1

/-- A refusal: no word goes out; the task ends at p = 0, and a heater's abort follows there (11 R510). -/
def ownRefused (s : State) (r : Req) (v : Verdict) : State :=
  match r.asker with
  | .heater n => heatRefused s n (byteOf v.reason)
  | .bridge b => dueAdd (driveSet (modBrg s b (fun g => { g with ask := none })) (4 + b) 0) (.bridgeEnd b r.task v.reason v.origin)
  | .check => dueAdd { s with z.run := s.z.run.map (fun z => { z with granted := false }) } (.checkEnd r.task v.reason v.origin)
  | .chore => dueAdd s (.choreEnd r.task v.reason v.origin)
  | .tail => s

/-- TASK_REFUSE and what ends with it, for a task that still stands (17 R752, 11 R524). -/
def refuseEnd (s : State) (task reason : Nat) (origin : BitVec 16) (f : State → State) : State :=
  if (taskOf s task).isSome then f (refuseLog s task reason origin) else s

/-- What a decision has left for this p = 0. -/
def dueOne (s : State) (d : DriveDue) : State :=
  match d with
  | .deferred task reason o => deferLog s task reason o
  | .bridgeEnd b task reason o => refuseEnd s task reason o (fun s => bridgeRefused (taskEndBy o s task 3 reason []) b)
  | .checkEnd task reason o => refuseEnd s task reason o (fun s => zRefuse s o task reason)
  | .choreEnd task reason o => refuseEnd s task reason o (fun s => taskEndBy o (nvDrop s task) task 3 reason [])
  | .profileEnd n => heatFinished s n

/-- The automatic effects of the decision just past, in the order of its verdicts (07 R331, 17 R752). -/
def decisionRun (s : State) : State := s.sched.due.foldl dueOne { s with sched.due := [] }

/-- The verdict of a packet not yet executed, or of a part a tail has been sent. -/
def packetVerdict (s : State) (i : Nat) (v : Verdict) : State :=
  if isTail s then
    { s with twin.fwdIn := s.twin.fwdIn.mapIdx (fun j f => if j = i then { f with verdict := some v } else f) }
  else { s with cmd.taken := s.cmd.taken.mapIdx (fun j t => if j = i then { t with verdict := some v } else t) }

/-- A verdict on a task not yet created goes to its packet, its drive word out with the others (17 R750). -/
def slotVerdict (s : State) (r : Req) (i : Nat) (v : Verdict) : State :=
  let w := if v.status = vGrant then r.word else 0
  let s1 := packetVerdict s i { v with word := w }
  match r.asker with
  | .heater n => driveSet s1 n w
  | _ => s1

/-- Apply one verdict. -/
def applyVerdict (s : State) (x : Req × Verdict) : State :=
  match x.1.slot with
  | some i => slotVerdict s x.1 i x.2
  | none =>
    if x.2.status = vGrant then ownGranted (taskNote s x.1 x.2) x.1
    else if x.2.status = vDefer then ownDeferred (taskNote s x.1 x.2) x.1 x.2
    else ownRefused s x.1 x.2

/-- Checks first, so that a bridge's word carries its tone or not, and packets not yet executed last. -/
def applyVerdicts (s : State) (out : List (Req × Verdict)) : State :=
  let old := out.filter (fun x => x.1.asker != .tail && x.1.slot.isNone)
  let new := out.filter (fun x => x.1.asker != .tail && x.1.slot.isSome)
  ((old.filter (fun x => x.1.asker == .check)) ++ old.filter (fun x => x.1.asker != .check) ++ new).foldl applyVerdict s

/-! ### Heaters that ask nothing (11 R506, R507, R496) -/

/-- Run the loop of a heater for the coming superframe, and settle what asks for no energy. -/
def heaterTurn (s : State) (n : Nat) : State :=
  let h := htrOf s n
  match h.lead with
  | some r =>
    if r.idx = 0 then modHtr s n (fun h => { h with lead := some { r with d := leadDuty s n } })
    else if r.idx < 34 then s
    else if h.abort.isSome then driveSet s n 0
    else driveSet (modHtr s n (fun h => { h with lead := some { r with idx := r.idx + 1 }, deferNext := false })) n 0
  | none =>
    if h.prof.isNone then s
    else if (stepReady s n).2 then (if h.abort.isSome then driveSet s n 0 else dueAdd (driveSet s n 0) (.profileEnd n))
    else
      let s1 := heaterLoop s n
      if stMode (stepNow s1 n) = 1 then heatGranted s1 n 0 else s1

/-- Every loop's computation before the requests are taken. -/
def loopsRun (s : State) : State :=
  forEach (forEach s (List.range 4) heaterTurn) [0, 1] (fun s b => if (brgOf s b).ask.isNone then bridgeLoop s b else s)

/-! ### Bank and report (17 R737, R757) -/

/-- The bank after a decision with net income `net` that spent `spent`. -/
def bankNext (s : State) (motion : Bool) (net spent : Nat) : Nat :=
  let bank := s.sched.bank
  if motion then bank
  else
    let b := bank - (spent - net)
    min (b + (net - spent)) (max b (pNat s (idSched 1) * net))

def sumOf (out : List (Req × Verdict)) (p : Req → Bool) : Nat :=
  ((out.filter (fun x => x.2.status == vGrant && p x.1)).map (fun x => x.1.energy)).foldl (· + ·) 0

def countOf (out : List (Req × Verdict)) (st : Nat) : Nat := (out.filter (fun x => x.2.status == st)).length

/-- Requests of waiting checks are served one target at a time: the rest ask nothing (13 R599). -/
def decideRecord (s : State) (ra : Ration) (income net : Nat) (out : List (Req × Verdict)) : State :=
  let amps := ((out.filter (fun x => x.2.status == vGrant && x.1.vhtr)).map (fun x => x.1.amps)).foldl (· + ·) (0 : Rat)
  let spent := sumOf out (fun _ => true)
  let d : Decision :=
    { rin := ra.rin,
      flags := byteOf (b2n ra.motion + ra.flags + 32 * b2n (capSoft s) + 64 * b2n (capHard s) + 128 * b2n (capSag s)),
      share := shareOf s, income := income, net := net, heat := sumOf out (fun r => r.cls == .heat),
      check := sumOf out (fun r => r.cls == .check), chore := sumOf out (fun r => r.cls == .chore),
      ihtr := (amps * 1000).ceil.toNat, defers := countOf out vDefer, refuses := countOf out vRefuse,
      missing := missingNow s }
  { s with sched := { s.sched with bank := bankNext s ra.motion net spent, last := some d,
                                   deferrals := s.sched.deferrals + countOf out vDefer,
                                   refusals := s.sched.refusals + countOf out vRefuse, doneSf := some s.t.sf },
           ring.missingRun := missingNow s }

/-- A task that asked for nothing in the decision waits, and shows no energy (17 R756, R762; log 108). -/
def askedNone (s : State) (rs : List Req) : State :=
  { s with sched.tasks := s.sched.tasks.map (fun t =>
      if t.cls = .keep ∨ rs.any (fun r => r.asker != .tail && r.slot.isNone && r.task == t.num) then t
      else { t with state := .waiting, energy := 0 }) }

/-- One decision over the unit's own requests, those of packets not yet executed, and the partner's. -/
def decideRun (s0 : State) (extra far : List Req) (farCaps : Caps) : State × List (Req × Verdict) :=
  let s := loopsRun (owedCreate s0)
  let ra := rationOf s
  let income := ra.rin * shareOf s / 256
  let net := income - keepOf s
  let avail := if ra.motion then net else net + s.sched.bank
  let own := taskReqs s s.sched.tasks
  let d := decideAll s.u.st avail (capsOf s) farCaps (own ++ extra ++ far)
  (applyVerdicts (askedNone (decideRecord s ra income net d.out) own) d.out, d.out)

end Sys2Proof.Machine
end

