-- ==== Sys2Proof/Machine/Read.lean ====
section
/-! DEFINITION. Reading a parameter of the unit's own pages: its stored value, or the status, reading or count its page defines
(20 R876, R881, R891–R897 and the page tables of the owning chapters). -/

namespace Sys2Proof.Machine

/-! ### Counts and flags as carriers -/

/-- A count that wraps in its carrier. -/
def cnt (n : Nat) : Word := natW n

/-- A count that stops at the largest value of its field. -/
def sat (n max : Nat) : Word := natW (min n max)

/-- Flags as a carrier, bit 0 first. -/
def flagsW (bs : List Bool) : Word := natW (packFlags bs)

/-- STATE FLAGS of 03 R125 byte 1. -/
def stateFlags (s : State) : Nat :=
  packFlags [isOrphan s, s.u.armed, s.t.unaligned, decide (safeCauses s ≠ 0), s.seam.vhtr, s.seam.vdrv, s.seam.vdda]

/-- CLK source codes (20 R893, 07 R335). -/
def clkCode : ClkSrc → Nat
  | .cki => 0 | .crystal => 1 | .backup => 2

def lockCode : Lock → Nat
  | .unlocked => 0 | .acquiring _ => 1 | .locked => 2

/-! ### Time (08 R361, R372–R377, R380) -/

/-- The lag of the unit in CLK, for a hop count of 1–60. -/
def lagClk (s : State) : Option Nat :=
  if 1 ≤ s.ring.hop ∧ s.ring.hop ≤ 60 then some (8 * s.ring.hop - 7 + pNat s idCable) else none

/-- D of 08 R361. -/
def lagTicks (s : State) : Nat := (lagClk s).getD 0 / 64

/-- ⌊(count + O) / 512⌋ ms; none below 0. -/
def wallAt (count : BitVec 48) (o : Int) : Option Nat :=
  let w := ((count.toNat : Int) + o) / 512
  if w < 0 then none else some w.toNat

def readTime (s : State) (i : Nat) : Word :=
  let m := s.t.off.isSome
  match i with
  | 0x00 => s.t.era.setWidth 32
  | 0x01 => tick32 s
  | 0x02 => natW (s.t.count.toNat / 2 ^ 32)
  | 0x03 => flagsW [s.t.unaligned, m, decide (s.t.slewLeft ≠ 0)]
  | 0x05 => natW (lagTicks s)
  | 0x06 => natW ((lagClk s).getD 0 % 64)
  | 0x08 => if m then natW (s.t.mapWall.toNat / 2 ^ 32) else 0
  | 0x09 => if m then natW s.t.mapWall.toNat else 0
  | 0x0A => if m then natW (s.t.mapTick.toNat / 2 ^ 32) else 0
  | 0x0B => if m then natW s.t.mapTick.toNat else 0
  | 0x0C => natW s.t.slewLeft
  | 0x0D => cnt s.t.smallCorr
  | 0x0E => cnt s.t.steps
  | 0x0F => cnt (s.t.eraStarts % 65536)
  | _ => 0

/-! ### Identity, unit, ring, clients, Logbook -/

def readIdent (s : State) (i : Nat) : Word :=
  match i with
  | 0 => natW (s.fac.serial.toNat / 2 ^ 32)
  | 1 => natW s.fac.serial.toNat
  | 2 => s.fac.romRev.setWidth 32
  | 3 => s.seam.frev.setWidth 32
  | 4 => s.fac.romCrc
  | 5 => s.fac.crc
  | _ => s.fac.calDay

def readUnit (s : State) (i : Nat) : Word :=
  match i with
  | 0x00 => natW (stCode s.u.st)
  | 0x01 => natW (stateFlags s)
  | 0x02 => natW s.u.rcause
  | 0x03 => s.u.safecause.setWidth 32
  | 0x04 => natW s.ring.peg
  | 0x05 => natW s.ring.hop
  | 0x06 => natW s.ring.savedPeg
  | 0x07 => natW s.ring.savedHop
  | _ => cnt s.t.sf

def readRidge (s : State) (i : Nat) : Word :=
  match i with
  | 0x01 => natW (lockCode s.ring.lock)
  | 0x02 => natW (clkCode s.ring.clk)
  | 0x03 => flagsW [isOrphan s, s.ring.beaconing, s.ring.beaconLock, s.ring.lastBad]
  | 0x04 => cnt s.ring.cmdBad
  | 0x05 => cnt s.ring.cmdOver
  | 0x06 => cnt s.ring.missed
  | 0x07 => cnt s.ring.poisoned
  | 0x08 => cnt s.ring.clashes
  | 0x09 => cnt s.ring.realigns
  | 0x0A => cnt s.ring.orphans
  | _ => s.ring.lastSfn

/-- The role a client holds (07 R313, R315). -/
def roleOf (s : State) (c : Nat) : Nat := (aget s.rights.roles c).getD observer

/-- Clients holding Keeper. -/
def keepers (s : State) : Nat := (s.rights.roles.filter (fun x => x.2 == keeper)).length

def readClient (s : State) (i : Nat) : Word :=
  match i with
  | 0 => natW (keepers s)
  | 1 => natW s.rights.holdoff
  | 2 => cnt s.rights.claimFails
  | 3 => cnt (s.rights.recoveries % 65536)
  | _ => natW (roleOf s (i - 0x80))

def noSeq : Word := 0xFFFFFFFF#32

def readLog (s : State) (i : Nat) : Word :=
  match i with
  | 0x02 => s.log.freeTo
  | 0x08 => natW s.log.entries.length
  | 0x09 => (s.log.entries.head?.map Entry.seq).getD noSeq
  | 0x0A => (s.log.entries.getLast?.map Entry.seq).getD noSeq
  | 0x0B => s.log.anchor
  | 0x0C => s.log.newestCheck
  | 0x0D => cnt s.log.overwritten
  | 0x0E => cnt s.log.unlogged
  | 0x10 => match s.nv.sealDesc with
    | .good d => d.seq
    | _ => noSeq
  | 0x11 => match s.nv.sealDesc with
    | .good d => natW d.count
    | _ => 0
  | 0x12 => match s.nv.sealDesc with
    | .good d => cnt d.writes
    | _ => 0
  | _ => 0

/-! ### Scheduler -/

/-- RATIONQ FLAGS and the last decision's figures; before the first, all 0. -/
def lastDec (s : State) : Decision :=
  s.sched.last.getD { rin := 0, flags := 0, share := pNat s (idSched 0), income := 0, net := 0, heat := 0, check := 0,
                      chore := 0, ihtr := 0, defers := 0, refuses := 0, missing := 0 }

def readSched (s : State) (i : Nat) : Word :=
  let d := lastDec s
  match i with
  | 0x10 => sat d.income 65535
  | 0x11 => sat d.net 65535
  | 0x12 => sat s.sched.bank 0xFFFFFFFF
  | 0x13 => d.flags.setWidth 32
  | 0x14 => sat d.missing 65535
  | 0x15 => sat s.sched.skipped 65535
  | 0x16 => natW s.sched.tasks.length
  | 0x17 => cnt s.sched.deferrals
  | _ => cnt s.sched.refusals

/-! ### Twin (19 R867) -/

def twinStatus (s : State) : Nat :=
  packFlags [s.twin.active, s.twin.join.isSome, s.twin.lost, s.twin.fallback, s.twin.byRequest, s.twin.byLink, s.twin.alrt,
             s.twin.aflt]

def readTwin (s : State) (i : Nat) : Word :=
  match i with
  | 0 => natW s.twin.mode
  | 1 => natW s.twin.partner
  | 2 => natW (s.twin.serial.toNat / 2 ^ 32)
  | 3 => natW s.twin.serial.toNat
  | 4 => natW (twinStatus s)
  | 5 => natW s.twin.joinResult
  | 6 => s.twin.partnerSt.setWidth 32
  | 7 => cnt s.twin.exchanges
  | _ => cnt s.twin.fails

/-! ### Channels -/

/-- The last tag on a grid of period `p` whose span of `n` ticks still reaches tick `l`. -/
def lastTag (base : Int) (p n : Nat) (l : Int) : Int :=
  let hi : Int := l + (n : Int) - 1
  if p = 0 then hi else hi - (hi - base + 1) % (p : Int)

/-- The least tag a running channel may still form: one not yet output, of a code it takes and a conversion begun in time (12 R545, R547, R560,
R563); a single conversion has one. -/
def nextTagFrom (s : State) (c : Nat) : Int :=
  let ch := chainOf s c
  let now : Int := max ((s.t.up : Int) - 2) (ch.from_ : Int)
  match ch.conv with
  | some t => (t : Int) + (chainPscs s c : Int) - 1
  | none =>
    if pOn s (idFilt c 5) then max now (((max (ch.ref.getD s.t.up) ch.from_ + chainPscs s c : Nat) : Int) - 1) else now

/-- A running channel will still form a sample whose span meets a mark, or one is formed and not yet output (09 R429). -/
def markPending (s : State) (c : Nat) (m : Mark) : Bool :=
  let ch := chainOf s c
  let n := chainS s c
  let t0 := nextTagFrom s c
  ch.outs.any (fun o => m.meets ((o.tag : Int) - (n : Int) + 1) o.tag) ||
  (filtRunning s c && (s.u.st != .vigil || ch.conv.isSome) &&
    (match m.last, ch.conv with
     | none, some t => decide ((m.first : Int) ≤ (t : Int) + (chainPscs s c : Int) - 1)
     | none, none => true
     | some l, some _ => decide (t0 - (n : Int) + 1 ≤ (l : Int)) && decide ((m.first : Int) ≤ t0)
     | some l, none =>
       decide (m.first ≤ l) &&
       (if ch.isSnap then decide (s.t.up ≤ l) else decide (t0 ≤ lastTag (originOf ch) (outPeriod s c) n l))))

/-- The channel has a sample pending whose span meets a neighbour's interval (09 R429, 10 R475). -/
def neighbourPending (s : State) (n : Nat) : Bool :=
  (chainOf s n).marks.any (fun m => (neighbours n).any (fun src => m.kind == .neighbour src) && markPending s n m)

/-- AMP[n].STATUS and MOX[n].STATUS bits 0–7. A MOX source is off while its modulator is held reset (10 R450). -/
def frontStatus (s : State) (n : Nat) : List Bool :=
  let f := frontOf s n
  [(chainOf s n).started, f.on && (n < 8 || !f.closed), f.closed, f.sat.isSome, f.suspended, f.bound, f.pin.isSome, neighbourPending s n]

def readAmp (s : State) (n i : Nat) : Word :=
  let f := frontOf s n
  match i with
  | 0x08 => natW f.range
  | 0x09 => flagsW (frontStatus s n)
  | 0x0A => cnt f.satCount
  | 0x0B => cnt f.steps
  | _ => cnt f.clamps

def readCell (s : State) (k i : Nat) : Word :=
  match i with
  | 0x08 => natW (cellStatus s k)
  | 0x09 => f32Of (biasVolt (vget s.fd.bias k 8192))
  | 0x0A => (vget s.fd.bias k 8192).setWidth 32
  | _ => natW (cellOf s k).task

def readMox (s : State) (n i : Nat) : Word :=
  let f := frontOf s (8 + n)
  match i with
  | 0x07 => match (moxOf s n).cap with
    | some c => natW c.left
    | none => 0
  | 0x08 => natW f.range
  | 0x09 => flagsW (frontStatus s (8 + n) ++ [(moxOf s n).cap.isSome])
  | 0x0A => cnt f.satCount
  | 0x0B => cnt f.steps
  | 0x0C => cnt f.clamps
  | 0x0D => flagW (moxOf s n).leadSrc
  | _ => (moxOf s n).rNow

/-- CRC-32 of a profile's 256 bytes (11 R503). -/
def profCrc (s : State) (p : Nat) : Word :=
  natW (crc32 (((vget s.profiles p []).map (fun w => beBytes 8 w.toNat)).flatten))

def readHtr (s : State) (n i : Nat) : Word :=
  let h := htrOf s n
  match i with
  | 0x10 => flagsW [h.prof.isSome, s.seam.htrOn.getLsbD n, (regWant s (0x10 + n)).getLsbD 1, h.bound, h.deferNow, h.isOpen,
                    h.isShort, h.limitNow, h.lead.isSome, h.settleNow, h.aborted, h.fault]
  | 0x11 => natW (profCode h)
  | 0x12 => if h.prof.isSome then natW h.step else 0
  | 0x13 => if h.prof.isSome then natW (stDur (stepNow s n) - h.done) else 0
  | 0x14 => natW (h.repeats.getD 0)
  | 0x15 => natW h.duty
  | 0x16 => h.rNow
  | 0x17 => h.tNow
  | 0x18 => h.pNow
  | 0x19 => h.iNow
  | 0x1A => sat h.energy 65535
  | 0x1B => natW h.task
  | 0x1C => cnt h.deferrals
  | 0x1D => flagW h.leadSrc
  | 0x1E => cnt h.ilim
  | _ => profCrc s (i - 0x20)

def readBrg (s : State) (b i : Nat) : Word :=
  let g := brgOf s b
  match i with
  | 0x08 => f32Of ((g.code : Rat) / 1000)
  | 0x09 => flagsW [(chainOf s (12 + b)).started, g.running && decide (g.code ≠ 0) && !g.off, g.running && s.u.st != .safe && decide (g.target ≠ some (pVal s (idBrg b 0))),
                    g.running && g.warmNow, g.deferNow, g.bound, g.pin.isSome, g.limitNow, g.sat.isSome]
  | 0x0A => sat g.energy 65535
  | 0x0B => natW g.task
  | 0x0C => cnt g.satCount
  | 0x0D => cnt g.clamps
  | 0x0E => g.ratioNow
  | _ => cnt g.deferrals

def readHouse (s : State) (i : Nat) : Word :=
  if i ≤ 5 then vget s.fac.houseGain i 0
  else if 8 ≤ i ∧ i ≤ 0xD then vget s.fac.houseOff (i - 8) 0
  else if 0x10 ≤ i ∧ i ≤ 0x15 then vget s.hk.now (i - 0x10) nanW
  else natW ((regWant s 0x17).toNat % 4)

def readZchk (s : State) (i : Nat) : Word :=
  let n := i % 16
  match i / 16 with
  | 0x8 => vget s.z.zNow n nanW
  | 0x9 => vget s.z.phNow n 0
  | 0xA => natW (vget s.z.outcome n 0)
  | 0xB => vget s.z.tick n 0
  | 0xC => cnt (vget s.z.fails n 0)
  | 0xD => vget s.z.real n 0
  | 0xF =>
    if n = 0 then
      match s.z.run with
      | some r => (match r.chans.find? (fun x => !x.ended) with
        | some x => natW (x.ch + 1)
        | none => 0)
      | none => 0
    else natW s.z.queue.length
  | _ => 0

/-- CRC-32 of a user set's half-coefficients, or 0 (12 R575). -/
def usetCrc (s : State) (k : Nat) : Word :=
  let h := vget s.usets k []
  if h.isEmpty then 0 else natW (crc32 ((h.map (fun c => beBytes 3 c.toNat)).flatten))

/-- Samples not yet formed whose span straddles a reference tick. -/
def straddles (s : State) (c : Nat) (ref : Nat) : Nat :=
  let n : Int := (outPeriod s c : Nat)
  let b := baseNow (chainOf s c)
  let lo : Int := max (ref : Int) ((s.t.up : Int) - 3)
  (((ref : Int) + (chainS s c : Nat) - 1 - b) / n - (lo - b) / n).toNat

/-- SETTLE_LEFT: the largest count outstanding (12 R562); while a range change is held, its count is still whole. -/
def settleLeft (s : State) (c : Nat) : Nat :=
  if !filtRunning s c then 0
  else
    let held := if markIsOpen .hold (chainOf s c) then max 1 (if scsMode s c then 1 else chainNG s c) else 0
    ((chainOf s c).settle.map (fun e => max e.left (straddles s c e.ref))).foldl max held

/-- A conversion of an SCS chain has begun (12 R560, R563, R564). -/
def scsRunning (s : State) (c : Nat) : Bool :=
  let ch := chainOf s c
  match ch.conv with
  | some t => decide (t ≤ s.t.up)
  | none =>
    ch.started && pOn s (idFilt c 5) && s.u.st != .vigil &&
    (match ch.ref with
     | some r =>
       let n := chainPscs s c
       let m : Int := (max r ch.from_ : Nat)
       n != 0 && decide (m + (baseNow ch - m) % (n : Int) ≤ (s.t.up : Int))
     | none => false)

def readFilt (s : State) (c i : Nat) : Word :=
  let ch := chainOf s c
  let dead := chainDead s c
  match i with
  | 0x10 => flagsW [ch.started, ch.isSnap, ch.frozen, ch.dcInit,
                    (filtRunning s c && !scsMode s c && ch.ref.isNone) || settleLeft s c != 0,
                    scsRunning s c]
  | 0x11 => if dead then 0 else f32Of (512000 / (outPeriod s c : Nat))
  | 0x12 => if dead then 0 else natW (outPeriod s c)
  | 0x13 => if dead then 0 else natW (chainS s c)
  | 0x14 => if dead then 0 else natW (chainG s c)
  | 0x15 => sat (settleLeft s c) 65535
  | 0x16 => ch.last
  | 0x17 => ch.lastBlk
  | 0x18 => f32Of ((ch.dcEst : Rat) / (2 ^ 24 : Nat))
  | _ =>
    if i < 0x50 then natW (let h := (vget s.usets (i - 0x40) []).length
      if h = 0 then 0 else 2 * h - 1)
    else usetCrc s (i - 0x50)

/-! ### Tripwire, capture, alarms, tally -/

def tripCode : TripState → Nat
  | .disarmed => 0 | .armed => 1 | .dead => 2

def readTrip (s : State) (i : Nat) : Word :=
  let g := s.trip.last
  match i with
  | 0x90 => natW (tripCode s.trip.st)
  | 0x91 => s.trip.armed.setWidth 32
  | 0x92 => s.trip.armId.setWidth 32
  | 0x93 => cnt s.trip.triggers
  | 0x94 => natW ((g.map Trigger.source).getD 0xFF)
  | 0x95 => natW ((g.map Trigger.type).getD 0)
  | 0x96 => natW ((g.map (fun g => g.tick.toNat)).getD 0 / 2 ^ 32)
  | 0x97 => natW ((g.map (fun g => g.tick.toNat)).getD 0)
  | 0x98 => natW ((g.map (fun g => g.frac.toNat)).getD 0)
  | 0x99 => s.trip.lastCoinc.setWidth 32
  | 0x9A => natW ((g.map Trigger.rule).getD 0)
  | 0x9B => sat (deadTicks s) 0xFFFFFFFF
  | _ => sat s.trip.missed 65535

def phaseCode : CaptPhase → Nat
  | .empty => 0 | .recording => 1 | .post => 2 | .closed => 3 | .full => 4

def streamCode : StreamState → Nat
  | .off => 0 | .on => 1 | .overflow => 2

def readCapt (s : State) (i : Nat) : Word :=
  let c := s.capt
  match i with
  | 0x40 => natW (phaseCode c.phase)
  | 0x41 => natW (captStatus c)
  | 0x42 => c.armId.setWidth 32
  | 0x43 => cnt ((c.recs.head?.map Rec.num).getD c.nextRec)
  | 0x44 => cnt c.nextRec
  | 0x45 => natW (c.trigTick.toNat / 2 ^ 32)
  | 0x46 => natW c.trigTick.toNat
  | 0x47 => c.trigFrac.setWidth 32
  | 0x48 => c.trigEra.setWidth 32
  | 0x49 => cnt c.postDone
  | 0x4A => cnt c.preDepth
  | 0x4B => natW c.firePeg
  | 0x4C => sat c.segments 255
  | 0x4D => cnt c.ignored
  | 0x4E => cnt c.overflows
  | 0x4F => cnt c.armMissed
  | 0x50 => c.bEra.setWidth 32
  | 0x51 => natW (c.bTick.toNat / 2 ^ 32)
  | 0x52 => natW c.bTick.toNat
  | 0x53 => c.bAmp
  | 0x54 => c.bMox
  | 0x58 => s.stream.mask.setWidth 32
  | 0x59 => natW s.stream.div
  | 0x5A => natW (streamCode s.stream.st)
  | _ => cnt s.stream.lost

def readAlarm (s : State) (i : Nat) : Word :=
  let r := i % 16
  let a := ruleOf s r
  match i / 16 with
  | 0xD => natW (alarmCode (if s.twin.mode = 2 then pairOf s r else a.st) + 4 * b2n a.skipped + 256 * min 255 (alarmCount s r) +
                 65536 * min 255 a.vrun)
  | 0xE => a.value
  | _ => cnt a.raises

def readTally (s : State) (i : Nat) : Word :=
  let k := i % 32
  match i / 32 with
  | 2 => natW (tallyCond s k)
  | 3 => natW (tallyCount s k)
  | 4 => cnt (tallyOf s k).total
  | _ => (tallyOf s k).lastTick

/-! ### Outputs -/

/-- The deglitcher held in the last tick, by what the unit sent: its code and the one before differ in the upper byte, with the output on in
both ticks (18 R781, R792, R805). -/
def deglitchLast (s : State) : Bool :=
  match s.aout.sent with
  | _ :: a :: b :: _ => a.2 && b.2 && a.1.toNat / 256 != b.1.toNat / 256
  | _ => false

def readAout (s : State) (i : Nat) : Word :=
  let a := s.aout
  match i with
  | 0x00 => flagW a.enabled
  | 0x08 => natW a.range
  | 0x09 => a.code.setWidth 32
  | 0x0A => (outCode s).setWidth 32
  | 0x0B => natW (if a.enabled then aoutRow s else 0)
  | 0x0C => flagsW [a.enabled, a.everOn, a.clrLow, faultReq s, a.safeClear && s.u.st == .safe, (playOf s 0).st == .playing,
                    (playOf s 0).st == .suspended, deglitchLast s, !s.seam.vdrv, a.byField]
  | _ => cnt a.clrCount

/-- Capacity of area `w` (18 R794). -/
def waveSize (s : State) (w : Nat) : Nat := pNat s (idWave w)

/-- CRC-32 of a waveform's points, or 0 when empty (18 R795). -/
def waveCrc (s : State) (w : Nat) : Word :=
  let p := wavePts s w
  if p.isEmpty then 0 else natW (crc32 ((p.map (fun x => beBytes 2 x.toNat)).flatten))

def playStCode : PlayState → Nat
  | .idle => 0 | .playing => 1 | .suspended => 2

def sizesSum (s : State) : Nat := ((List.range 16).map (waveSize s)).foldl (· + ·) 0

def readWave (s : State) (i : Nat) : Word :=
  if 0x10 ≤ i ∧ i ≤ 0x1F then natW (wavePts s (i - 0x10)).length
  else if 0x20 ≤ i ∧ i ≤ 0x2F then waveCrc s (i - 0x20)
  else if i = 0x31 then s.wave.skipped.setWidth 32
  else if i = 0x32 then natW (32768 - sizesSum s)
  else
    let t := i % 8
    let p := playOf s t
    match i / 8 with
    | 0x8 => natW (playCode s t)
    | 0x9 => natW p.point
    | 0xA => natW p.passes
    | 0xB => natW p.period
    | _ => natW (playStCode p.st)

def readCal (s : State) (i : Nat) : Word :=
  if i < 0x30 then vget s.fac.gainAmp i 0
  else if i < 0x48 then vget s.fac.gainMox (i - 0x30) 0
  else if i < 0x50 then vget s.fac.gainBrg (i - 0x48) 0
  else if i < 0x80 then vget s.fac.offAmp (i - 0x50) 0
  else if i < 0x98 then vget s.fac.offMox (i - 0x80) 0
  else if i < 0xA0 then vget s.fac.offBrg (i - 0x98) 0
  else if i < 0xB0 then (chainOf s (i - 0xA0)).gain
  else if i < 0xC0 then (chainOf s (i - 0xB0)).off
  else s.nv.imageCrc

def readDiag (s : State) (i : Nat) : Word :=
  match i with
  | 0 => cnt s.seam.upFails
  | 1 => cnt s.seam.upVoid
  | 2 => cnt s.seam.sderrs
  | 3 => cnt s.seam.mismatch
  | 4 => cnt s.seam.hkDiscard
  | 5 => cnt s.seam.switches
  | 6 => cnt s.nv.nvwConfig
  | 7 => cnt s.nv.nvwCopies
  | 8 => cnt s.nv.nvwRights
  | _ => s.u.bootUs

/-- A status, reading or count of a page (role "—"). -/
def readStatus (s : State) (page i : Nat) : Word :=
  if page = 0x00 then readIdent s i
  else if page = 0x01 then readUnit s i
  else if page = 0x02 then readRidge s i
  else if page = 0x03 then readClient s i
  else if page = 0x04 then readTime s i
  else if page = 0x05 then readSched s i
  else if page = 0x06 then readLog s i
  else if page = 0x07 then readTwin s i
  else if page ≤ 0x0F then readAmp s (page - 0x08) i
  else if page ≤ 0x13 then readCell s (page - 0x10) i
  else if page ≤ 0x17 then readMox s (page - 0x14) i
  else if page ≤ 0x1B then readHtr s (page - 0x18) i
  else if page ≤ 0x1D then readBrg s (page - 0x1C) i
  else if page = 0x1E then readHouse s i
  else if page = 0x1F then readZchk s i
  else if page ≤ 0x2D then readFilt s (page - 0x20) i
  else if page = 0x30 then readTrip s i
  else if page = 0x31 then readCapt s i
  else if page = 0x34 then readAlarm s i
  else if page = 0x35 then readTally s i
  else if page = 0x38 then readAout s i
  else if page = 0x39 then readWave s i
  else if page = 0x3C then readCal s i
  else readDiag s i

/-- Writable fields that are actions: they read what their chapter says, not a stored value (07 R350, 10 R476, 18 R805). -/
def isAction (id : Nat) : Bool :=
  id == idLog 2 || id == idAout 0 || (0x14 ≤ id / 256 && id / 256 ≤ 0x17 && id % 256 == 7)

/-- The value of a defined ID; an undefined one reads 0 (06 R297). A Span tail's shared CAPT values are the lead's (19 R848). -/
def readParam (s : State) (id : Nat) : Word :=
  match descOf id with
  | none => 0
  | some d =>
    if id / 256 = 0x31 ∧ captShared (id % 256) then captW s (id % 256)
    else if d.role.isSome && !isAction id then param s id else readStatus s (id / 256) (id % 256)

end Sys2Proof.Machine
end

