-- ==== Sys2Proof/Machine/Setp.lean ====
section
/-! DEFINITION. Writing parameters: the checks of a SETP, and what each written parameter does at its effect tick (06 R286,
07 R333–R342, 20 R876–R881 and the owning chapters). -/

namespace Sys2Proof.Machine

/-! ### Log of a write -/

/-- PARAM_SET, where the value changes (07 R333). -/
def paramLog (s : State) (id : Nat) (origin : BitVec 16) (old new : Word) : State :=
  if sameVal id old new then s else logE s origin 0x0010 id old new

/-- Store a value with its PARAM_SET entry. -/
def paramPut (s : State) (id : Nat) (origin : BitVec 16) (w : Word) : State :=
  paramLog (setParam s id w) id origin (param s id) w

/-! ### Logbook parameters (07 R341, R342) -/

/-- Entries held after those through `seq` are discarded, with the check of the last one discarded. -/
def freeThrough : List Entry → Word → Option (Word × List Entry)
  | [], _ => none
  | e :: es, w => if e.seq = w then some (e.check, es) else freeThrough es w

/-- LOG.FREE_TO names the seq of a held entry. -/
def freeOk (s : State) (w : Word) : Bool := s.log.entries.any (fun e => e.seq == w)

/-- A write of LOG.FREE_TO: LOG_FREE in place of PARAM_SET. -/
def writeFreeTo (s : State) (origin : BitVec 16) (w : Word) : State :=
  match freeThrough s.log.entries w with
  | none => s
  | some (c, rest) =>
    let oldest := readLog s 9
    let s1 := { s with log := { s.log with entries := rest, anchor := c, freeTo := w } }
    logE s1 origin 0x000B 0x0602 oldest w

/-- A write of LOG.POLICY; to STOP the change is logged first, and LOG_FULL follows it where 4 095 entries are then held. -/
def writePolicy (s : State) (origin : BitVec 16) (w : Word) : State :=
  let id := idLog 0
  let old := param s id
  if w = old then s
  else if w = 1 then
    let s1 := logE s origin 0x0010 id old w
    let s2 := if 4095 ≤ s1.log.entries.length then logE s1 orgUnit 0x000A 0 0 0 else s1
    setParam s2 id w
  else logE (setParam s id w) origin 0x0010 id old w

/-! ### Channels -/

/-- AUTORANGE on, or a bound: the active range moves to the nearer bound, in a stopped channel too (09 R417, 10 R456; log 92). -/
def boundsApply (s : State) (n : Nat) (origin : BitVec 16) : State :=
  let r := activeRange s n
  let lo := rangerMin s n
  let hi := rangerMax s n
  if !rangerOn s n then s
  else if r < lo then rangeAsk s n lo origin false false
  else if hi < r then rangeAsk s n hi origin false false
  else s

/-- CELL.BIAS (09 R395, R397, R440, 13 R607). -/
def writeBias (s : State) (k : Nat) (origin : BitVec 16) (w : Word) : State :=
  if sameVal (idCell k 0) w (param s (idCell k 0)) then setParam s (idCell k 0) w
  else
    let s0 := if zCell s k then zAbortRun s else s
    let s1 := rampCatch s0 k
    let s2 := paramPut s1 (idCell k 0) origin w
    if (cellOf s2 k).step = .open_ && !isPlaying s2 (k + 1) then rampStart s2 k else s2

/-- CELL.RAMP: it governs the rest of a ramp that runs (09 R396). -/
def writeRamp (s : State) (k : Nat) (origin : BitVec 16) (w : Word) : State :=
  let s0 := if zCell s k then zAbortRun s else s
  if sameVal (idCell k 1) w (param s0 (idCell k 1)) then setParam s0 (idCell k 1) w
  else
    let s1 := rampCatch s0 k
    paramPut s1 (idCell k 1) origin w

/-- MOX.LEAD_CAPTURE: start, or cancel with 0 (10 R460). A value other than the samples left is a change of the parameter (07 R334). -/
def writeLeadCap (s : State) (n : Nat) (origin : BitVec 16) (w : Word) : State :=
  let c : LeadCap := { left := w.toNat, total := w.toNat, sum := 0, origin := origin }
  let left : Word := match (moxOf s n).cap with | some k => BitVec.ofNat 32 k.left | none => 0
  modMox (paramLog s (idMox n 7) origin left w) n (fun m => { m with cap := if w = 0 then none else some c })

/-- A new PHASE_TICKS in force: a running channel's grid moves at this tick, the filters run on, and it settles (12 R549, R560). -/
def phaseMoved (s : State) (c : Nat) : State :=
  if filtRunning s c then settleFrom (chainDue s c s.t.up false) c s.t.up else s

/-- A new PHASE_FRAC of a running channel goes to its control register, and it settles from its application; a stopped channel's goes out
with its next start (12 R550, R560, R578). -/
def fracHand (s : State) (c : Nat) : State :=
  let f := pNat s (idFilt c 7)
  if filtRunning s c then regSet (modChain s c (fun ch => { ch with frac := some f })) (ctlAddr c) 6 1 f else s

/-- PHASE_TICKS. -/
def writePhaseTicks (s : State) (c : Nat) (origin : BitVec 16) (w : Word) : State :=
  if w = param s (idFilt c 6) then s
  else
    phaseMoved (paramPut s (idFilt c 6) origin w) c

/-- PHASE_FRAC. -/
def writePhaseFrac (s : State) (c : Nat) (origin : BitVec 16) (w : Word) : State :=
  if w = param s (idFilt c 7) then s
  else fracHand (paramPut s (idFilt c 7) origin w) c

/-! ### Alarms -/

/-- The conditions of 16 R706 at an enable. -/
def alarmFit (s : State) (r : Nat) : Bool :=
  let ch := pNat s (idAlarm 1 r)
  let q := pNat s (idAlarm 2 r)
  let v (f : Nat) : Rat := pVal s (idAlarm f r)
  let tail := isSpanLead s && decide (32 ≤ ch) && decide (ch ≤ 45)
  let chOk := decide (ch ≤ 23) || tail
  let qOk := q == 0 || decide (ch ≤ 13) || tail
  let order := match pNat s (idAlarm 3 r) with
    | 0 => decide (v 5 ≤ v 4)
    | 1 => decide (v 4 ≤ v 5)
    | _ => decide (v 6 ≤ v 7) && decide (v 7 < v 5) && decide (v 5 ≤ v 4)
  chOk && qOk && order

/-- Pairs as a CONF payload (19 R824). -/
def confBytes (ps : List (Nat × Word)) : List Byte := (ps.map (fun p => beBytes 2 p.1 ++ beBytes 4 p.2.toNat)).flatten

/-- The rule is one the partner runs for a Span lead (19 R851). -/
def farRule (s : State) (r : Nat) : Bool := isSpanLead s && decide (32 ≤ pNat s (idAlarm 1 r))

/-- The lead sends a rule's configuration: all of it at an enable, else the field written. -/
def confRule (s : State) (r f : Nat) : State :=
  if !farRule s r then s
  else
    let fields := if f = 0 && alarmOn s r then List.range 13 else [f]
    twinSend s 0x0C (confBytes (fields.map (fun f => (idAlarm f r, param s (idAlarm f r)))))

/-- ALARM.ENABLE: 1 starts the rule with an empty window, 0 clears it (16 R706, R728). -/
def writeEnable (s : State) (r : Nat) (origin : BitVec 16) (w : Word) : State :=
  let id := idAlarm 0 r
  if w = param s id then s
  else
    let s1 := paramPut s id origin w
    let s2 :=
      if w = 0 then ruleOff s1 r origin
      else modRule s1 r (fun a => { a with win := [], counted := none, vrun := 0, skipped := false })
    confRule s2 r 0

/-! ### Outputs -/

/-- Base of area `w`. -/
def waveBase (s : State) (w : Nat) : Nat := ((List.range w).map (waveSize s)).foldl (· + ·) 0

/-- WAVE.SIZE: every waveform whose base or capacity it changes is emptied (18 R794). -/
def writeWaveSize (s : State) (w : Nat) (origin : BitVec 16) (v : Word) : State :=
  let s1 := paramPut s (idWave w) origin v
  forEach s1 (List.range 16) (fun s1 x =>
    if waveBase s1 x = waveBase s x ∧ waveSize s1 x = waveSize s x then s1
    else { s1 with wave.points := vset s1.wave.points x [] })

/-- AOUT.ENABLE (18 R772–R775). -/
def writeAout (s : State) (origin : BitVec 16) (w : Word) : State :=
  if w = 0 then aoutOff s origin true
  else if s.aout.enabled then s
  else
    let s1 := { s with aout := { s.aout with enabled := true, everOn := true, byField := false } }
    logE (regSet s1 0x16 0 0 1) origin 0x0057 0 0 1

/-! ### One pair -/

/-- The value stored for a written carrier: a cell's BIAS takes the value of its nearest code (09 R393), and a bridge's VEXC is rounded
to whole mV (10 R477). -/
def storedOf (id : Nat) (w : Word) : Word :=
  let v := match descOf id with
    | some d => d.range.store w
    | none => w
  if 0x10 ≤ id / 256 ∧ id / 256 ≤ 0x13 ∧ id % 256 = 0 then f32Of (biasVolt (biasCode (f32Val v)))
  else if id = idBrg 0 0 ∨ id = idBrg 1 0 then f32Of ((roundAway (f32Val v * 1000) : Rat) / 1000) else v

/-- A write that also tells the partner of a Span lead (19 R848, R851). -/
def putShared (s : State) (id : Nat) (origin : BitVec 16) (w : Word) : State :=
  let s1 := paramPut s id origin w
  let i := id % 256
  if id / 256 = 0x31 ∧ captShared i ∧ isSpanLead s1 ∧ !sameVal id (param s id) w then twinSend s1 0x0C (confBytes [(id, w)])
  else if id / 256 = 0x34 then confRule s1 (i % 16) (i / 16)
  else s1

/-- Write one pair at this tick. -/
def writeParam (s : State) (id : Nat) (origin : BitVec 16) (w0 : Word) : State :=
  let w := storedOf id w0
  let page := id / 256
  let i := id % 256
  if id = idLog 0 then writePolicy s origin w
  else if id = idLog 2 then writeFreeTo s origin w
  else if id = idCable then
    (if w = param s id then s else { paramPut s id origin w with t.firstDue := true })
  else if id = idAout 0 then writeAout s origin w
  else if 0x08 ≤ page ∧ page ≤ 0x0F ∧ 1 ≤ i ∧ i ≤ 3 then boundsApply (paramPut s id origin w) (page - 0x08) origin
  else if 0x10 ≤ page ∧ page ≤ 0x13 ∧ i = 0 then writeBias s (page - 0x10) origin w
  else if 0x10 ≤ page ∧ page ≤ 0x13 ∧ i = 1 then writeRamp s (page - 0x10) origin w
  else if 0x14 ≤ page ∧ page ≤ 0x17 ∧ 1 ≤ i ∧ i ≤ 3 then boundsApply (paramPut s id origin w) (page - 0x14 + 8) origin
  else if 0x14 ≤ page ∧ page ≤ 0x17 ∧ i = 6 then modMox (paramPut s id origin w) (page - 0x14) (fun m => { m with leadSrc := false })
  else if 0x14 ≤ page ∧ page ≤ 0x17 ∧ i = 7 then writeLeadCap s (page - 0x14) origin w
  else if 0x18 ≤ page ∧ page ≤ 0x1B ∧ i = 3 then modHtr (paramPut s id origin w) (page - 0x18) (fun h => { h with leadSrc := false })
  else if 0x20 ≤ page ∧ page ≤ 0x2D ∧ i = 6 then writePhaseTicks s (page - 0x20) origin w
  else if 0x20 ≤ page ∧ page ≤ 0x2D ∧ i = 7 then writePhaseFrac s (page - 0x20) origin w
  else if page = 0x34 ∧ i < 16 then writeEnable s i origin w
  else if page = 0x35 ∧ i < 0x40 then tallyEmpty (paramPut s id origin w) (i % 32)
  else if page = 0x39 ∧ i < 16 then writeWaveSize s i origin w
  else if sameVal id w (param s id) then putShared s id origin w
  else freqNote (putShared s id origin w) id

/-! ### Checks of a SETP (06 R284, R286) -/

/-- A waveform plays or is suspended. -/
def anyPlay (s : State) : Bool := [0, 1, 2, 3, 4].any (isPlaying s)

/-- The block holding a parameter is running (20 R878 and each page); an enabled alarm rule counts as running in IDLE too, where
03 R128 has no block running (DEDUCED, log 14). -/
def blockRuns (s : State) (id : Nat) : Bool :=
  let page := id / 256
  let i := id % 256
  if 0x18 ≤ page ∧ page ≤ 0x1B then htrRunning s (page - 0x18)
  else if 0x20 ≤ page ∧ page ≤ 0x2D then filtRunning s (page - 0x20)
  else if page = 0x30 then i < 0x58 && s.trip.armed.getLsbD (i % 8)
  else if page = 0x31 then capRunning s
  else if page = 0x34 then pOn s (idAlarm 0 (i % 16))
  else if page = 0x39 then anyPlay s
  else false

/-- Step 7: the role a pair needs. -/
def pairRole (id : Nat) (role : Nat) : Bool :=
  match descOf id with
  | some d => match d.role with
    | some r => decide (r ≤ role)
    | none => false
  | none => false

/-- Step 8: a state condition of the pair itself (10 R460, 18 R772). -/
def pairState (s : State) (id : Nat) (w : Word) : Bool :=
  if id = idAout 0 then w != 1 || s.u.st == .run
  else if 0x14 ≤ id / 256 ∧ id / 256 ≤ 0x17 ∧ id % 256 = 7 then w == 0 || (chainOf s (id / 256 - 0x14 + 8)).started
  else true

/-- Step 9: the value of one pair. -/
def pairValue (s : State) (id : Nat) (w : Word) : Bool :=
  match descOf id with
  | none => false
  | some d =>
    if !d.range.ok w then false
    else if id = idLog 2 then freeOk s w
    else if id / 256 = 0x34 ∧ id % 256 / 16 = 1 then
      decide (w.toNat ≤ 23) || (isSpanLead s && decide (32 ≤ w.toNat))
    else if id / 256 = 0x34 ∧ id % 256 < 16 then w != 1 || alarmFit s (id % 256)
    else true

/-- Step 10: the Live rule. -/
def pairFree (s : State) (id : Nat) : Bool :=
  match descOf id with
  | some d => d.live || !blockRuns s id
  | none => true

/-- A joint condition: the IDs it joins, and whether it holds. -/
structure Joint where
  ids : List Nat
  ok  : State → Bool

/-- Least and largest of two fields, in order. -/
def jointLe (a b : Nat) : Joint := { ids := [a, b], ok := fun s => decide (pVal s a ≤ pVal s b) }
def jointNat (a b : Nat) : Joint := { ids := [a, b], ok := fun s => decide (pNat s a ≤ pNat s b) }

/-- Every joint condition of the map (09 R417, 10 R456, 12 R534, 13 R605, 16 R723, 17 R758, 18 R794). -/
def joints : List Joint :=
  (List.range 8).map (fun n => jointNat (idAmp n 2) (idAmp n 3)) ++
  (List.range 4).map (fun n => jointNat (idMox n 2) (idMox n 3)) ++
  (List.range 14).map (fun c => { ids := [idFilt c 1, idFilt c 0], ok := fun s => pNat s (idFilt c 1) != 4 || pNat s (idFilt c 0) == 3 }) ++
  (List.range 14).map (fun n => jointLe (idZchk 4 n) (idZchk 5 n)) ++
  (List.range 14).map (fun n => { ids := [idZchk 6 n, idZchk 7 n], ok := fun s => decide ((param s (idZchk 6 n)).toInt ≤ (param s (idZchk 7 n)).toInt) }) ++
  [jointLe (idTally 0xC3) (idTally 0xC4), jointLe (idTally 0xC5) (idTally 0xC6), jointLe (idTally 0xC7) (idTally 0xC8),
   jointLe (idTally 0xC9) (idTally 0xCA), jointLe (idSched 0xA) (idSched 0xB),
   { ids := (List.range 16).map idWave, ok := fun s => decide (sizesSum s ≤ 32768) }]

/-- The states a SETP passes through: before each pair, and after the last. -/
def pairStates (origin : BitVec 16) : State → List (Nat × Word) → List State
  | s, [] => [s]
  | s, (id, w) :: ps => s :: pairStates origin (writeParam s id origin w) ps

/-- Position, from 1, of the first pair that fails a check made in the state before it. -/
def firstBad (f : State → Nat × Word → Bool) : Nat → List State → List (Nat × Word) → Option Nat
  | n, s :: ss, p :: ps => if f s p then firstBad f (n + 1) ss ps else some n
  | _, _, _ => none

/-- The first pair naming a field of a joint condition that the whole packet would break (06 R286). -/
def jointBad (s : State) (ps : List (Nat × Word)) : Option Nat :=
  let named (j : Joint) (p : Nat × Word) : Bool := j.ids.contains p.1
  let bad := joints.filter (fun j => ps.any (named j) && !j.ok s)
  (ps.findIdx? (fun p => bad.any (fun j => named j p))).map (· + 1)

/-- Under STOP, the first pair whose entry finds no place; a write of LOG.FREE_TO is always taken (07 R339, R340, R342). -/
def stopBad : Nat → List State → List (Nat × Word) → Option Nat
  | n, a :: b :: ss, p :: ps =>
    if p.1 ≠ idLog 2 ∧ a.log.unlogged < b.log.unlogged then some n else stopBad (n + 1) (b :: ss) ps
  | _, _, _ => none

/-- The least position two checks of one step report. -/
def minPos : Option Nat → Option Nat → Option Nat
  | some a, some b => some (min a b)
  | a, none => a
  | none, b => b

/-- Steps 6 to 10 over all pairs, step by step: the failing status and position, or none. `role` is that of the sender. -/
def setpCheck (s : State) (role : Nat) (origin : BitVec 16) (ps : List (Nat × Word)) : Option (Nat × Nat) :=
  let ss := pairStates origin s ps
  let last := ss.getLast?.getD s
  match firstBad (fun _ p => (descOf p.1).isSome) 1 ss ps with
  | some n => some (0x12, n)
  | none =>
    match firstBad (fun _ p => pairRole p.1 role) 1 ss ps with
    | some n => some (0x10, n)
    | none =>
      match (if s.u.st = .vigil then some 1 else firstBad (fun s p => pairState s p.1 p.2) 1 ss ps) with
      | some n => some (0x16, n)
      | none =>
        match minPos (firstBad (fun s p => pairValue s p.1 p.2) 1 ss ps) (jointBad last ps) with
        | some n => some (0x13, n)
        | none =>
          match minPos (firstBad (fun s p => pairFree s p.1) 1 ss ps) (stopBad 1 ss ps) with
          | some n => some (0x11, n)
          | none => none

/-- Apply every pair, in order. -/
def setpApply (s : State) (origin : BitVec 16) (ps : List (Nat × Word)) : State :=
  ps.foldl (fun s p => writeParam s p.1 origin p.2) s

end Sys2Proof.Machine
end

