-- ==== Sys2Proof/Machine/Timebase.lean ====
section
/-! DEFINITION. The tick counter, eras, the comparison with a header, and wall time (08 R358–R386). -/

namespace Sys2Proof.Machine

/-! ### Numbering of ticks (08 R366, R369, R378) -/

/-- Numberings newer than 2²⁵ ticks, and the one before them: the longest span is under 2²⁴ ticks (12 R545). -/
def pruneMarks (u : Nat) : List TimeMark → List TimeMark
  | [] => []
  | m :: ms => if m.up + 2 ^ 25 ≤ u then [m] else m :: pruneMarks u ms

/-- From this tick on the present count and era name the ticks. -/
def timeMark (s : State) : State :=
  let m : TimeMark := { up := s.t.up, count := s.t.count, era := s.t.era }
  { s with t.marks := m :: pruneMarks s.t.up s.t.marks }

/-- Cuts newer than 2²⁵ ticks, and the one before them. -/
def pruneCuts (u : Nat) : List (Nat × Nat) → List (Nat × Nat)
  | [] => []
  | c :: cs => if c.1 + 2 ^ 25 ≤ u then [c] else c :: pruneCuts u cs

/-- Every tracker starts afresh at its first sample tagged from now on, and a TIME record falls due before the first SAMPLE tagged so
(14 R627, 15 R662). -/
def timeNotice (s : State) (reason : Nat) : State := { s with t.cuts := (s.t.up, reason) :: pruneCuts s.t.up s.t.cuts }

/-- A new era starts at this tick, with its TIME_ERA entry (08 R369, R370). -/
def eraStart (s : State) (origin : BitVec 16) : State :=
  let old := s.t.era
  let s1 := timeMark { s with t.era := old + 1, t.eraStarts := s.t.eraStarts + 1 }
  timeNotice (logE s1 origin 0x0028 0 (old.setWidth 32) ((old + 1).setWidth 32)) 2

/-! ### Comparison with the header (08 R361, R364, R365) -/

/-- The mapping is dropped (08 R376). -/
def mapDrop (s : State) : State := { s with t.off := none, t.slewLeft := 0 }

/-- The correction a comparison decides: C, T and the row of 08 R365. A count that would get smaller starts an era (08 R359, R360). -/
def fixOf (c target : BitVec 48) (first declared : Bool) : Option Fix :=
  let d := (target - c).toInt
  let wraps := decide (target.toNat < (c - 1).toNat)
  let f : Fix := { was := c, target := target, newEra := decide (d < 0) || wraps, step := decide (d ≠ 0), discord := false,
                   small := false, unmap := declared }
  if first || declared then some f
  else if d = 0 then none
  else if d = 1 ∨ d = -1 then some { f with newEra := wraps, step := false, small := true }
  else some { f with discord := true }

/-- The comparison of an aligned-capable unit at tick 16 of a good head-end header. -/
def timeCompare (s : State) (htick : BitVec 48) (hera : BitVec 16) : State :=
  if s.ring.lock ≠ .locked ∨ isOrphan s ∨ (lagClk s).isNone then s
  else
    let c := s.t.count + BitVec.ofNat 48 (512 - s.t.p)
    let target := htick + BitVec.ofNat 48 (512 + lagTicks s)
    let declared : Bool := match s.t.lastHdrEra with
      | some e => e != hera
      | none => false
    { s with t.fix := fixOf c target s.t.firstDue declared, t.lastHdrEra := some hera, t.firstDue := false }

/-- TICK_STEP (08 R368). -/
def stepLog (s : State) (was target : BitVec 48) : State :=
  let s1 := { s with t.steps := s.t.steps + 1 }
  logE s1 orgUnit 0x002A (target.toNat / 2 ^ 32) (was.setWidth 32) (target.setWidth 32)

/-- The correction decided at tick 16 takes place at p = 0 (08 R365, R376). -/
def fixApply (s : State) : State :=
  match s.t.fix with
  | none => s
  | some f =>
    let s1 := timeMark { s with t.fix := none, t.count := f.target, t.smallCorr := s.t.smallCorr + b2n f.small,
                                t.unaligned := s.t.unaligned && isOrphan s }
    let s2 := if f.newEra then eraStart s1 orgUnit else s1
    let s3 := if f.step then stepLog s2 f.was f.target else s2
    let s4 := if f.unmap then mapDrop s3 else s3
    let s5 := if f.discord then tallyEvent s4 5 else s4
    if f.small then s5 else timeNotice s5 3

/-- A wrap of the counter starts a new era (08 R360). -/
def wrapCheck (s : State) : State := if s.t.count = 0 then eraStart s orgUnit else s

/-! ### Wall time (08 R372–R377) -/

/-- TIMESET is in order: a good header with FLAGS.TIMESET, the unit aligned and not in ORPHAN (08 R372). -/
def timesetReady (s : State) : Bool := s.ring.hdr == .good && s.ring.timeset && !s.t.unaligned && !isOrphan s

/-- WALL and TICK can be mapped. -/
def timesetValue (wall : BitVec 64) (tick : BitVec 48) : Bool := decide (wall.toNat < 2 ^ 63) && tick != BitVec.allOnes 48

/-- Bits [31:0] of the wall time now under an offset; below 0 it is carried as 0. -/
def wallW (s : State) (o : Int) : Word := natW ((wallAt s.t.count o).getD 0)

/-- A mapping comes into force with mode `mode`: O starts at `o`, and `left` ticks of it are still to be slewed. -/
def mapSet (s : State) (o : Int) (left : Nat) (wall : BitVec 64) (tick : BitVec 48) : State :=
  { s with t := { s.t with off := some o, mapWall := wall, mapTick := tick, slewLeft := left, slewPhase := s.t.up + 2000 } }

/-- TIME_SET. -/
def timesetLog (s : State) (mode : Nat) (old new : Word) (origin : BitVec 16) : State := logE s origin 0x0029 mode old new

/-- A TIMESET in force from this tick on (08 R373–R375). -/
def timesetRun (s : State) (origin : BitVec 16) (wall : BitVec 64) (tick : BitVec 48) : State :=
  let o1 : Int := 512 * (wall.toNat : Int) - tick.toNat
  match s.t.off with
  | none => timesetLog (mapSet s o1 0 wall tick) 0 0 (wallW s o1) origin
  | some o =>
    let d := o1 - o
    let old := wallW s o
    if d = 0 ∧ s.t.slewLeft = 0 then s
    else if d < 0 then timesetLog (eraStart (mapSet s o1 0 wall tick) origin) 3 old (wallW s o1) origin
    else if d ≤ 1024 then timesetLog (mapSet s o d.toNat wall tick) 1 old (wallW s o1) origin
    else timesetLog (mapSet s o1 0 wall tick) 2 old (wallW s o1) origin

/-- One tick of a slew, where its tick has come (08 R375). -/
def slewStep (s : State) : State :=
  match s.t.off with
  | some o =>
    if s.t.slewLeft = 0 ∨ s.t.up < s.t.slewPhase then s
    else { s with t := { s.t with off := some (o + 1), slewLeft := s.t.slewLeft - 1, slewPhase := s.t.slewPhase + 2000 } }
  | none => s

/-- SLEW_STEP (08 R375). -/
def execSlewStep (s : State) : Host.Outcome State Fault Refusal := .next (slewStep s)

/-- The data of TIMEQ (08 R377). -/
def timeqData (s : State) : List Byte :=
  let w : Nat := match s.t.off with
    | some o => (wallAt s.t.count o).getD (2 ^ 64 - 1)
    | none => 2 ^ 64 - 1
  beBytes 2 s.t.era.toNat ++ beBytes 6 s.t.count.toNat ++ beBytes 8 w

end Sys2Proof.Machine
end

