-- ==== Sys2Proof/Machine/Nv.lean ====
section
/-! DEFINITION. Non-volatile memory: what the images hold, and the tasks that save, load, calibrate and seal (20 R885–R904, R940,
12 R543, 07 R316, R317, R343–R345, 03 R156, 18 R804). -/

namespace Sys2Proof.Machine

/-! ### Images (20 R886, 18 R804) -/

/-- The value a saved ID has now: AOUT.RANGE and AOUT.CODE are kept beside the parameters. -/
def savedNow (s : State) (id : Nat) : Word :=
  if id = 0x3808 then natW s.aout.range else if id = 0x3809 then s.aout.code.setWidth 32 else param s id

/-- Saved parameters that differ from their reset values, by rising ID. -/
def savedParams (s : State) : List (Nat × Word) :=
  let own := s.cfg.filter (fun p => paramSaved p.1)
  let l := if s.aout.range = 0 then own else aset own 0x3808 (natW s.aout.range)
  if s.aout.code = 0 then l else aset l 0x3809 (s.aout.code.setWidth 32)

/-- The configuration image of the present state. -/
def cfgImageOf (s : State) : CfgImage :=
  { params := savedParams s, peg := s.ring.peg, hop := s.ring.hop,
    gains := (List.range 14).map (fun c => (chainOf s c).gain), offs := (List.range 14).map (fun c => (chainOf s c).off) }

/-- Waveforms copied, in order, while the running total stays within 10 000 points; and those left out. -/
def wavesFit (s : State) : List Nat → Nat → List (Nat × List (BitVec 16)) × List Nat
  | [], _ => ([], [])
  | w :: ws, n =>
    let p := wavePts s w
    if n + p.length ≤ 10000 then
      let r := wavesFit s ws (n + p.length)
      ((w, p) :: r.1, r.2)
    else
      let r := wavesFit s ws n
      (r.1, w :: r.2)

/-- The waveforms WAVE.NV_MASK selects, copied and skipped. -/
def wavesSaved (s : State) : List (Nat × List (BitVec 16)) × List Nat := wavesFit s (maskList 16 (pNat s (idWave 0x30))) 0

def copyImageOf (s : State) : CopyImage := { profiles := s.profiles.toList, waves := (wavesSaved s).1 }

/-- A mask of waveform numbers. -/
def waveMask (ws : List Nat) : BitVec 16 := ws.foldl (fun v w => putBit v w true) 0

/-- CRC-32 of an image, as a function of its content (log 2). -/
def cfgCrc (i : CfgImage) : Word :=
  Config.imageCrc ([1, i.peg, i.hop] ++ (i.params.map (fun p => [p.1, p.2.toNat])).flatten ++ i.gains.map BitVec.toNat ++
    i.offs.map BitVec.toNat)
def copyCrc (i : CopyImage) : Word :=
  Config.imageCrc ([2] ++ i.profiles.flatten.map BitVec.toNat ++
    (i.waves.map (fun w => [w.1, w.2.length] ++ w.2.map BitVec.toNat)).flatten)

/-! ### The chore that writes (20 R887, 03 R166) -/

/-- Origin of what a task does for its client. -/
def taskOrg (t : TaskRec) : BitVec 16 :=
  match t.obj with
  | .sealLog true => orgUnit
  | _ => t.origin

/-- The write is over. -/
def nvFree (s : State) : State := { s with nv.writing := none, nv.staged := none, nv.sealing := [] }

/-- The entries of the Logbook through a seq, at most the newest 256 of them. -/
def sealTake (l : LogSt) (seq : Word) : List Entry :=
  ((l.entries.reverse.dropWhile (fun e => e.seq != seq)).take 256).reverse

/-- A seal starts with its LOG_SEAL entry; without a place for it the task ends LOCKED (07 R343, R345, 03 R156). -/
def sealStart (s : State) (t : TaskRec) : State :=
  if logBlocked s then taskEnd (nvFree s) t.num 0x11 0 []
  else
    let seq := s.log.nextSeq
    let s1 := logE s (taskOrg t) 0x000C 0 (readLog s 0x10) seq
    { s1 with nv.sealing := sealTake s1.log seq }

/-- At p = 0 of its first granted superframe an NV write starts, and fixes what an NVSAVE saves or a seal takes. NV_SKIPPED starts
afresh with each NVSAVE (18 R804). -/
def nvStage (s : State) : State :=
  match s.nv.writing with
  | none => s
  | some (_, n) =>
    if s.nv.staged.isSome then s
    else
      match taskOf s n with
      | none => { s with nv.writing := none }
      | some t =>
        let s1 := { s with nv.staged := some (cfgImageOf s, copyImageOf s) }
        match t.obj with
        | .nvsave m => { s1 with wave.skipped := if bit m 1 then waveMask (wavesSaved s).2 else 0 }
        | .sealLog _ => sealStart s1 t
        | _ => s1

/-- The task whose started write holds a region. -/
def nvTask (s : State) (region : Nat) : Option TaskRec :=
  match s.nv.writing, s.nv.staged with
  | some (r, n), some _ => if r = region then taskOf s n else none
  | _, _ => none

/-- NV_FAIL: 1 check failed, 2 write failed, 3 blank (07 R335). -/
def nvFail (s : State) (origin : BitVec 16) (region code : Nat) : State := logE s origin 0x0005 region 0 (natW code)

/-! ### NVSAVE (20 R887) -/

/-- The next region of the task, or its end. -/
def saveNext (s : State) (t : TaskRec) (m region : Nat) : State :=
  if region = 1 ∧ bit m 1 then
    { taskMod s t.num (fun t => { t with stage := 1 }) with nv.writing := some (2, t.num) }
  else taskEnd (nvFree s) t.num 0 0 []

/-- A region is written. -/
def saveGood (s : State) (t : TaskRec) (m region : Nat) (c : CfgImage × CopyImage) : State :=
  if region = 1 then
    let crc := cfgCrc c.1
    let n := { s.nv with cfg := .good c.1, nvwConfig := s.nv.nvwConfig + 1, imageCrc := crc }
    let s1 := { s with nv := n, ring.savedPeg := c.1.peg, ring.savedHop := c.1.hop }
    saveNext (logE s1 (taskOrg t) 0x0006 1 0 crc) t m 1
  else
    let n := { s.nv with copies := .good c.2, nvwCopies := s.nv.nvwCopies + 1 }
    saveNext (logE { s with nv := n } (taskOrg t) 0x0006 2 0 (copyCrc c.2)) t m 2

/-- A write failed: the region fails its check, and the task ends NV_FAIL. -/
def saveBad (s : State) (t : TaskRec) (region : Nat) : State :=
  taskEnd (nvFail (nvTear s) (taskOrg t) region 2) t.num 0x19 0 []

/-- NVSAVE_DONE. -/
def execNvsaveDone (region2 ok : Bool) (s : State) : Host.Outcome State Fault Refusal :=
  .next (
    let region := if region2 then 2 else 1
    match nvTask s region, s.nv.staged with
    | some t, some c => (match t.obj with
      | .nvsave m => if ok then saveGood s t m region c else saveBad s t region
      | _ => s)
    | _, _ => s)

/-! ### NVLOAD (20 R888–R890, R940) -/

/-- Every saved ID an image or the present configuration lists. -/
def loadIds (s : State) (i : CfgImage) : List Nat :=
  (i.params.foldl (fun (l : List (Nat × Word)) p => aset l p.1 0) (savedParams s)).map Prod.fst

/-- What an image gives an ID; a saved parameter it does not list has its reset value. -/
def imageVal (i : CfgImage) (id : Nat) : Word := (aget i.params id).getD (if id = 0x3808 ∨ id = 0x3809 then 0 else resetOf id)

/-- Values of an image that differ from the present ones. -/
def loadPairs (s : State) (i : CfgImage) : List (Nat × Word) :=
  ((loadIds s i).map (fun id => (id, imageVal i id))).filter (fun p => !sameVal p.1 (savedNow s p.1) p.2)

/-- The unit cannot take a value as it stands (20 R940; 18 R777, R779). -/
def loadRefused (s : State) (id : Nat) (w : Word) : Bool :=
  if id = 0x3808 then decide (4 < w.toNat) || s.aout.enabled
  else if id = 0x3809 then decide (65535 < w.toNat) || isPlaying s 0
  else !paramSaved id || !(match descOf id with
    | some d => d.range.ok w
    | none => false) || (id / 256 == 0x34 && id % 256 / 16 == 1 && !(decide (w.toNat ≤ 23) || (isSpanLead s && decide (32 ≤ w.toNat))))

/-- An alarm rule enabled by the image must fit (16 R706): a joint condition of its page. -/
def alarmJoint (r : Nat) : Joint :=
  { ids := (List.range 8).map (fun f => idAlarm f r), ok := fun s => !pOn s (idAlarm 0 r) || alarmFit s r }

def loadJoints : List Joint := joints ++ (List.range 16).map alarmJoint

/-- Write saved values with no effect yet. -/
def loadPut (s : State) (ps : List (Nat × Word)) : State :=
  ps.foldl (fun (s : State) p =>
    if p.1 = 0x3808 then { s with aout.range := p.2.toNat }
    else if p.1 = 0x3809 then { s with aout.code := p.2.setWidth 16 }
    else freqNote (setParam s p.1 (storedOf p.1 p.2)) p.1) s

/-- The values that apply: those the unit can take, less those of joint conditions the whole result breaks. -/
def loadTaken (s : State) (ps : List (Nat × Word)) : List (Nat × Word) :=
  let fit := ps.filter (fun p => !loadRefused s p.1 p.2)
  let res := loadPut s fit
  let bad := loadJoints.filter (fun j => !j.ok res)
  fit.filter (fun p => !bad.any (fun j => j.ids.contains p.1))

/-- What a newly loaded value does (the effects of a SETP of it). -/
def loadEffect (s : State) (origin : BitVec 16) (id : Nat) : State :=
  let page := id / 256
  let i := id % 256
  if id = idCable then { s with t.firstDue := true }
  else if id = 0x3808 then regSet s 0x16 3 1 s.aout.range
  else if id = 0x3809 then s
  else if 0x08 ≤ page ∧ page ≤ 0x0F ∧ 1 ≤ i ∧ i ≤ 3 then boundsApply s (page - 0x08) origin
  else if 0x14 ≤ page ∧ page ≤ 0x17 ∧ 1 ≤ i ∧ i ≤ 3 then boundsApply s (page - 0x14 + 8) origin
  else if 0x10 ≤ page ∧ page ≤ 0x13 ∧ i ≤ 1 then
    let k := page - 0x10
    let s1 := if zCell s k then zAbortRun s else s
    if i = 0 && (cellOf s1 k).step = .open_ && !isPlaying s1 (k + 1) then rampStart s1 k else s1
  else if 0x14 ≤ page ∧ page ≤ 0x17 ∧ i = 6 then modMox s (page - 0x14) (fun m => { m with leadSrc := false })
  else if 0x18 ≤ page ∧ page ≤ 0x1B ∧ i = 3 then modHtr s (page - 0x18) (fun h => { h with leadSrc := false })
  else if 0x20 ≤ page ∧ page ≤ 0x2D ∧ i = 6 then
    phaseMoved s (page - 0x20)
  else if 0x20 ≤ page ∧ page ≤ 0x2D ∧ i = 7 then fracHand s (page - 0x20)
  else if page = 0x34 ∧ i < 16 then
    confRule (if pOn s id then modRule s i (fun a => { a with win := [], counted := none, vrun := 0, skipped := false })
      else ruleOff s i origin) i 0
  else if page = 0x34 then confRule s (i % 16) (i / 16)
  else if page = 0x35 ∧ i < 0x40 then tallyEmpty s (i % 32)
  else if id = idLog 0 ∧ pOn s id ∧ 4095 ≤ s.log.entries.length then
    logFull s
  else if page = 0x31 ∧ captShared i ∧ isSpanLead s then twinSend s 0x0C (confBytes [(id, param s id)])
  else s

/-- Areas whose base or capacity moved are emptied (18 R794). -/
def wavesMoved (s0 s : State) : State :=
  forEach s (List.range 16) (fun s x =>
    if waveBase s0 x = waveBase s x ∧ waveSize s0 x = waveSize s x then s
    else { s with wave.points := vset s.wave.points x [] })

/-- User calibration of an image. -/
def loadCal (s : State) (i : CfgImage) : State :=
  forEach s (List.range 14) (fun s c => modChain s c (fun ch => { ch with gain := i.gains.getD c 0x3F800000, off := i.offs.getD c 0 }))

/-- A region of a good image applies, all at once (20 R888). -/
def loadCfg (s : State) (origin : BitVec 16) (i : CfgImage) : State :=
  let ps := loadPairs s i
  let ok := loadTaken s ps
  let crc := cfgCrc i
  let s1 := logE s origin 0x0004 1 (natW (ps.length - ok.length)) crc
  let s2 := forEach { s1 with nv.imageCrc := crc, ring.savedPeg := i.peg, ring.savedHop := i.hop } (List.range 4) rampCatch
  let s3 := loadCal (loadPut s2 ok) i
  wavesMoved s (ok.foldl (fun s p => loadEffect s origin p.1) s3)

/-- Copied waveforms that fit their areas; the rest are empty and marked skipped (18 R804). -/
def loadWaves (s : State) (ws : List (Nat × List (BitVec 16))) : State :=
  ws.foldl (fun (s : State) w =>
    if w.2.length ≤ waveSize s w.1 then { s with wave.points := vset s.wave.points w.1 w.2 }
    else { s with wave.skipped := putBit s.wave.skipped w.1 true })
    { s with wave.points := Vector.replicate 16 [], wave.skipped := 0 }

def profilesOf (ps : List (List (BitVec 64))) : Vector (List (BitVec 64)) 16 :=
  Vector.ofFn (fun i => ps.getD i.val (List.replicate 32 0))

def loadCopies (s : State) (i : CopyImage) : State := loadWaves { s with profiles := profilesOf i.profiles } i.waves

/-- Conditions of 20 R889 on region 1 and of R890 on region 2. -/
def loadLocked (s : State) (region : Nat) : Bool :=
  logBlocked s ||
  (if region = 1 then
    (match s.nv.cfg with
     | .good i => (loadPairs s i).any (fun p => !pairFree s p.1)
     | _ => false)
   else (List.range 4).any (fun n => (htrOf s n).prof.isSome) || anyPlay s)

/-- Path 4: the client whose load it is (07 R312). -/
def loadOrg (t : TaskRec) : BitVec 16 := org (orgClient t.origin).toNat 4

/-- The next region of a load, or its end. -/
def loadNext (s : State) (t : TaskRec) (m region : Nat) : State :=
  if region = 1 ∧ bit m 1 then taskMod s t.num (fun t => { t with stage := 1 }) else taskEnd s t.num 0 0 []

/-- A load ends unfinished. -/
def loadEnd (s : State) (t : TaskRec) (region code : Nat) : State :=
  taskEnd (nvFail s (taskOrg t) region code) t.num 0x19 0 []

/-- The region read by a load: blank, bad, locked, or applied. -/
def loadRegion (s : State) (t : TaskRec) (m region : Nat) : State :=
  if region = 1 then
    match s.nv.cfg with
    | .blank => loadEnd s t 1 3
    | .bad => loadEnd s t 1 1
    | .good i => if loadLocked s 1 then taskEnd s t.num 0x11 0 [] else loadNext (loadCfg s (loadOrg t) i) t m 1
  else
    match s.nv.copies with
    | .blank => loadEnd s t 2 3
    | .bad => loadEnd s t 2 1
    | .good i =>
      if loadLocked s 2 then taskEnd s t.num 0x11 0 []
      else loadNext (logE (loadCopies s i) (loadOrg t) 0x0004 2 0 (copyCrc i)) t m 2

/-- A granted load whose next region this is. -/
def loadsRegion (region : Nat) (t : TaskRec) : Bool :=
  match t.obj with
  | .nvload m => t.state == .granted && (if bit m 0 && t.stage == 0 then region == 1 else region == 2)
  | _ => false

/-- NV_LOAD_APPLY: at p = 0 of the superframe after the read of a region completes. -/
def execNvLoadApply (region2 : Bool) (s : State) : Host.Outcome State Fault Refusal :=
  .next (
    let region := if region2 then 2 else 1
    match s.sched.tasks.find? (loadsRegion region) with
    | some t => if s.t.p ≠ 0 then s else (match t.obj with
      | .nvload m => loadRegion s t m region
      | _ => s)
    | none => s)

/-! ### CALWRITE (12 R543) -/

/-- CAL_WRITE, where a value changes. -/
def calLog (s : State) (origin : BitVec 16) (subject : Nat) (old new : Word) : State :=
  if sameF32 old new then s else logE s origin 0x0046 subject old new

/-- The image a calibration is written into: what a boot would load, with the user calibration in force. -/
def calBase (s : State) : CfgImage :=
  match s.nv.cfg with
  | .good i => i
  | _ => { cfgImageOf s with params := [], peg := 0, hop := 0 }

/-- CALWRITE_DONE: the values apply from this tick on. -/
def execCalwriteDone (ok : Bool) (s : State) : Host.Outcome State Fault Refusal :=
  .next (
    match nvTask s 1 with
    | none => s
    | some t =>
      match t.obj with
      | .calwrite c g o =>
        if !ok then saveBad s t 1
        else
          let b := calBase s
          let i := { b with gains := b.gains.set c g, offs := b.offs.set c o }
          let n := { s.nv with cfg := .good i, nvwConfig := s.nv.nvwConfig + 1, imageCrc := cfgCrc i }
          let ch := chainOf s c
          let s1 := modChain { s with nv := n } c (fun ch => { ch with gain := g, off := o })
          let s2 := calLog (calLog s1 (taskOrg t) c ch.gain g) (taskOrg t) (c + 256) ch.off o
          taskEnd (nvFree s2) t.num 0 0 []
      | _ => s)

/-! ### The rights record (07 R316, R317) -/

/-- RIGHTS_RECORD_WRITE. A failed write leaves the roles in force. -/
def execRightsRecordWrite (ok : Bool) (s : State) : Host.Outcome State Fault Refusal :=
  .next (
    match nvTask s 4 with
    | none => s
    | some t =>
      if !ok then saveBad s t 4
      else
        let r : RightsImage := { roles := s.rights.roles, recoveries := s.rights.recoveries }
        let n := { s.nv with rights := .good r, nvwRights := s.nv.nvwRights + 1 }
        taskEnd (nvFree { s with nv := n }) t.num 0 0 [])

/-! ### Sealing (07 R343–R345, 03 R156) -/

/-- CRC-32 over the 8 192 bytes of the seal region. -/
def sealCrc (es : List Entry) : Word :=
  natW (crc32 ((es.map entryBytes).flatten ++ List.replicate (8192 - 32 * es.length) 0))

/-- The entries of a valid seal: descriptor and region both pass their checks (07 R343, 01 R72). -/
def sealHeld (s : State) : List Entry :=
  match s.nv.sealDesc with
  | .good d => if d.crc = sealCrc s.nv.sealEnts then s.nv.sealEnts else []
  | _ => []

/-- The seal region and its descriptor written, or left failing their check. -/
def sealWrite (s : State) (t : TaskRec) (ok : Bool) : State :=
  let es := s.nv.sealing
  let d : SealDesc := { crc := sealCrc es, seq := (es.getLast?.map Entry.seq).getD 0, count := es.length,
                        writes := (readLog s 0x12).toNat + 1 }
  if ok then { s with nv := { s.nv with sealDesc := .good d, sealEnts := es } }
  else nvFail { s with nv.sealDesc := .bad } (taskOrg t) 3 2

/-- End of a seal task; `done` is what a good seal brings. -/
def sealTask (s : State) (t : TaskRec) (ok : Bool) (done : State → State) : State :=
  let s1 := nvFree (sealWrite s t ok)
  if ok then done s1 else taskEnd s1 t.num 0x19 0 []

/-- LOG_SEAL_TASK: a seal task starts, writes and ends. -/
def execLogSealTask (ok : Bool) (s : State) : Host.Outcome State Fault Refusal :=
  .next (
    match nvTask s 3 with
    | none => s
    | some t =>
      match t.obj with
      | .sealLog false => sealTask s t ok (fun s => taskEnd s t.num 0 0 [])
      | _ => s)

/-- DORMANT_ARM: the seal of STATE target 0; a STATE request taken meanwhile leaves the latch clear. -/
def execDormantArm (ok : Bool) (s : State) : Host.Outcome State Fault Refusal :=
  .next (
    match nvTask s 3 with
    | none => s
    | some t =>
      match t.obj with
      | .sealLog true => sealTask s t ok (fun s =>
          if t.stage = 0 then taskEnd { s with u.armed := true } t.num 0 0 [] else taskEnd s t.num 3 6 [])
      | _ => s)

end Sys2Proof.Machine
end

