-- ==== Sys2Proof/Machine/Packet.lean ====
section
/-! DEFINITION. What every command packet goes through: lengths, roles, states, payload fields, replies, duplicate records and
rejections (06 R264–R310, 07 R313, 03 R126). -/

namespace Sys2Proof.Machine

/-! ### Results of an opcode -/

/-- What an opcode brings: the state, and its answer; none where the answer comes later. -/
abbrev OpResult := State × Option Answer

def opDone (s : State) (data : List Byte) : OpResult := (s, some (answer stDone data))
def opFail (s : State) (status : Nat) : OpResult := (s, some (answer status []))

/-- Run what stands behind a list of checks, made in order: a check that fails answers its status and changes nothing. Before BUSY, the
check of step 11, comes that of step 10: an entry that would find no place (06 R284, 07 R339). -/
def guarded (s : State) (gs : List (Bool × Nat)) (run : OpResult) : OpResult :=
  match gs.find? (fun g => !g.1) with
  | some g => if g.2 = stBusy && logBlocked s && decide (s.log.unlogged < run.1.log.unlogged) then opFail s stLocked else opFail s g.2
  | none => run

/-- An opcode at work: its sender, its origin, the sender's role, and what the first decision gave it; nothing yet in the trial
run that forms its request (17 R750). -/
structure Ctx where
  src     : Byte
  seq     : Byte
  bcast   : Bool
  origin  : BitVec 16
  role    : Nat
  verdict : Option Verdict
  deriving DecidableEq, Repr

/-! ### Payload fields (06 R298, R20) -/

/-- Byte `i` of a payload, and the field of `n` bytes at `i`. -/
def plByte (pl : List Byte) (i : Nat) : Nat := (pl.getD i 0).toNat
def plField (pl : List Byte) (i n : Nat) : Nat := beNat ((pl.drop i).take n)

/-- Bytes of a channel mask in a payload with `rest` bytes after it (06 R942). -/
def maskLen (pl : List Byte) (rest : Nat) : Nat := if 8 + rest ≤ pl.length then 8 else 4

/-- The channel mask; at a unit that is not a Span lead bits [63:32] must be zero (06 R942). -/
def plMask (pl : List Byte) (rest : Nat) : Nat := plField pl 0 (maskLen pl rest)
def maskOk (pl : List Byte) (rest : Nat) : Bool := decide (plMask pl rest < 2 ^ 32)

/-- The bytes of a mask operand. -/
def maskBytes (m : Mask) : List Byte := if m.wide then beBytes 8 m.bits.toNat else beBytes 4 m.bits.toNat

/-- The (ID, value) pairs of a SETP or CONF payload, and the IDs of a GETP. -/
def plPairs : List Byte → List (Nat × Word)
  | a :: b :: c :: d :: e :: f :: l => (beNat [a, b], natW (beNat [c, d, e, f])) :: plPairs l
  | _ => []
def plIds : List Byte → List Nat
  | a :: b :: l => beNat [a, b] :: plIds l
  | _ => []

/-! ### Opcodes (06 R295, 20 R898, 11 R505) -/

/-- Whether a length is allowed; none for an opcode that is not defined (06 R295). -/
def lenOk (opc : Nat) (pl : List Byte) : Option Bool :=
  let n := pl.length
  let is (ks : List Nat) : Option Bool := some (ks.contains n)
  match opc with
  | 0x00 => is [0] | 0x01 => is [0]
  | 0x02 => some (2 ≤ n && n ≤ 32 && n % 2 == 0)
  | 0x03 => some (6 ≤ n && n ≤ 96 && n % 6 == 0)
  | 0x04 => is [4] | 0x05 => is [0, 1] | 0x06 => is [1] | 0x08 => is [1, 9] | 0x09 => is [2] | 0x0A => is [0]
  | 0x0C => is [8] | 0x0D => is [0] | 0x0E => is [6] | 0x10 => is [14] | 0x11 => is [0]
  | 0x14 => is [4, 8] | 0x15 => is [4, 8] | 0x16 => is [2] | 0x17 => is [4, 8] | 0x18 => is [6, 10]
  | 0x1A => some (5 ≤ n && n ≤ 236 && n % 3 == 2)
  | 0x1B => is [3] | 0x1C => is [5, 9] | 0x1D => is [0] | 0x20 => is [2] | 0x21 => is [6] | 0x22 => is [1]
  | 0x23 => some (5 ≤ n && n ≤ 239 && n % 2 == 1)
  | 0x28 => is [2] | 0x29 => is [1]
  | 0x2A => some (10 ≤ n && n ≤ 234 && n % 8 == 2)
  | 0x2B => is [1] | 0x2C => is [4, 8] | 0x30 => is [3] | 0x31 => is [1] | 0x32 => is [1] | 0x33 => is [7]
  | 0x34 => is [0] | 0x35 => is [0] | 0x38 => is [2] | 0x39 => is [1] | 0x3A => is [1] | 0x3C => is [2] | 0x3D => is [1]
  | 0x40 => is [2] | 0x41 => is [0] | 0x42 => is [0] | 0x44 => is [1] | 0x45 => is [1] | 0x46 => is [9]
  | 0x48 => is [1] | 0x4A => is [0]
  | 0x7F => some (match plByte pl 0 with
    | 1 => n == 2
    | 2 => n == 1
    | _ => 1 ≤ n && n ≤ 240)
  | _ => none

/-- The minimum role of an opcode (06 R295, 20 R898); that of a SETP is its pairs'. -/
def minRole (opc : Nat) (pl : List Byte) : Nat :=
  match opc with
  | 0x05 => if pl.isEmpty then observer else operator
  | 0x06 => keeper | 0x09 => keeper | 0x10 => keeper | 0x44 => keeper | 0x45 => keeper | 0x46 => keeper
  | 0x1A => tuner | 0x1B => tuner | 0x23 => tuner | 0x2A => tuner | 0x3D => tuner | 0x40 => tuner | 0x41 => tuner
  | 0x7F => if plByte pl 0 = 1 then tuner else observer
  | 0x00 => observer | 0x01 => observer | 0x02 => observer | 0x03 => observer | 0x04 => observer | 0x08 => observer
  | 0x0A => observer | 0x0C => observer | 0x11 => observer | 0x33 => observer | 0x34 => observer | 0x39 => observer
  | 0x42 => observer | 0x48 => observer | 0x4A => observer
  | _ => operator

/-- Starts and actions, and configuration, of 03 R126. -/
def startOps : List Nat := [0x14, 0x16, 0x17, 0x18, 0x1C, 0x1D, 0x20, 0x21, 0x28, 0x2B, 0x2C, 0x30, 0x32, 0x3C]
def configOps : List Nat := [0x03, 0x1A, 0x1B, 0x2A, 0x23, 0x3D, 0x46, 0x44, 0x45]

/-- The state accepts the opcode (03 R126). -/
def stateTakes (st : UState) (opc : Nat) : Bool :=
  if startOps.contains opc then st == .run
  else if configOps.contains opc then st != .vigil
  else if opc = 0x40 then st == .idle || st == .run
  else true

/-- The query opcodes (06 R270, 03 R126). -/
def isQuery (opc : Nat) (pl : List Byte) : Bool :=
  [0x00, 0x01, 0x02, 0x04, 0x0C, 0x11, 0x33, 0x34, 0x39, 0x42, 0x48, 0x4A].contains opc || (opc == 0x05 && pl.isEmpty)

/-- Long opcodes whose first decision precedes their effect (17 R750). -/
def isDecided (opc : Nat) (pl : List Byte) : Bool :=
  [0x0D, 0x28, 0x2B, 0x2C, 0x44, 0x45, 0x46].contains opc || (opc == 0x05 && pl.length == 1 && plByte pl 0 == 0)

/-- The place of a status in the order of 06 R284. -/
def stepRank (status : Nat) : Nat :=
  match status with
  | 0x15 => 3 | 0x17 => 4 | 0x14 => 5 | 0x12 => 6 | 0x10 => 7 | 0x16 => 8 | 0x13 => 9 | 0x11 => 10 | 0x18 => 11
  | _ => 12

/-- An ID named at this unit: its own, or a tail page at a Span lead (19 R834). -/
def idHome (s : State) (id : Nat) : Nat := if isSpanLead s && decide (0x8000 ≤ id) && decide (id < 0xC000) then id - 0x8000 else id
def isFarId (s : State) (id : Nat) : Bool := isSpanLead s && decide (0x8000 ≤ id) && decide (id < 0xC000)
def idDefined (s : State) (id : Nat) : Bool := (descOf (idHome s id)).isSome

/-- Steps 6 and 7 over the pairs of a whole SETP. -/
def setpNames (s : State) (role : Nat) (pl : List Byte) : Option Answer :=
  let ps := plPairs pl
  match ps.findIdx? (fun p => !idDefined s p.1) with
  | some i => some (answer stBadId [byteOf (i + 1)])
  | none =>
    match ps.findIdx? (fun p => !pairRole (idHome s p.1) role) with
    | some i => some (answer stDenied [byteOf (i + 1)])
    | none => none

/-- Step 6 of a read of parameters. -/
def readNames (s : State) (opc : Nat) (pl : List Byte) : Bool :=
  if opc = 0x02 then (plIds pl).all (idDefined s)
  else if opc = 0x04 then idDefined s (plField pl 0 2)
  else true

/-- Steps 3 to 7 of 06 R284, but for the code of a coded claim (07 R320). -/
def packetNames (s : State) (role : Nat) (opc : Nat) (pl : List Byte) : Option Answer :=
  match lenOk opc pl with
  | none => some (answer stUnknown [])
  | some ok =>
    if isTail s && opc != 0x42 then some (answer stTwinTail [])
    else if !ok then some (answer stBadLen [])
    else if opc = 0x03 then setpNames s role pl
    else if !readNames s opc pl then some (answer stBadId [])
    else if role < minRole opc pl then some (answer stDenied [])
    else none

/-! ### Bulk transfers and reads (06 R293, R307) -/

/-- The pending transfer is another client's (06 R293); of a tail's transfers its lead is the judge. -/
def bulkTaken (s : State) (src : Byte) : Bool :=
  match s.cmd.bulk with
  | some b => b.src != src
  | none => false
def bulkBusy (s : State) (c : Ctx) : Bool := bulkTaken s c.src && !isTail s

/-- A read through the lane (VIA 1). -/
def viaLane (opc : Nat) (pl : List Byte) : Bool :=
  match opc with
  | 0x04 => plByte pl 3 == 1
  | 0x0C => plByte pl 7 == 1
  | 0x33 => plByte pl 6 == 1
  | _ => false

/-- A read through the lane: the length now, the bytes at later grants. -/
def bulkRead (s : State) (c : Ctx) (bytes : List Byte) : OpResult :=
  let b : Bulk := { src := c.src, seq := c.seq, bytes := bytes, offset := 0, total := bytes.length, far := none }
  opDone { s with cmd.bulk := if bytes.isEmpty then none else some b } (beBytes 4 bytes.length)

/-! ### Duplicate records, replies and rejections (06 R272, R281, R287, R291) -/

/-- The record of a client's last changing packet, if the SEQ is the same. -/
def dupOf (s : State) (p : Packet) : Option Dup :=
  match aget s.cmd.dups p.src.toNat with
  | some d => if d.seq = p.seq then some d else none
  | none => none

/-- The record of a changing packet; `wait` where its answer is still to come. -/
def dupSet (s : State) (p : Packet) (a : Answer) (wait : Option Byte) : State :=
  { s with cmd.dups := aset s.cmd.dups p.src.toNat { seq := p.seq, ans := a, wait := wait } }

def replyAdd (s : State) (p : Packet) (a : Answer) (wait : Option Byte) : State :=
  let r : Reply := { src := p.src, seq := p.seq, ans := a, sent := 0, wait := wait }
  { s with cmd.replies := s.cmd.replies ++ [r] }

/-- Eight replies are queued and unsent (06 R272). -/
def repliesFull (s : State) : Bool := decide (8 ≤ s.cmd.replies.length)

/-- An answer is a rejection: a failed check, or REFUSED. -/
def isReject (a : Answer) : Bool := a.status.toNat == stRefused || (decide (0x10 ≤ a.status.toNat) && a.status.toNat != stSeqDup)

/-- CMD_REJECT. -/
def rejectLog (s : State) (p : Packet) (a : Answer) (origin : BitVec 16) (subject : Nat) : State :=
  let reason : Nat := if a.status.toNat = stRefused then plByte a.data 0 else 0
  logE s origin 0x0011 subject (natW (p.opc.toNat * 256 + p.seq.toNat)) (natW (a.status.toNat + reason * 256))

/-- BCAST_REJECT. -/
def rejectEvent (s : State) (p : Packet) (a : Answer) : State :=
  let reason : Byte := if a.status.toNat = stRefused then a.data.getD 0 0 else 0
  let pos : Byte := if p.opc = 0x03 then a.data.getD 0 0 else 0
  queueEvent s 0x05 [p.src, p.seq, p.opc, a.status, reason, pos]

/-- What a rejected packet leaves behind. -/
def rejectNote (s : State) (p : Packet) (a : Answer) : State :=
  if p.bcast then (if isReject a then rejectEvent (rejectLog s p a (orgPkt p.src) 0) p a else s)
  else if a.status.toNat = stDenied then rejectLog s p a (orgPkt p.src) 0
  else s

/-- The answer of a packet is recorded, and queued unless it was a broadcast. -/
def packetFinish (s : State) (p : Packet) (a : Answer) (wait : Option Byte) : State :=
  let s1 := rejectNote s p a
  let s2 := if isQuery p.opc.toNat p.payload then s1 else dupSet s1 p a wait
  if p.bcast then s2 else replyAdd s2 p a wait

/-- Of the entries that join `n` held ones, one that finds no place before LOG_FULL is a client's. -/
def clientLost (n : Nat) (es : List Entry) : Bool := (es.drop (4095 - n)).any (fun e => orgClient e.origin != 0)

/-- Under STOP a changing packet is LOCKED, and nothing applies: once 4 095 entries are held, if it would write any; before, if one of
its client's would find no place. Entries of the unit's own do not count for this (07 R339, R340, R345). -/
def stopHeld (s : State) (free : Bool) (run : State → OpResult) : OpResult :=
  if free || !stopPolicy s then run s
  else if (if 4095 ≤ s.log.entries.length then decide (s.log.unlogged < (run s).1.log.unlogged)
      else clientLost s.log.entries.length (run { s with log.entries := [] }).1.log.entries) then opFail s stLocked
  else run s

/-! ### Long opcodes (06 R285, R308, 17 R750, R751) -/

/-- A refused request makes no task, and leaves one TASK_REFUSE entry with subject 0. -/
def longRefused (s : State) (c : Ctx) (opc reason : Nat) : OpResult :=
  (logE s c.origin 0x0061 0 (natW opc) (natW reason), some (answer stRefused [byteOf reason]))

/-- What a verdict makes of a fresh task: granted, or deferred, with its entry after the commanded
effects of the tick (07 R331); one that asked nothing waits. -/
def longNote (s : State) (n : Nat) (v : Option Verdict) : State :=
  match v with
  | none => s
  | some v =>
    if v.status = vDefer then
      dueAdd (taskMod s n (fun t => { t with state := .deferred, reason := byteOf v.reason, energy := v.energy,
                                             defers := 1 }))
        (.deferred n v.reason (if v.far then orgTwin else orgUnit))
    else if !v.asked then s
    else taskMod s n (fun t => { t with state := .granted, energy := v.energy })

/-- The reply of a long opcode whose task is `n`. -/
def longAnswer (v : Option Verdict) (n : Nat) : Answer :=
  match v with
  | some v => if v.status = vDefer then answer stDeferred [byteOf v.reason, byteOf n] else answer stAccepted [byteOf n]
  | none => answer stAccepted [byteOf n]

/-- A decided long opcode: its task, what starts with it, and its reply; a refusal makes neither. `go s n` is what the task's
first grant or deferral brings beside the task table. -/
def longRun (s : State) (c : Ctx) (opc : Nat) (cls : TaskClass) (obj : TaskObj) (go : State → Nat → State) : OpResult :=
  match c.verdict with
  | some v =>
    if v.status = vRefuse then longRefused s c opc v.reason
    else
      let n := nextTaskNum s
      (go (longNote (taskNew s opc cls c.origin obj) n c.verdict) n, some (longAnswer c.verdict n))
  | none =>
    let n := nextTaskNum s
    (go (longNote (taskNew s opc cls c.origin obj) n none) n, some (longAnswer none n))

/-- A verdict granted energy, or deferred. -/
def vGranted (v : Option Verdict) : Bool :=
  match v with
  | some v => v.status == vGrant && v.energy != 0
  | none => false
def vDeferred (v : Option Verdict) : Bool :=
  match v with
  | some v => v.status == vDefer
  | none => false

/-- A Chore opcode whose NV write begins with its first grant. -/
def choreRun (s : State) (c : Ctx) (opc : Nat) (obj : TaskObj) : OpResult :=
  longRun s c opc .chore obj (fun s n =>
    if !vGranted c.verdict then s
    else match taskOf s n with
      | some t => nvBegin s t
      | none => s)

end Sys2Proof.Machine
end

