-- ==== Sys2Proof/Machine/CmdUnit.lean ====
section
/-! DEFINITION. The opcodes of the unit as a whole: identity, parameters, states, rights, Logbook and time (03, 06, 07, 08). Each is
given its payload after steps 1–7 of 06 R284 and the state groups of step 8 have passed. -/

namespace Sys2Proof.Machine

/-! ### Identity and parameters (06 R296, R297, 20 R876) -/

def opHello (s : State) (_c : Ctx) (_pl : List Byte) : OpResult :=
  opDone s (beBytes 8 s.fac.serial.toNat ++ beBytes 2 s.fac.romRev.toNat ++
    [s.seam.frev, byteOf s.ring.hop, byteOf (packFlags [isLead s, isTail s, decide (keepers s ≠ 0)])])

def opNop (s : State) (_c : Ctx) (_pl : List Byte) : OpResult := opDone s []

def opGetp (s : State) (_c : Ctx) (pl : List Byte) : OpResult :=
  opDone s (((plIds pl).map (fun id => beBytes 4 (readParam s id).toNat)).flatten)

def opSetp (s : State) (c : Ctx) (pl : List Byte) : OpResult :=
  let ps := plPairs pl
  match setpCheck s c.role c.origin ps with
  | some (st, n) => (s, some (answer st [byteOf n]))
  | none => opDone (setpApply s c.origin ps) []

def opGetblk (s : State) (c : Ctx) (pl : List Byte) : OpResult :=
  let first := plField pl 0 2
  let n := plByte pl 2
  let via := plByte pl 3
  let data := ((List.range n).map (fun i => beBytes 4 (readParam s (first + i)).toNat)).flatten
  guarded s [(via ≤ 1 && 1 ≤ n && decide (first % 256 + n ≤ 256) && (via == 1 || n ≤ 63), stBadValue),
             (via == 0 || !bulkBusy s c, stBusy)]
    (if via = 0 then opDone s data else bulkRead s c data)

/-! ### States (03 R125, R138–R156) -/

/-- The 13 bytes of 03 R125. -/
def stateData (s : State) : List Byte :=
  [byteOf (stCode s.u.st), byteOf (stateFlags s), byteOf s.u.rcause] ++ beBytes 2 s.u.safecause.toNat ++
  beBytes 2 s.u.chgEra.toNat ++ beBytes 6 s.u.chgTick.toNat

/-- A STATE request is taken: the armed latch clears, and a seal that would arm it will not (03 R156). -/
def stateTaken (s : State) : State :=
  { s with u.armed := false,
           sched.tasks := s.sched.tasks.map (fun t => if t.obj = .sealLog true then { t with stage := 1 } else t) }

/-- Whether a target other than the present state is reached by a STATE request (03 R139, R155). -/
def stateReach (s : State) (t : Nat) : Bool :=
  match t with
  | 0 => s.u.st == .idle
  | 1 => s.u.st == .run || s.u.st == .vigil || (s.u.st == .safe && safeCauses s == 0)
  | 2 => s.u.st == .idle || s.u.st == .vigil
  | 3 => s.u.st == .run
  | _ => s.u.st != .safe

/-- Targets 1 to 4. -/
def stateEnter (s : State) (t : Nat) (origin : BitVec 16) : State :=
  if t = stCode s.u.st then s
  else
    match t with
    | 1 => enterIdle s origin
    | 2 => enterRun s origin
    | 3 => enterVigil s origin
    | _ => enterSafe s 0x0040 origin

/-- STATE target 0: the pair is split, and the seal runs as the request's task (03 R156, 19 R862). A request deferred or refused in its first
decision answers DEFERRED or REFUSED, as any long opcode (17 R750; DEDUCED, log 97). -/
def dormantTask (s : State) (c : Ctx) : OpResult :=
  longRun s c 0x05 .chore (.sealLog true) (fun s n =>
    let s1 := twinSplit s c.origin false
    if !vGranted c.verdict then s1
    else match taskOf s1 n with
      | some t => nvBegin s1 t
      | none => s1)

def opState (s : State) (c : Ctx) (pl : List Byte) : OpResult :=
  if pl.isEmpty then opDone s (stateData s)
  else
    let t := plByte pl 0
    guarded s [(t ≤ 4, stBadValue), (t == stCode s.u.st || stateReach s t, stWrongState),
               (t != 0 || !logBlocked s, stLocked), (t != 0 || !tasksFull s, stBusy)]
      (if t = 0 then dormantTask s c else
        let s1 := stateEnter s t c.origin
        opDone s1 (stateData s1))

/-- RESET: its entry, old and new value 0, and the reset at p = 0 of the superframe after its reply (03 R138; log 30). A partner it joins is
told (19 R826; log 95). -/
def opReset (s : State) (c : Ctx) (pl : List Byte) : OpResult :=
  let told := if s.twin.join.isSome then twinSend s 0x0E [2] else s
  guarded s [(plByte pl 0 ≤ 1, stBadValue)]
    (opDone { logE told c.origin Config.resetEvent.toNat 0 0 0 with u.resetDue := some (plByte pl 0, s.t.sf) } [])

/-! ### Rights (07 R313–R326) -/

/-- A rights-record write stands in the table and has not started, or is owed. -/
def rightsDue (s : State) : Bool :=
  s.sched.owed.contains .rights || s.sched.tasks.any (fun t => t.obj == .rights && !(match s.nv.writing with
    | some w => w.2 == t.num && s.nv.staged.isSome
    | none => false))

/-- The record is written after every role change (07 R316). -/
def rightsTask (s : State) : State := if rightsDue s then s else autoTask s .chore .rights

/-- Change a role, with its ROLE_SET entry. -/
def roleSet (s : State) (client role : Nat) (origin : BitVec 16) : State :=
  let old := roleOf s client
  if old = role then s
  else
    let rs := if role = observer then adel s.rights.roles client else aset s.rights.roles client role
    rightsTask (logE { s with rights.roles := rs } origin 0x0020 (0x0380 + client) (natW old) (natW role))

/-- CODE as compared: a–z mapped to A–Z. -/
def codeUpper (bs : List Byte) : List Byte :=
  bs.map (fun b => if 0x61 ≤ b.toNat ∧ b.toNat ≤ 0x7A then b - 0x20 else b)

/-- A failed comparison: one more CLAIM_FAILS, and the hold-off starts (07 R322). -/
def claimFailed (s : State) : State :=
  { s with rights := { s.rights with claimFails := s.rights.claimFails + 1, holdoff := 1000, holdEnd := false } }

def opClaim (s : State) (c : Ctx) (pl : List Byte) : OpResult :=
  let role := plByte pl 0
  if pl.length = 1 then guarded s [(role ≤ 3, stBadValue)] (opDone s [byteOf (roleOf s c.src.toNat)])
  else if c.bcast || keepers s != 0 || s.rights.holdoff != 0 then opFail s stDenied
  else if codeUpper (pl.drop 1) != s.fac.claim then opFail (claimFailed s) stDenied
  else guarded s [(role == 3, stBadValue)] (opDone (roleSet s c.src.toNat keeper c.origin) [3])

def opGrant (s : State) (c : Ctx) (pl : List Byte) : OpResult :=
  let k := plByte pl 0
  let role := plByte pl 1
  guarded s [(1 ≤ k && k ≤ 125 && role ≤ 3, stBadValue)] (opDone (roleSet s k role c.origin) [])

def opRelease (s : State) (c : Ctx) (_pl : List Byte) : OpResult := opDone (roleSet s c.src.toNat observer c.origin) []

/-! ### Logbook (07 R343–R348) -/

/-- Entries of a read: from the one with seq FIRST, or the oldest, or the COUNT-th newest; at most COUNT of them. -/
def logRun (es : List Entry) (first n : Nat) : List Entry :=
  let start := if first = 0xFFFFFFFF then es.length - n else (es.findIdx? (fun e => e.seq.toNat == first)).getD 0
  (es.drop start).take n

/-- Entries of a source: the Logbook in SRAM, or a valid seal. -/
def logSource (s : State) (src : Nat) : List Entry :=
  if src = 0 then s.log.entries
  else sealHeld s

/-- A seal is being written. -/
def sealWriting (s : State) : Bool :=
  match s.nv.writing with
  | some w => w.1 == 3
  | none => false

def opLogread (s : State) (c : Ctx) (pl : List Byte) : OpResult :=
  let src := plByte pl 0
  let n := plField pl 5 2
  let via := plByte pl 7
  let data := ((logRun (logSource s src) (plField pl 1 4) n).map entryBytes).flatten
  guarded s [(src ≤ 1 && via ≤ 1 && 1 ≤ n && n ≤ 4096 && (via == 1 || n ≤ 7), stBadValue),
             (src == 0 || !sealWriting s, stBusy), (via == 0 || !bulkBusy s c, stBusy)]
    (if via = 0 then opDone s data else bulkRead s c data)

/-- A seal task stands in the table. -/
def sealRuns (s : State) : Bool := s.sched.tasks.any (fun t => t.obj == .sealLog false || t.obj == .sealLog true)

def opLogseal (s : State) (c : Ctx) (_pl : List Byte) : OpResult :=
  guarded s [(!logBlocked s, stLocked), (!sealRuns s, stBusy), (!tasksFull s, stBusy)] (choreRun s c 0x0D (.sealLog false))

def opLogmark (s : State) (c : Ctx) (pl : List Byte) : OpResult :=
  opDone (logE s c.origin 0x000D (plField pl 0 2) 0 (natW (plField pl 2 4))) (beBytes 4 s.log.nextSeq.toNat)

/-! ### Time (08 R372–R377) -/

def opTimeset (s : State) (c : Ctx) (pl : List Byte) : OpResult :=
  let wall := BitVec.ofNat 64 (plField pl 0 8)
  let tick := BitVec.ofNat 48 (plField pl 8 6)
  guarded s [(timesetReady s, stWrongState), (timesetValue wall tick, stBadValue)]
    (opDone (timesetRun s c.origin wall tick) [])

def opTimeq (s : State) (_c : Ctx) (_pl : List Byte) : OpResult := opDone s (timeqData s)

end Sys2Proof.Machine
end

