-- ==== Sys2Proof/Machine/CmdChan.lean ====
section
/-! DEFINITION. The opcodes of channels, filters, cells and calibration (09, 10, 12, 15 R683). -/

namespace Sys2Proof.Machine

/-! ### Starting and stopping (12 R557, R558, R565, 10 R467, R485) -/

/-- Bits 0–13 of a mask, as channels. -/
def maskChans (m : Nat) : List Nat := maskList 14 m

/-- Room for `n` more tasks. -/
def tasksRoom (s : State) (n : Nat) : Bool := decide (s.sched.tasks.length + n ≤ 16)

def opChstart (s : State) (c : Ctx) (pl : List Byte) : OpResult :=
  let m := plMask pl 0
  let fresh := (maskChans m).filter (fun ch => !(chainOf s ch).started)
  guarded s [(fresh.all (fun ch => !chainDead s ch), stWrongState),
             (maskOk pl 0 && decide (m < 2 ^ 24), stBadValue),
             (fresh.all (fun ch => !inSnap s ch) && tasksRoom s (fresh.filter (12 ≤ ·)).length, stBusy)]
    (opDone (forEach s fresh (fun s ch => chanStart s ch c.origin)) [])

/-- Stop one channel by command: its check, its conversion or SNAP, a bridge's task, and its place in the sentinel set. -/
def chanCommandStop (s : State) (ch : Nat) (origin : BitVec 16) : State :=
  let s1 := chanHalt (if (chainOf s ch).started then zAbortChan s ch else s) ch origin
  let s2 := if 12 ≤ ch then bridgeEnd s1 (ch - 12) 0 0 else s1
  if ch < 8 then
    { s2 with vigil := { s2.vigil with set := s2.vigil.set &&& ~~~(BitVec.ofNat 8 (2 ^ ch)),
                                       waiting := s2.vigil.waiting &&& ~~~(BitVec.ofNat 24 (2 ^ ch)) } }
  else s2

def opChstop (s : State) (c : Ctx) (pl : List Byte) : OpResult :=
  let m := plMask pl 0
  guarded s [(maskOk pl 0 && decide (m < 2 ^ 24), stBadValue)]
    (opDone (forEach s (maskChans m) (fun s ch => chanCommandStop s ch c.origin)) [])

def opSnap (s : State) (c : Ctx) (pl : List Byte) : OpResult :=
  let m := plMask pl 0
  let chs := maskChans m
  let snaps := maskList 12 m
  guarded s [(chs.all (fun ch => !filtRunning s ch && !chainDead s ch), stWrongState),
             (maskOk pl 0 && decide (m < 2 ^ 24) && chs == snaps && !snaps.isEmpty, stBadValue),
             (!tasksFull s, stBusy)]
    (let n := nextTaskNum s
     let s1 := taskNew s 0x17 .keep c.origin (.snap (BitVec.ofNat 64 (m % 2 ^ 12)))
     (forEach s1 snaps snapStart, some (answer stAccepted [byteOf n])))

/-! ### Ranges and streams (09 R409, 10 R451, R462, 15 R683) -/

def opRange (s : State) (c : Ctx) (pl : List Byte) : OpResult :=
  let n := plByte pl 0
  let rg := plByte pl 1
  let bounded := !rangerOn s n || (rangerMin s n ≤ rg && rg ≤ rangerMax s n)
  let same := decide (rg = activeRange s n)
  guarded s [(12 ≤ n || (chainOf s n).started, stWrongState), (n < 12 && rg ≤ 5 && bounded, stBadValue),
             (same || !logBlocked s, stLocked)]
    (opDone (if same then s else rangeAsk s n rg c.origin false false) [])

/-- STREAM: bits 14–17 of the mask are ignored (11 R493; log 19). -/
def opStream (s : State) (_c : Ctx) (pl : List Byte) : OpResult :=
  let m := plMask pl 2
  let on := m &&& 0xFC3FFF
  let d := plField pl (maskLen pl 2) 2
  let st := { s.stream with mask := BitVec.ofNat 24 on, div := d, st := .on, count := Vector.replicate 24 0 }
  guarded s [(maskOk pl 2 && decide (m < 2 ^ 24) && d != 0, stBadValue)]
    (opDone (if on = 0 then streamOff s else { s with stream := st }) [])

/-! ### Responses (12 R534–R538, R569) -/

/-- The coefficients of a FIRLOAD. -/
def plCoeffs : List Byte → List (BitVec 24)
  | a :: b :: c :: l => BitVec.ofNat 24 (beNat [a, b, c]) :: plCoeffs l
  | _ => []

/-- A running channel selects a user set. -/
def usetInUse (s : State) (k : Nat) : Bool :=
  (List.range 14).any (fun c => filtRunning s c && pNat s (idFilt c 1) == 7 && pNat s (idFilt c 2) == k)

def opFirload (s : State) (c : Ctx) (pl : List Byte) : OpResult :=
  let k := plByte pl 0
  let first := plByte pl 1
  let co := plCoeffs (pl.drop 2)
  let old := vget s.usets k []
  guarded s [(k ≤ 15 && first ≤ old.length && decide (first + co.length ≤ 128), stBadValue), (!usetInUse s k, stLocked)]
    (opDone (logE { s with usets := vset s.usets k (old.take first ++ co) } c.origin 0x0042 k (natW first) (natW co.length)) [])

def opFirsel (s : State) (c : Ctx) (pl : List Byte) : OpResult :=
  let ch := plByte pl 0
  let ix := plByte pl 1
  let k := plByte pl 2
  let fit := (ix != 7 || !(vget s.usets k []).isEmpty) && (ix != 4 || pNat s (idFilt ch 0) == 3)
  let old := pNat s (idFilt ch 1) * 256 + pNat s (idFilt ch 2)
  let new := ix * 256 + k
  guarded s [(ch ≤ 13 && ix ≤ 7 && k ≤ 15 && fit, stBadValue), (!filtRunning s ch, stLocked)]
    (opDone (if pNat s (idFilt ch 1) = ix ∧ pNat s (idFilt ch 2) = k then s
      else logE (setParam (setParam s (idFilt ch 1) (natW ix)) (idFilt ch 2) (natW k)) c.origin 0x0043 ch (natW old) (natW new)) [])

def opDcfreeze (s : State) (c : Ctx) (pl : List Byte) : OpResult :=
  let m := plMask pl 1
  let f := plByte pl (maskLen pl 1)
  guarded s [(maskOk pl 1 && decide (m < 2 ^ 14) && f ≤ 1, stBadValue)]
    (opDone (forEach s (maskChans m) (fun s ch =>
      if (chainOf s ch).frozen = (f == 1) then s
      else logE (modChain s ch (fun x => { x with frozen := f == 1 })) c.origin 0x0044 ch (natW (1 - f)) (natW f))) [])

/-- SYNCNOW: the reset of this tick, with every other one named for it (12 R555, R556). -/
def opSyncnow (s : State) (c : Ctx) (_pl : List Byte) : OpResult :=
  let d : SyncDue := { up := s.t.up, count := none, order := 1, origin := c.origin }
  opDone (if s.ty = s.t.up ∧ s.t.up ≠ 0 then s else syncRun { s with syncs := s.syncs ++ [d] }) (beBytes 6 s.t.count.toNat)

/-! ### Calibration (12 R543) -/

/-- A calibration value in its range. -/
def calOk (w : Word) (lo hi : Rat) : Bool := f32Finite w && decide (lo ≤ f32Val w) && decide (f32Val w ≤ hi)

def opCalwrite (s : State) (c : Ctx) (pl : List Byte) : OpResult :=
  let ch := plByte pl 0
  let g := natW (plField pl 1 4)
  let o := natW (plField pl 5 4)
  let g1 := f32Flush g
  let o1 := f32Flush o
  let same := sameF32 g1 (chainOf s ch).gain && sameF32 o1 (chainOf s ch).off
  guarded s [(ch ≤ 13 && calOk g (1 / 2) 2 && calOk o (-1048576) 1048576, stBadValue), (same || !logBlocked s, stLocked),
             (!tasksFull s, stBusy)]
    (choreRun s c 0x46 (.calwrite ch g1 o1))

/-! ### Cells (09 R399–R402, 13 R607, 18 R811) -/

/-- BIAS ENABLE 1: the task and the sequence of 03 R144. -/
def biasOn (s : State) (c : Ctx) (k : Nat) : OpResult :=
  let n := nextTaskNum s
  (cellEnable (taskNew s 0x20 .keep c.origin (.bias k)) k n c.origin, some (answer stAccepted [byteOf n]))

/-- BIAS ENABLE 0: a check of the cell ends ABORTED, and the sequence of 03 R145 starts. -/
def biasOff (s : State) (c : Ctx) (k : Nat) : OpResult :=
  let s1 := if zCell s k then zAbortRun s else s
  let n := nextTaskNum s1
  (cellClose (taskNew s1 0x20 .keep c.origin (.bias k)) k n c.origin true, some (answer stAccepted [byteOf n]))

def opBias (s : State) (c : Ctx) (pl : List Byte) : OpResult :=
  let k := plByte pl 0
  let e := plByte pl 1
  let same := cellOn s k == (e == 1)
  guarded s [(k ≤ 3 && e ≤ 1, stBadValue), (same || ((cellOf s k).task == 0 && !tasksFull s), stBusy)]
    (if same then opDone s [] else if e = 1 then biasOn s c k else biasOff s c k)

end Sys2Proof.Machine
end

