-- ==== Sys2Proof/Machine/CmdLoad.lean ====
section
/-! DEFINITION. The opcodes of heaters, impedance checks, the analogue output and waveforms (11 R495–R510, 13 R597, R612,
18 R779, R795–R803). -/

namespace Sys2Proof.Machine

/-! ### Waveforms (18 R795–R803) -/

/-- The points of a WAVELOAD. -/
def plPoints : List Byte → List (BitVec 16)
  | a :: b :: l => BitVec.ofNat 16 (beNat [a, b]) :: plPoints l
  | _ => []

/-- A waveform plays or is suspended on some target. -/
def waveBusy (s : State) (w : Nat) : Bool := [0, 1, 2, 3, 4].any (fun t => isPlaying s t && (playOf s t).wave == w)

def opWaveload (s : State) (c : Ctx) (pl : List Byte) : OpResult :=
  let w := plByte pl 0
  let first := plField pl 1 2
  let ps := plPoints (pl.drop 3)
  let old := wavePts s w
  guarded s [(w ≤ 15 && first ≤ old.length && decide (first + ps.length ≤ waveSize s w), stBadValue),
             (!waveBusy s w, stLocked)]
    (opDone (logE { s with wave.points := vset s.wave.points w (old.take first ++ ps) } c.origin 0x0053 w (natW first)
      (natW ps.length)) [])

/-- The target a WAVEPLAY names can play: AOUT enabled, or a cell RAMPING or BIASED. -/
def playReady (s : State) (t : Nat) : Bool :=
  if t = 0 then s.aout.enabled else 4 < t || cellStatus s (t - 1) == 2 || cellStatus s (t - 1) == 3

/-- Playback starts with its first point in force (18 R799, R800). -/
def playStart (s : State) (t w k repeats : Nat) (origin : BitVec 16) : State :=
  let s1 := logE s origin 0x0054 t (natW (playCode s t)) (natW (w + 1))
  let p : Play := { st := .playing, wave := w, point := 0, passes := repeats, period := k, due := s.t.up + k }
  let s2 := modPlay s1 t (fun _ => p)
  if t = 0 then s2
  else
    let pt := pointOf s2 t
    biasTo (modCell s2 (t - 1) (fun c => { c with ramping := false })) (t - 1) (BitVec.ofNat 14 (pt.toNat / 4))

def opWaveplay (s : State) (c : Ctx) (pl : List Byte) : OpResult :=
  let w := plByte pl 0
  let t := plByte pl 1
  let k := plField pl 2 2
  guarded s [(playReady s t, stWrongState), (w ≤ 15 && t ≤ 4 && k != 0 && !(wavePts s w).isEmpty, stBadValue),
             (t == 0 || !zCell s (t - 1), stBusy)]
    (opDone (playStart s t w k (plField pl 4 2) c.origin) [])

def opWavestop (s : State) (c : Ctx) (pl : List Byte) : OpResult :=
  let t := plByte pl 0
  let ts := if t = 0xFF then [0, 1, 2, 3, 4] else [t]
  guarded s [(t ≤ 4 || t == 0xFF, stBadValue)] (opDone (forEach s ts (fun s t => playEnd s t c.origin false)) [])

/-! ### The analogue output (18 R771, R779) -/

def opAoutset (s : State) (c : Ctx) (pl : List Byte) : OpResult :=
  let code := BitVec.ofNat 16 (plField pl 0 2)
  guarded s [(!isPlaying s 0, stLocked)]
    (opDone (if code = s.aout.code then s
      else logE { s with aout.code := code } c.origin 0x0055 0 (s.aout.code.setWidth 32) (code.setWidth 32)) [])

def opAoutrange (s : State) (c : Ctx) (pl : List Byte) : OpResult :=
  let r := plByte pl 0
  guarded s [(!s.aout.enabled, stWrongState), (r ≤ 4, stBadValue)]
    (opDone (if r = s.aout.range then s
      else logE (regSet { s with aout.range := r } 0x16 3 1 r) c.origin 0x0056 0 (natW s.aout.range) (natW r)) [])

/-! ### Heaters (11 R495, R505, R508, R515) -/

/-- The steps of a PROFLOAD. -/
def plSteps : List Byte → List (BitVec 64)
  | a :: b :: c :: d :: e :: f :: g :: h :: l => BitVec.ofNat 64 (beNat [a, b, c, d, e, f, g, h]) :: plSteps l
  | _ => []

/-- A heater runs the profile. -/
def profInUse (s : State) (p : Nat) : Bool := (List.range 4).any (fun n => (htrOf s n).prof == some p)

def opProfload (s : State) (c : Ctx) (pl : List Byte) : OpResult :=
  let p := plByte pl 0
  let first := plByte pl 1
  let ss := plSteps (pl.drop 2)
  let old := vget s.profiles p []
  guarded s [(p ≤ 15 && first ≤ 31 && decide (first + ss.length ≤ 32) && ss.all stepOk, stBadValue), (!profInUse s p, stLocked)]
    (opDone (logE { s with profiles := vset s.profiles p (old.take first ++ ss.map stKept ++ old.drop (first + ss.length)) } c.origin
      0x0052 p (natW first) (natW ss.length)) [])

/-- A heater's task takes what its first decision gave, the drive word that went out among it; without one its loop is left for the
decision. -/
def heatFirst (s : State) (n : Nat) (v : Option Verdict) : State :=
  match v with
  | none => s
  | some x =>
    if x.status = vDefer then heatDeferred s n
    else heatGranted (modHtr s n (fun h => { h with next := x.word, lead := h.lead.map (fun r => { r with d := x.word }) })) n x.energy

/-- A profile starts with the duty its first decision was asked for. -/
def profileGo (c : Ctx) (h p : Nat) (s : State) (n : Nat) : State :=
  let s1 := heatStart s h p n c.origin
  if c.verdict.isNone then s1 else heatFirst (heaterLoop s1 h) h c.verdict

def opHeatrun (s : State) (c : Ctx) (pl : List Byte) : OpResult :=
  let h := plByte pl 0
  let p := plByte pl 1
  guarded s [(!(htrOf s h).fault, stWrongState), (h ≤ 3 && p ≤ 15 && stMode (profStep s p 0) != 0, stBadValue),
             (!htrRunning s h && !tasksFull s, stBusy)]
    (longRun s c 0x28 .heat (.profile h) (profileGo c h p))

def opLeadcal (s : State) (c : Ctx) (pl : List Byte) : OpResult :=
  let h := plByte pl 0
  guarded s [(3 < h || (pNat s (idHtr h 0) == 1 && !(htrOf s h).fault), stWrongState), (h ≤ 3, stBadValue),
             (!htrRunning s h && !tasksFull s, stBusy)]
    (longRun s c 0x2B .check (.leadcal h) (fun s1 n => heatFirst (leadStart s1 h n c.origin) h c.verdict))

def opHeatstop (s : State) (c : Ctx) (pl : List Byte) : OpResult :=
  let m := plByte pl 0
  guarded s [(m < 16, stBadValue)] (opDone (forEach s (maskList 4 m) (fun s n => htrEnd s n 0 0 c.origin)) [])

/-! ### Impedance checks (13 R597–R600, R612) -/

/-- The task takes what its first decision gave its first target. -/
def zGo (v : Option Verdict) (chs : List Nat) (s : State) (n : Nat) : State :=
  let s1 := zEnqueue s n chs
  let mine : Bool := match s1.z.run with
    | some r => r.task == n
    | none => false
  if mine && vGranted v then zGranted s1 else s1

def opZcheck (s : State) (c : Ctx) (pl : List Byte) : OpResult :=
  let m := plMask pl 0
  let chs := maskChans m
  let free := chs.filter (fun ch => !zBusy s ch)
  guarded s [(chs.all (fun ch => (chainOf s ch).started), stWrongState),
             (maskOk pl 0 && m != 0 && decide (m < 2 ^ 14), stBadValue), (free.isEmpty || !tasksFull s, stBusy)]
    (if free.isEmpty then opDone s []
     else longRun s c 0x2C .check (.zcheck (BitVec.ofNat 64 m)) (zGo c.verdict free))

end Sys2Proof.Machine
end

