-- ==== Sys2Proof/Machine/CmdCapt.lean ====
section
/-! DEFINITION. The opcodes of the Tripwire, capture memory, alarms, tally, the pair, NV and the queries of tasks, rations and pins
(14 R637–R641, 15 R671–R681, 16 R703–R712, 17 R756, R757, 19 R825, R863, R867, 20 R887–R899). -/

namespace Sys2Proof.Machine

/-! ### Tripwire (14 R625, R637–R640, 15 R671) -/

/-- Levels in the order POL asks for. -/
def levelsOk (s : State) (i : Nat) : Bool :=
  let a := pVal s (idTrip 5 i)
  let b := pVal s (idTrip 6 i)
  if pNat s (idTrip 3 i) = 0 then decide (a < b) else decide (b < a)

/-- The checks of a slot at TRIPARM. -/
def slotFit (s : State) (i : Nat) : Bool :=
  let tmin := pNat s (idTrip 8 i)
  let tmax := pNat s (idTrip 9 i)
  (pNat s (idTrip 2 i) == 0 || decide (pNat s (idTrip 1 i) ≤ 13)) &&
  (match pNat s (idTrip 0 i) with
   | 0 => true
   | 1 => decide (tmin ≤ tmax)
   | 2 => levelsOk s i
   | 3 => decide (1 ≤ tmax)
   | _ => levelsOk s i && (if pNat s (idTrip 4 i) = 0 then decide (1 ≤ tmin) else decide (1 ≤ tmax)))

/-- The arming master asks the ring (15 R671). -/
def masterAsk (s : State) (arm : Bool) (armId : BitVec 16) : State :=
  if captN s 5 = 1 ∧ armId ≠ 0 then { s with ring.masterReq := some (arm, armId), ring.masterSf := s.t.sf } else s

def opTriparm (s : State) (c : Ctx) (pl : List Byte) : OpResult :=
  let m := plByte pl 0
  let armId := BitVec.ofNat 16 (plField pl 1 2)
  guarded s [(m != 0 && (maskList 8 m).all (slotFit s), stBadValue), (!armBusy s armId, stBusy)]
    (opDone (masterAsk (tripArm s (byteOf m) armId c.origin) true armId) [])

/-- A disarm by command that leaves no slot armed in a ring-wide session reaches the ring. -/
def disarmRun (s : State) (m : Nat) (origin : BitVec 16) : State :=
  let s1 := tripDisarm s (byteOf m) origin
  if s.trip.armed ≠ 0 ∧ s1.trip.armed = 0 then masterAsk s1 false s.trip.armId else s1

def opTripdisarm (s : State) (c : Ctx) (pl : List Byte) : OpResult := opDone (disarmRun s (plByte pl 0) c.origin) []

def opTripforce (s : State) (_c : Ctx) (pl : List Byte) : OpResult :=
  let i := plByte pl 0
  guarded s [(s.trip.st != .disarmed, stWrongState), (i ≤ 7, stBadValue), (s.trip.st != .dead, stBusy)]
    (opDone (tripTake s 9 6 i 0xFF false s.t.era s.t.count 0 0x200) [])

/-! ### Capture memory (15 R679–R681) -/

/-- The records of a list that run on from the first one. -/
def recRun : List Rec → List Rec
  | a :: b :: l => if b.num = a.num + 1 then a :: recRun (b :: l) else [a]
  | l => l

/-- The newest records, back along their run. -/
def recBack : List Rec → List Rec
  | a :: b :: l => if a.num = b.num + 1 then a :: recBack (b :: l) else [a]
  | l => l

/-- The records a CAPREAD answers; FIRST 0xFFFF_FFFF takes the newest COUNT of the newest run. -/
def capRecs (s : State) (first n : Nat) : List Rec :=
  if first = 0xFFFFFFFF then ((recBack s.capt.recs.reverse).take n).reverse
  else (recRun (s.capt.recs.dropWhile (fun r => decide (r.num < first)))).take n

/-- The data of a read: the number of its first record, and the records. -/
def capData (s : State) (rs : List Rec) : List Byte :=
  beBytes 4 ((rs.head?.map Rec.num).getD s.capt.nextRec) ++ (rs.map (fun r => beBytes 8 r.word.toNat)).flatten

def opCapread (s : State) (c : Ctx) (pl : List Byte) : OpResult :=
  let n := plField pl 4 2
  let via := plByte pl 6
  let rs := capRecs s (plField pl 0 4) n
  guarded s [(via ≤ 1 && 1 ≤ n && decide (n ≤ (if via = 0 then 31 else 32768)), stBadValue), (via == 0 || !bulkBusy s c, stBusy)]
    (if via = 0 then opDone s (capData s rs) else bulkRead s c (if rs.isEmpty then [] else capData s rs))

def opCapstat (s : State) (_c : Ctx) (_pl : List Byte) : OpResult :=
  opDone s (((List.range 16).map (fun i => beBytes 4 (readCapt s (0x40 + i)).toNat)).flatten)

/-- CAPCLEAR: everything is discarded; the session goes on in a new segment while the Tripwire is armed. -/
def capClear (s : State) (origin : BitVec 16) : State :=
  let s1 := if capRunning s then capClose s 6 origin else s
  let c := { s1.capt with recs := [], fifo := [], prot := 0, segments := 0, nextDue := false, stopping := false, lostAt := none,
                          bEra := 0, bTick := 0, bAmp := 0, bMox := 0 }
  let s2 := { s1 with capt := c }
  if s.trip.st = .disarmed then { s2 with capt.phase := .empty, capt.armId := 0 } else capOpen s2 s.capt.armId

def opCapclear (s : State) (c : Ctx) (_pl : List Byte) : OpResult := opDone (capClear s c.origin) []

/-! ### Alarms and tally (16 R703–R705, R712, 19 R855) -/

/-- LATCHED becomes CLEAR with an ALARM_ACK entry; at a Mirror lead it is the pair's state, and at a Span tail a RULE message takes the
entry's place (19 R851, R852, R855). -/
def ackRule (s : State) (origin : BitVec 16) (r : Nat) : State :=
  if s.twin.mode = 2 then
    if pairOf s r = .latched then logE { s with twin.pairSt := vset s.twin.pairSt r .clear } origin 0x0071 (r + 256) 2 0 else s
  else if (ruleOf s r).st != .latched then s
  else if s.twin.mode = 3 then alarmTo s r .clear origin nanW
  else logE (modRule s r (fun a => { a with st := .clear })) origin 0x0071 r 2 0

def opAlarmack (s : State) (c : Ctx) (pl : List Byte) : OpResult :=
  opDone (forEach s (maskList 16 (plField pl 0 2)) (fun s r => ackRule s c.origin r)) []

def opTallyread (s : State) (_c : Ctx) (pl : List Byte) : OpResult :=
  let i := plByte pl 0
  guarded s [(i ≤ 23, stBadValue)]
    (opDone s ([byteOf i, byteOf (tallyCond s i)] ++ beBytes 2 (tallyCount s i) ++ [byteOf (tallyK s i)] ++ beBytes 2 (tallyW s i) ++
      beBytes 4 (tallyOf s i).total))

/-- What a released latch undoes (16 R704). -/
def tallyUndo (s : State) (i : Nat) : State :=
  if i = 15 then forEach s (List.range 12) (fun s n => modFront s n (fun f => { f with suspended := false }))
  else if i = 12 ∨ i = 13 then forEach s (List.range 4) (fun s n => modHtr s n (fun h => { h with fault := false }))
  else s

/-- Empty one source and release its latch. -/
def tallyClear (s : State) (origin : BitVec 16) (i : Nat) : State :=
  let s1 := tallyEmpty s i
  if !isLasting s i then s1
  else
    let s2 := { s1 with tally := vmod s1.tally i (fun t => { t with lasting := false }) }
    tallyUndo (logE s2 origin 0x0072 i 1 0) i

def opTallyclear (s : State) (c : Ctx) (pl : List Byte) : OpResult :=
  let i := plByte pl 0
  guarded s [(i ≤ 23 || i == 0xFF, stBadValue)]
    (opDone (forEach s (if i = 0xFF then List.range 24 else [i]) (fun s i => tallyClear s c.origin i)) [])

/-! ### The pair (19 R825, R826, R863, R867) -/

/-- The local conditions of a join that answer REFUSED, reason STATE. -/
def joinRefused (s : State) (mode : Nat) : Bool :=
  s.ring.hop == 0 || capRunning s || (mode == 2 && s.u.st != .idle)

/-- The pole link becomes active and the join begins. -/
def joinStart (s : State) (c : Ctx) (mode partner : Nat) : OpResult :=
  let n := nextTaskNum s
  let j : Join := { mode := mode, lead := decide (partner = s.ring.peg + 1), peg := partner, since := s.t.sf, client := c.src,
                    task := n, hello := none, copied := false, commit := none, acked := false }
  let t := { s.twin with active := true, join := some j, lost := false, partnerSt := 0xFF, msgs := [], tx := [], rx := [],
                         rxDead := false, hist := [], votes := 0 }
  (taskNew { s with twin := t } 0x40 .keep c.origin .join, some (answer stAccepted [byteOf n]))

def opTwinjoin (s : State) (c : Ctx) (pl : List Byte) : OpResult :=
  let mode := plByte pl 0
  let partner := plByte pl 1
  let near := decide (partner = s.ring.peg + 1) || decide (partner + 1 = s.ring.peg)
  guarded s [(s.twin.mode == 0 && s.twin.join.isNone, stWrongState),
             ((mode == 1 || mode == 2) && near && 1 ≤ partner && partner ≤ 60, stBadValue), (!tasksFull s, stBusy)]
    (if joinRefused s mode then longRefused s c 0x40 6 else joinStart s c mode partner)

/-- TWINSPLIT: a pair splits at this tick, a join ends (19 R826, R863). -/
def opTwinsplit (s : State) (c : Ctx) (_pl : List Byte) : OpResult :=
  opDone (if s.twin.mode ≠ 0 then twinSplit s c.origin false else joinEndSend s 10 [twinMsg 0x0E [0]]) []

def opTwinstat (s : State) (_c : Ctx) (_pl : List Byte) : OpResult :=
  let t := s.twin
  opDone s ([byteOf t.mode, byteOf t.partner, byteOf (stCode s.u.st), t.partnerSt, byteOf (twinStatus s), byteOf t.joinResult] ++
    beBytes 2 (tallyCount s 23) ++ beBytes 4 t.serial.toNat)

/-! ### NV (20 R887–R890) -/

/-- An NVSAVE or NVLOAD task stands in the table. -/
def nvTaskRuns (s : State) : Bool :=
  s.sched.tasks.any (fun t => match t.obj with
    | .nvsave _ => true
    | .nvload _ => true
    | _ => false)

def opNvsave (s : State) (c : Ctx) (pl : List Byte) : OpResult :=
  let m := plByte pl 0
  guarded s [(1 ≤ m && m ≤ 3, stBadValue), (!logBlocked s, stLocked), (!nvTaskRuns s && !tasksFull s, stBusy)]
    (choreRun s c 0x44 (.nvsave m))

def opNvload (s : State) (c : Ctx) (pl : List Byte) : OpResult :=
  let m := plByte pl 0
  guarded s [(1 ≤ m && m ≤ 3, stBadValue), ((!bit m 0 || !loadLocked s 1) && (!bit m 1 || !loadLocked s 2), stLocked),
             (!nvTaskRuns s && !tasksFull s, stBusy)]
    (choreRun s c 0x45 (.nvload m))

/-! ### Tasks and rations (17 R756, R757) -/

def clsCode : TaskClass → Nat
  | .keep => 0 | .heat => 1 | .check => 2 | .chore => 3

def taskStCode : TaskState → Nat
  | .waiting => 0 | .granted => 1 | .deferred => 2 | .running => 3

/-- The 14 bytes of a task. -/
def taskBytes (s : State) (t : TaskRec) : List Byte :=
  [byteOf t.num, t.opc, byteOf (clsCode t.cls), orgClient t.origin, byteOf (taskStCode t.state), t.reason] ++ beBytes 2 (min t.defers 65535) ++
  beBytes 4 (taskAge s t) ++ beBytes 2 (if t.cls = .keep then 0 else min t.energy 65535)

/-- Tasks in ascending number. -/
def tasksByNum (s : State) : List TaskRec := (List.range 256).filterMap (taskOf s)

def opTaskq (s : State) (_c : Ctx) (pl : List Byte) : OpResult :=
  let n := plByte pl 0
  let ts := if n = 0 then tasksByNum s else (taskOf s n).toList
  opDone s ([byteOf ts.length] ++ beBytes 2 (min s.sched.skipped 65535) ++ (ts.map (taskBytes s)).flatten)

def opRationq (s : State) (_c : Ctx) (_pl : List Byte) : OpResult :=
  let d := lastDec s
  let u16 (n : Nat) : List Byte := beBytes 2 (min n 65535)
  opDone s (u16 d.rin ++ [d.flags] ++ u16 d.share ++ u16 d.income ++ u16 d.net ++ beBytes 4 (min s.sched.bank 0xFFFFFFFF) ++
    u16 d.heat ++ u16 d.check ++ u16 d.chore ++ u16 d.ihtr ++ [byteOf (min d.defers 255), byteOf (min d.refuses 255)] ++
    u16 d.missing)

/-! ### DIAG (20 R898, R899) -/

/-- FIELDREAD: a REG read is handed to the Seam; its reply holds its place and is filled with the read's answer. -/
def opFieldread (s : State) (c : Ctx) (pl : List Byte) : OpResult :=
  let a := byteOf (plByte pl 1)
  let acc : RegAcc := { read := true, addr := a, data := 0, tries := 0, at_ := s.t.up, alts := [] }
  ({ s with seam.regQ := s.seam.regQ ++ [acc], seam.fieldRead := s.seam.fieldRead ++ [(a, c.src, c.seq)] }, none)

def opPins (s : State) (_c : Ctx) (_pl : List Byte) : OpResult :=
  opDone s [byteOf (packFlags [!s.aout.clrLow, Config.pinLevel 0 s.t.up, Config.pinLevel 1 s.t.up, s.u.testen, alertN s])]

def opDiag (s : State) (c : Ctx) (pl : List Byte) : OpResult :=
  match plByte pl 0 with
  | 1 => opFieldread s c pl
  | 2 => opPins s c pl
  | _ => opFail s stBadValue

end Sys2Proof.Machine
end

