-- ==== Sys2Proof/Machine/Run.lean ====
section
/-! DEFINITION. One packet through the whole of 06 R284 and R291, the parts a pair's lead forwards (19 R832–R841), and the packets
taken from a window (06 R266–R273). -/

namespace Sys2Proof.Machine

/-! ### Steps 8 to 12 (06 R284) -/

/-- The opcodes that act on the unit as a whole, on channels or as queries of them. -/
def opUnit (s : State) (c : Ctx) (opc : Nat) (pl : List Byte) : OpResult :=
  match opc with
  | 0x00 => opNop s c pl | 0x01 => opHello s c pl | 0x02 => opGetp s c pl | 0x03 => opSetp s c pl | 0x04 => opGetblk s c pl
  | 0x05 => opState s c pl | 0x06 => opReset s c pl | 0x08 => opClaim s c pl | 0x09 => opGrant s c pl
  | 0x0A => opRelease s c pl | 0x0C => opLogread s c pl | 0x0D => opLogseal s c pl | 0x0E => opLogmark s c pl
  | 0x10 => opTimeset s c pl | 0x11 => opTimeq s c pl | 0x14 => opChstart s c pl | 0x15 => opChstop s c pl
  | 0x16 => opRange s c pl | 0x17 => opSnap s c pl | 0x18 => opStream s c pl | 0x1A => opFirload s c pl
  | 0x1B => opFirsel s c pl | 0x1C => opDcfreeze s c pl | 0x1D => opSyncnow s c pl | 0x20 => opBias s c pl
  | _ => opFail s stUnknown

/-- The opcode of a packet, with its payload. -/
def opRun (s : State) (c : Ctx) (opc : Nat) (pl : List Byte) : OpResult :=
  match opc with
  | 0x21 => opWaveplay s c pl | 0x22 => opWavestop s c pl | 0x23 => opWaveload s c pl | 0x28 => opHeatrun s c pl
  | 0x29 => opHeatstop s c pl | 0x2A => opProfload s c pl | 0x2B => opLeadcal s c pl | 0x2C => opZcheck s c pl
  | 0x30 => opTriparm s c pl | 0x31 => opTripdisarm s c pl | 0x32 => opTripforce s c pl | 0x33 => opCapread s c pl
  | 0x34 => opCapstat s c pl | 0x35 => opCapclear s c pl | 0x38 => opAlarmack s c pl | 0x39 => opTallyread s c pl
  | 0x3A => opTallyclear s c pl | 0x3C => opAoutset s c pl | 0x3D => opAoutrange s c pl | 0x40 => opTwinjoin s c pl
  | 0x41 => opTwinsplit s c pl | 0x42 => opTwinstat s c pl | 0x44 => opNvsave s c pl | 0x45 => opNvload s c pl
  | 0x46 => opCalwrite s c pl | 0x48 => opTaskq s c pl | 0x4A => opRationq s c pl | 0x7F => opDiag s c pl
  | _ => opUnit s c opc pl

/-- A request for a state, whatever comes of it, has been taken (03 R156; log 34). -/
def stateAsked (s : State) (p : Packet) : State := if p.opc = 0x05 && !p.payload.isEmpty then stateTaken s else s

/-- Steps 8 to 12. A SETP answers steps 8 and 10 with a position of its own. -/
def stepsRun (s0 : State) (c : Ctx) (p : Packet) : OpResult :=
  let s := stateAsked s0 p
  let opc := p.opc.toNat
  if opc ≠ 0x03 ∧ !stateTakes s.u.st opc then opFail s stWrongState
  else stopHeld s (isQuery opc p.payload || opc == 0x03) (fun s => opRun s c opc p.payload)

/-- A packet of a client, as the unit itself executes it. -/
def ownRun (s : State) (p : Packet) (v : Option Verdict) : OpResult :=
  stepsRun s { src := p.src, seq := p.seq, bcast := p.bcast, origin := orgPkt p.src, role := roleOf s p.src.toNat, verdict := v } p

/-- A part forwarded by the lead: no role check, and path 2 (19 R835, R838). -/
def farRun (s : State) (p : Packet) (v : Option Verdict) : OpResult :=
  stepsRun s { src := p.src, seq := p.seq, bcast := p.bcast, origin := org p.src.toNat 2, role := keeper, verdict := v } p

/-! ### Steps 1 to 7 -/

/-- What becomes of a packet before step 8. -/
inductive Fate where
  /-- Ignored without a trace (06 R268, R291). -/
  | drop
  /-- A ninth reply (06 R272). -/
  | over
  /-- SRC outside 1–125 (06 R268). -/
  | bad
  | dup (d : Dup)
  | fail (a : Answer)
  | run
  deriving DecidableEq, Repr

def packetFate (s : State) (p : Packet) : Fate :=
  let q := isQuery p.opc.toNat p.payload
  if p.bcast && isTail s then .drop
  else if !p.bcast && repliesFull s then .over
  else if p.src.toNat = 0 ∨ 125 < p.src.toNat then (if p.bcast then .drop else .bad)
  else if p.bcast && q then .drop
  else
    match (if q then none else dupOf s p) with
    | some d => .dup d
    | none =>
      match packetNames s (roleOf s p.src.toNat) p.opc.toNat p.payload with
      | some a => .fail a
      | none => .run

/-! ### Parts of a packet at a lead (19 R834, R849) -/

/-- A payload for the lead, and one for the tail. -/
abbrev Parts := Option (List Byte) × Option (List Byte)

/-- Field `i` of one byte: values from `lo` to `hi` are the tail's, less `d`. -/
def byteParts (pl : List Byte) (i lo hi d : Nat) : Parts :=
  let b := plByte pl i
  if lo ≤ b ∧ b ≤ hi then (none, some (pl.set i (byteOf (b - d)))) else (some pl, none)

/-- An eight-byte mask with `rest` bytes after it; `all` where a mask of zeros says something too. -/
def maskParts (pl : List Byte) (rest : Nat) (all : Bool) : Parts :=
  let hi := plField pl 0 4
  let lo := plField pl 4 4
  if pl.length < 8 + rest ∨ 2 ^ 24 ≤ hi then (some pl, none)
  else
    (if lo ≠ 0 ∨ hi = 0 ∨ all then some (pl.drop 4) else none,
     if hi ≠ 0 ∨ all then some (beBytes 4 hi ++ pl.drop 8) else none)

/-- A payload, unless it is empty. -/
def someIf (l : List Byte) : Option (List Byte) := if l.isEmpty then none else some l

def idBytes (ids : List Nat) : List Byte := (ids.map (beBytes 2)).flatten

/-- Pairs the lead of a mirrored pair applies at both units. -/
def isMirrored (id : Nat) : Bool := decide (0x08 ≤ id / 256) && decide (id / 256 ≤ 0x39)

/-- Parts of a SETP: own pairs and the tail's, by position in the packet. -/
def setpOwn (s : State) (id : Nat) : Bool := s.twin.mode == 2 || !isFarId s id
def setpFar (s : State) (id : Nat) : Bool := if s.twin.mode = 2 then isMirrored id else isFarId s id

/-- Parts of the opcodes on parameters. -/
def paramParts (s : State) (opc : Nat) (pl : List Byte) : Parts :=
  match opc with
  | 0x02 =>
    let ids := plIds pl
    (someIf (idBytes (ids.filter (fun i => !isFarId s i))), someIf (idBytes ((ids.filter (isFarId s)).map (idHome s))))
  | 0x03 =>
    let ps := plPairs pl
    (someIf (confBytes (ps.filter (fun p => setpOwn s p.1))),
     someIf (confBytes ((ps.filter (fun p => setpFar s p.1)).map (fun p => (idHome s p.1, p.2)))))
  | _ =>
    if isFarId s (plField pl 0 2) then (none, some (beBytes 2 (idHome s (plField pl 0 2)) ++ pl.drop 2)) else (some pl, none)

/-- The unit named by TWIN.READ_SIDE serves these. -/
def sideOps : List Nat := [0x0C, 0x33, 0x34, 0x35, 0x39, 0x3A, 0x48, 0x4A]

/-- Both units take the same arguments. -/
def bothOps (mirror : Bool) : List Nat :=
  [0x10, 0x38, 0x44, 0x45] ++ (if mirror then
    [0x14, 0x15, 0x16, 0x17, 0x18, 0x1A, 0x1B, 0x1C, 0x20, 0x21, 0x22, 0x23, 0x28, 0x29, 0x2A, 0x2B, 0x2C, 0x30, 0x31, 0x3C, 0x3D]
  else [])

/-- Parts at a Span lead of the opcodes with a channel, an area or a target of their own. -/
def spanParts (s : State) (opc : Nat) (pl : List Byte) : Parts :=
  match opc with
  | 0x14 => maskParts pl 0 false
  | 0x15 => maskParts pl 0 false
  | 0x17 => maskParts pl 0 false
  | 0x2C => maskParts pl 0 false
  | 0x18 => maskParts pl 2 true
  | 0x1C => maskParts pl 1 false
  | 0x16 => byteParts pl 0 32 45 32
  | 0x1B => byteParts pl 0 32 45 32
  | 0x1A => byteParts pl 0 16 31 16
  | 0x2A => byteParts pl 0 16 31 16
  | 0x23 => byteParts pl 0 16 31 16
  | 0x20 => byteParts pl 0 4 7 4
  | 0x28 => byteParts pl 0 4 7 4
  | 0x2B => byteParts pl 0 4 7 4
  | 0x21 => byteParts pl 1 6 9 5
  | 0x22 => if plByte pl 0 = 0xFF then (some pl, some pl) else byteParts pl 0 6 9 5
  | 0x29 =>
    let m := plByte pl 0
    (if m % 16 ≠ 0 ∨ m < 16 then some [byteOf (m % 16)] else none, if m < 16 then none else some [byteOf (m / 16)])
  | 0x30 =>
    let slots := pNat s (idTwin 0x11)
    (some pl, if slots = 0 then none else some (byteOf slots :: pl.drop 1))
  | 0x31 => (some pl, if s.trip.armed &&& ~~~(byteOf (plByte pl 0)) = 0 then some [0xFF] else none)
  | _ => (some pl, none)

/-- The parts of a packet that has passed step 7. -/
def partsOf (s : State) (opc : Nat) (pl : List Byte) : Parts :=
  if !isLead s then (some pl, none)
  else if opc = 0x02 ∨ opc = 0x03 ∨ opc = 0x04 then paramParts s opc pl
  else if sideOps.contains opc then (if pNat s (idTwin 0x12) = 1 then (none, some pl) else (some pl, none))
  else if opc = 0x46 then byteParts pl 0 32 45 32
  else if opc = 0x05 then (some pl, if pl.isEmpty then none else some pl)
  else if (bothOps (s.twin.mode == 2)).contains opc then (some pl, some pl)
  else if s.twin.mode = 1 then spanParts s opc pl
  else (some pl, none)

/-- A part goes out to the tail. -/
def fwdSend (s : State) (p : Packet) (own : Option (List Byte)) (far : List Byte) : State :=
  let h := s.twin.nextHandle
  let f : Fwd := { handle := h, pkt := p, own := own.map (fun pl => { p with payload := pl }), tail := { p with payload := far },
                   verdict := none, judged := none, commit := none, acked := false, done := none, status := 0, rlen := 0, data := [] }
  twinSend { s with twin := { s.twin with fwd := s.twin.fwd ++ [f], nextHandle := if h = 255 then 1 else h + 1 } } 0x02
    ([h, p.src, p.seq, p.opc, byteOf far.length] ++ far)

/-! ### Executing a packet -/

/-- DENIED for an SRC that names no client (06 R287). -/
def packetBad (s : State) (p : Packet) : State :=
  let a := answer stDenied []
  replyAdd (rejectLog s p a (org 0 1) (0x8000 + p.src.toNat)) p a none

/-- What a packet's fate brings, with `go` for one that runs. Whether it would make a ninth reply is judged at its effect tick, p = 0, once the
slot before it has carried one (06 R272; DESIGN CHOICE, log 101). -/
def packetEnd (s : State) (p : Packet) (go : State) : State :=
  match packetFate s p with
  | .drop => s
  | .over => { s with ring.cmdOver := s.ring.cmdOver + 1 }
  | .bad => packetBad s p
  | .dup d => if p.bcast then s else replyAdd s p (dupAnswer d.ans) d.wait
  | .fail a => packetFinish s p a none
  | .run => go

/-- The answer of an opcode; a FIELDREAD's place is held until its answer comes (20 R899). -/
def resultEnd (r : OpResult) (p : Packet) : State :=
  match r.2 with
  | some a => packetFinish r.1 p a none
  | none => packetFinish r.1 p (answer stDone []) (some 0)

/-! ### Packets with a part at the tail (19 R836–R840) -/

/-- Positions, from 1, of a SETP's pairs that a filter takes. -/
def posOf (pl : List Byte) (f : Nat → Bool) : List Nat :=
  let ps := plPairs pl
  (List.range ps.length).filterMap (fun i => if f ((ps.getD i (0, 0)).1) then some (i + 1) else none)

/-- A part's position counted over the whole packet. -/
def wholePos (pl : List Byte) (f : Nat → Bool) (n : Nat) : Nat := (posOf pl f).getD (n - 1) n

/-- A part's failing answer as one of the whole packet. -/
def wholeAnswer (p : Packet) (f : Nat → Bool) (a : Answer) : Answer :=
  if p.opc.toNat = 0x03 then { a with data := [byteOf (wholePos p.payload f (plByte a.data 0))] } else a

/-- The tail's verdict as an answer of the whole packet. -/
def farAnswer (s : State) (p : Packet) (v : Byte × Byte) : Answer :=
  let a : Answer := { status := v.1, data := if p.opc.toNat = 0x03 ∨ v.1.toNat = stRefused then [v.2] else [] }
  wholeAnswer p (setpFar s) a

/-- A part passes. -/
def partPass (a : Answer) : Bool := decide (a.status.toNat < stRefused)

/-- The earlier failure in the order of R284; in one step of a SETP the earlier pair. -/
def firstFail (p : Packet) (own far : Answer) : Answer :=
  let a := stepRank own.status.toNat
  let b := stepRank far.status.toNat
  if partPass own then far
  else if partPass far then own
  else if b < a ∨ (a = b ∧ p.opc.toNat = 0x03 ∧ plByte far.data 0 < plByte own.data 0) then far
  else own

/-- The lead's own answer to a part; a packet with no part of its own passes. -/
def leadAnswer (s : State) (f : Fwd) (v : Option Verdict) : OpResult :=
  match f.own with
  | some p =>
    let r := ownRun s p v
    (r.1, r.2.map (fun a => if partPass a then a else wholeAnswer f.pkt (setpOwn s) a))
  | none => if viaLane f.pkt.opc.toNat f.tail.payload && bulkTaken s f.pkt.src then opFail s stBusy else opDone s []

/-- Long opcodes that may have a part at the tail alone (19 R840). -/
def tailLong : List Nat := [0x17, 0x20, 0x28, 0x2B, 0x2C, 0x46]

/-- The tail's answer supplies the reply: a query, or a long opcode, of the tail's (19 R839, R840); in a GETP both do. -/
def awaitsTail (f : Fwd) : Bool :=
  (isQuery f.pkt.opc.toNat f.pkt.payload && (f.own.isNone || f.pkt.opc.toNat == 0x02)) ||
  (f.own.isNone && tailLong.contains f.pkt.opc.toNat)

def fwdMod (s : State) (h : Byte) (g : Fwd → Fwd) : State :=
  { s with twin.fwd := s.twin.fwd.map (fun f => if f.handle = h then g f else f) }

def fwdOf (s : State) (h : Byte) : Option Fwd := s.twin.fwd.find? (fun f => f.handle == h)

/-- The tail's SHARE and KEEP, which a Span lead's decision adds to its own, are known to it from the writes it forwards, until it
forwards an NVLOAD (19 R845; log 28). -/
def farNote (s : State) (f : Fwd) : State :=
  if s.twin.mode = 1 ∧ f.pkt.opc.toNat = 0x03 then
    let ps := (plPairs f.tail.payload).filter (fun p => p.1 == idSched 0 || p.1 == idSched 2)
    { s with twin.farCfg := ps.foldl (fun c p => aset c p.1 p.2) s.twin.farCfg }
  else if s.twin.mode = 1 ∧ f.pkt.opc.toNat = 0x45 then { s with twin.farCfg := [] }
  else s

/-- Both parts apply. -/
def fwdApply (s : State) (f : Fwd) (v : Option Verdict) : State :=
  let r := leadAnswer (farNote s f) f v
  let a := r.2.getD (answer stDone [])
  if awaitsTail f then
    let s1 := fwdMod r.1 f.handle (fun f => { f with done := some a })
    let s2 := if isQuery f.pkt.opc.toNat f.pkt.payload then s1 else dupSet s1 f.pkt (answer stDone []) (some f.handle)
    if f.pkt.bcast then s2 else replyAdd s2 f.pkt (answer stDone []) (some f.handle)
  else packetFinish r.1 f.pkt a none

/-- A forwarded packet at its effect tick (19 R836, R837, R871): without the ACK it is BUSY; one that was not committed has the first
failure of the two checks made by p = 440. -/
def fwdExec (s : State) (f : Fwd) (v : Option Verdict) : State :=
  match f.verdict, f.commit, f.judged with
  | some _, some true, _ =>
    if f.acked && isLead s then fwdApply s f v else packetFinish s f.pkt (answer stBusy []) none
  | some far, some false, some own =>
    packetFinish s f.pkt (if f.acked && isLead s then firstFail f.pkt own (farAnswer s f.pkt far) else answer stBusy []) none
  | _, _, _ => packetFinish s f.pkt (answer stBusy []) none

/-- A packet at its effect tick. A lead that could not forward a part in time answers BUSY. -/
def execTaken (s : State) (t : Taken) : State :=
  packetEnd s t.pkt (
    match t.fwd with
    | some h =>
      match fwdOf s h with
      | some f => fwdExec s f t.verdict
      | none => packetFinish s t.pkt (answer stBusy []) none
    | none =>
      if (partsOf s t.pkt.opc.toNat t.pkt.payload).2.isSome then packetFinish s t.pkt (answer stBusy []) none
      else resultEnd (ownRun s t.pkt t.verdict) t.pkt)

/-- A packet that stood in its place would pass its own checks, and what it would leave. -/
def execTrial (s : State) (t : Taken) : State × Bool :=
  let fwd : Option Fwd := match t.fwd with
    | some h => fwdOf s h
    | none => none
  match packetFate s t.pkt, fwd with
  | .run, some f =>
    let r := leadAnswer s f none
    (resultEnd r t.pkt, partPass (r.2.getD (answer stDone [])))
  | .run, none =>
    let r := ownRun s t.pkt none
    (resultEnd r t.pkt, partPass (r.2.getD (answer stDone [])))
  | _, _ => (packetEnd s t.pkt s, false)

/-! ### Taking a packet (06 R266, 19 R836, R863) -/

/-- The unit holds a peg (05 R236). -/
def isPitched (s : State) : Bool := decide (1 ≤ s.ring.peg) && decide (s.ring.peg ≤ 60)

/-- A header can be acted on: the unit runs, on CKI, and is locked. -/
def ringLive (s : State) : Bool := alive s && s.ring.clk == .cki && s.ring.lock == .locked

/-- The superframe's header was seen and not missed. -/
def headerSeen (s : State) : Bool := s.ring.hdr == .good || s.ring.hdr == .poisoned || s.ring.hdr == .beacon

/-- The unit takes part in this superframe's window and slots (04 R207, R209, 06 R266). -/
def ringPart (s : State) : Bool := ringLive s && isPitched s && headerSeen s

/-- The queued replies that will be left at the next p = 0: one fewer where the unit's slot of this superframe is still to come and
has one to carry (06 R275). -/
def slotAhead (s : State) : State :=
  if ringPart s && decide (s.t.p < 144 + 6 * (s.ring.peg - 1)) then
    match s.cmd.replies.find? (fun r => r.wait.isNone) with
    | some r => { s with cmd.replies := s.cmd.replies.erase r }
    | none => s
  else s

/-- The state in which a packet of a window will be executed, as far as the packets taken before it tell. -/
def takenTrial (s : State) : State :=
  s.cmd.taken.foldl (fun x t => (execTrial x t).1) (slotAhead { s with cmd.taken := [] })

/-- The packet waits for its effect tick; at a lead its tail part is sent at once, and TWINSPLIT its SPLIT. Its role, its duplicate and
its parts are judged as the earlier packets of the window will leave them; whether its reply finds room only later. -/
def packetTake (s : State) (p : Packet) : State :=
  let t : Taken := { pkt := p, verdict := none, fwd := none }
  let add (t : Taken) (s : State) : State := { s with cmd.taken := s.cmd.taken ++ [t] }
  if !isLead s then add t s
  else
    let trial := takenTrial s
    if packetFate { trial with cmd.replies := [] } p != .run then add t s
    else
      match partsOf trial p.opc.toNat p.payload with
      | (own, some far) => add { t with fwd := some s.twin.nextHandle } (fwdSend s p own far)
      | _ => add t (if p.opc.toNat = 0x41 then twinSend s 0x0E [0] else s)

/-! ### The lead decides (19 R836) -/

/-- Decide one taken packet after those before it, carrying the trial state along. -/
def leadDecideOne (x : State × State) (t : Taken) : State × State :=
  let r := execTrial x.2 t
  match t.fwd with
  | none => (x.1, r.1)
  | some h =>
    match fwdOf x.1 h with
    | none => (x.1, r.1)
    | some f =>
      let ok := r.2 && (match f.verdict with
        | some v => decide (v.1.toNat < stRefused)
        | none => false)
      let own := if packetFate x.2 t.pkt == .run then some ((leadAnswer x.2 f none).2.getD (answer stDone [])) else none
      (twinSend (fwdMod x.1 h (fun f => { f with commit := some ok, judged := own })) 0x04 [h, if ok then 1 else 0], r.1)

/-- At p = 440 every forwarded packet is decided. -/
def leadDecide (s : State) : State := (s.cmd.taken.foldl leadDecideOne (s, slotAhead s)).1

/-- LEAD_PACKET_DECIDE. -/
def execLeadPacketDecide (s : State) : Host.Outcome State Fault Refusal :=
  .next (if isLead s && s.t.p == 440 && s.twin.fwd.any (fun f => f.commit.isNone) then leadDecide s else s)

/-! ### The tail's part (19 R836–R839) -/

/-- The state that earlier parts of the window leave. -/
def farTrial (s : State) : State := s.twin.fwdIn.foldl (fun (s : State) f => if f.ok then (farRun s f.pkt none).1 else s) s

/-- FWD received: the part is checked, and a VERDICT goes back. -/
def fwdTake (s : State) (h src seq opc : Byte) (pl : List Byte) : State :=
  let p : Packet := { bcast := false, src := src, seq := seq, opc := opc, payload := pl }
  let a := ((farRun (farTrial s) p none).2).getD (answer stDone [])
  let f : FwdIn := { handle := h, pkt := p, ok := partPass a, commit := false, verdict := none }
  let pos : Byte := if opc.toNat = 0x03 ∨ a.status.toNat = stRefused then a.data.getD 0 0 else 0
  twinSend { s with twin.fwdIn := s.twin.fwdIn ++ [f] } 0x03 [h, a.status, pos]

/-- TWIN_FWD. -/
def execTwinFwd (handle client seq opc : Byte) (payload : List Byte) (s : State) : Host.Outcome State Fault Refusal :=
  .next (if isTail s then fwdTake s handle client seq opc payload else s)

/-- VERDICT received, in time for the lead's decision (19 R837). -/
def verdictTake (s : State) (h status pos : Byte) : State :=
  if s.t.p ≤ 440 then fwdMod s h (fun f => if f.commit.isNone then { f with verdict := some (status, pos) } else f) else s

/-- TWIN_VERDICT. -/
def execTwinVerdict (handle status pos : Byte) (s : State) : Host.Outcome State Fault Refusal :=
  .next (if isLead s then verdictTake s handle status pos else s)

/-- COMMIT received: noted, and acknowledged. -/
def commitTake (s : State) (h apply : Byte) : State :=
  twinSend { s with twin.fwdIn := s.twin.fwdIn.map (fun f => if f.handle = h then { f with commit := apply == 1 } else f) } 0x05 [h]

/-- TWIN_COMMIT. -/
def execTwinCommit (handle apply : Byte) (s : State) : Host.Outcome State Fault Refusal :=
  .next (if isTail s then commitTake s handle apply else s)

/-- The tail's answer in pieces of at most 14 bytes. -/
def answerPieces (h : Byte) (a : Answer) : List (List Byte) :=
  let n := max 1 ((a.data.length + 13) / 14)
  (List.range n).map (fun i =>
    [h, a.status, byteOf a.data.length, byteOf (14 * i)] ++ (a.data.drop (14 * i)).take 14)

/-- One committed part applies; a query or a long opcode has an answer to send, under its handle. -/
def farApply (x : State × List (Byte × List (List Byte))) (f : FwdIn) : State × List (Byte × List (List Byte)) :=
  let r := farRun x.1 f.pkt f.verdict
  match r.2 with
  | none => (r.1, x.2)
  | some a =>
    let speaks := isQuery f.pkt.opc.toNat f.pkt.payload || tailLong.contains f.pkt.opc.toNat
    let lane := viaLane f.pkt.opc.toNat f.pkt.payload && a.status.toNat == stDone
    (if lane then { r.1 with cmd.bulk := r.1.cmd.bulk.map (fun b => { b with far := some f.handle }) } else r.1,
     if speaks then x.2 ++ [(f.handle, answerPieces f.handle a)] else x.2)

/-- At p = 0 the tail applies those of its parts that are committed, then evaluates the queries. The ANSWERs go first in the superframe, in
the order of their handles, the first piece of each before any later piece (19 R839). -/
def farExec (s : State) (parts : List FwdIn) : State :=
  let mine := parts.filter FwdIn.commit
  let q (f : FwdIn) : Bool := isQuery f.pkt.opc.toNat f.pkt.payload
  let r := ((mine.filter (fun f => !q f)) ++ mine.filter q).foldl farApply (s, [])
  let inOrder := mine.filterMap (fun f => (r.2.find? (fun a => a.1 == f.handle)).map Prod.snd)
  let first := inOrder.filterMap List.head?
  let later := (inOrder.map (fun l => l.drop 1)).flatten
  { r.1 with twin.msgs := (first ++ later).map (twinMsg 0x06) ++ r.1.twin.msgs }

/-! ### Answers at the lead (19 R839–R841) -/

/-- A JOIN's ACK comes by p = 496 of the superframe before the commit (19 R828). -/
def joinAcked (s : State) (j : Join) : Join :=
  if j.commit.any (fun c => decide (s.t.sf + 1 < c) || (s.t.sf + 1 == c && decide (s.t.p ≤ 496))) then { j with acked := true } else j

/-- ACK received: handle 0 acknowledges a JOIN (19 R828). -/
def ackTake (s : State) (h : Byte) : State :=
  if h = 0 then { s with twin.join := s.twin.join.map (joinAcked s) }
  else if s.t.p ≤ 496 then fwdMod s h (fun f => { f with acked := true })
  else s

/-- TWIN_ACK. -/
def execTwinAck (handle : Byte) (s : State) : Host.Outcome State Fault Refusal :=
  .next (if isLead s || s.twin.join.isSome then ackTake s handle else s)

/-- Bytes written over a list at an offset. -/
def patch (l : List Byte) (o : Nat) (d : List Byte) : List Byte :=
  let l1 := l ++ List.replicate (o + d.length - l.length) 0
  l1.take o ++ d ++ l1.drop (o + d.length)

/-- The values of a GETP, own and the tail's, in the order of its IDs. -/
def mergeGetp (s : State) : List Nat → List Byte → List Byte → List Byte
  | [], _, _ => []
  | i :: is, own, far =>
    if isFarId s i then far.take 4 ++ mergeGetp s is own (far.drop 4) else own.take 4 ++ mergeGetp s is (own.drop 4) far

/-- The whole answer; bytes not yet in hand are zero until they come. -/
def fwdWhole (s : State) (f : Fwd) : Answer :=
  if f.pkt.opc.toNat = 0x02 ∧ f.own.isSome then
    answer stDone (mergeGetp s (plIds f.pkt.payload) ((f.done.map Answer.data).getD []) f.data)
  else { status := f.status, data := f.data ++ List.replicate (f.rlen - f.data.length) 0 }

/-- Everything of an answer is in hand. -/
def fwdFull (f : Fwd) : Bool := f.rlen ≤ f.data.length

/-- The answer to a forwarded read through the lane opens its transfer, of the length it names, with no byte in hand (19 R841). -/
def laneOpen (s : State) (f : Fwd) (a : Answer) : State :=
  if !viaLane f.pkt.opc.toNat f.tail.payload || a.status.toNat != stDone then s
  else
    let n := plField a.data 0 4
    let b : Bulk := { src := f.pkt.src, seq := f.pkt.seq, bytes := [], offset := 0, total := n, far := some f.handle }
    { s with cmd.bulk := if n = 0 then none else some b }

/-- Transfer bytes of a piece that follows those in hand; its offset counts on from the reply's 4 bytes, modulo 256 (log 63). -/
def laneTake (s : State) (h offset : Byte) (data : List Byte) : State :=
  match s.cmd.bulk with
  | some b =>
    if b.far = some h ∧ isLead s ∧ offset = byteOf (4 + b.bytes.length) then
      { s with cmd.bulk := some { b with bytes := b.bytes ++ data } }
    else s
  | none => s

/-- A waiting reply is released by its first 13 bytes; an answer in hand whole ends its record, and is what the client's duplicate
record keeps where it still waits for it (06 R281). -/
def fwdRelease (s : State) (f : Fwd) : State :=
  let a := fwdWhole s f
  let ready := decide (min f.rlen 13 ≤ f.data.length) && (f.pkt.opc.toNat != 0x02 || fwdFull f)
  let mine (r : Reply) : Answer := if r.ans.status.toNat = stSeqDup then dupAnswer a else a
  let free (r : Reply) : Reply := if ready && r.wait = some f.handle then { r with ans := mine r, wait := none } else r
  let note (d : Nat × Dup) : Nat × Dup := if d.2.wait = some f.handle then (d.1, { d.2 with ans := a, wait := none }) else d
  let s1 := { s with cmd.replies := s.cmd.replies.map free }
  if !fwdFull f then s1
  else
    let s2 := if isQuery f.pkt.opc.toNat f.pkt.payload then s1 else rejectNote { s1 with cmd.dups := s1.cmd.dups.map note } f.pkt a
    laneOpen { s2 with twin.fwd := s2.twin.fwd.filter (fun x => x.handle != f.handle) } f a

/-- Later bytes of a reply already released (06 R279). -/
def replyMore (s : State) (f : Fwd) (a : Answer) : State :=
  let more (r : Reply) : Reply := if r.wait = none ∧ r.src = f.pkt.src ∧ r.seq = f.pkt.seq then { r with ans := a } else r
  { s with cmd.replies := s.cmd.replies.map more, cmd.frags := s.cmd.frags.map more }

/-- ANSWER received. -/
def answerTake (s : State) (h status rlen offset : Byte) (data : List Byte) : State :=
  match fwdOf s h with
  | none => laneTake s h offset data
  | some f =>
    if f.done.isNone then s
    else
      let f1 := { f with status := status, rlen := rlen.toNat, data := patch f.data offset.toNat data }
      let s1 := fwdMod s h (fun _ => f1)
      let s2 := if f.data.isEmpty then s1 else replyMore s1 f1 (fwdWhole s1 f1)
      fwdRelease s2 f1

/-- TWIN_ANSWER. -/
def execTwinAnswer (handle status rlen offset : Byte) (data : List Byte) (s : State) : Host.Outcome State Fault Refusal :=
  .next (if isLead s then answerTake s handle status rlen offset data else s)

/-- Replies whose answer has not come by the next p = 0, or whose pair has split, are BUSY (log 40); a repeat's reply says so as SEQ_DUP (06
R282, R305). -/
def repliesLate (s : State) : State :=
  let ends (w : Option Byte) : Bool := w.isSome && w != some 0
  let busy (r : Reply) : Answer := if r.ans.status.toNat = stSeqDup then dupAnswer (answer stBusy []) else answer stBusy []
  let late (r : Reply) : Reply := if ends r.wait then { r with ans := busy r, wait := none } else r
  let note (d : Nat × Dup) : Nat × Dup := if ends d.2.wait then (d.1, { d.2 with ans := answer stBusy [], wait := none }) else d
  { s with cmd.replies := s.cmd.replies.map late, cmd.dups := s.cmd.dups.map note, twin.fwd := s.twin.fwd.filter (fun f => f.done.isNone) }

/-- At p = 0 the taken packets are executed in window order, and a tail's parts with them. -/
def packetsRun (s : State) : State :=
  let ts := s.cmd.taken
  let s1 := ts.foldl execTaken { repliesLate s with cmd.taken := [] }
  let s2 := { s1 with twin.fwd := s1.twin.fwd.filter (fun f => f.done.isSome) }
  if s2.twin.fwdIn.isEmpty then s2 else farExec { s2 with twin.fwdIn := [] } s2.twin.fwdIn

/-- A split due at this p = 0: parts that came before the SPLIT apply, those after it do not (19 R863, R871). -/
def splitRun (s : State) : State :=
  match s.twin.splitDue with
  | some o => twinSplit (farExec s (s.twin.fwdIn.take s.twin.splitAhead)) o false
  | none => s

/-! ### One packet as a row of the table -/

/-- The packet of a row. -/
def rowPkt (h : Hdr) (opc : Nat) (pl : List Byte) : Packet :=
  { bcast := h.bcast, src := h.src, seq := h.seq, opc := byteOf opc, payload := pl }

/-- A packet of a row, executed at the present tick; one that waits for a decision, or that the tail has to be told of, joins
the packets taken and is executed at the next p = 0 (log 41). -/
def rowRun (s : State) (h : Hdr) (opc : Nat) (pl : List Byte) : State :=
  let p := rowPkt h opc pl
  if !alive s then s
  else
    let waits := packetFate s p == .run &&
      ((partsOf s opc pl).2.isSome || (opc == 0x41 && isLead s) || (isDecided opc pl && (execTrial s { pkt := p, verdict := none, fwd := none }).2))
    if waits then packetTake s p else execTaken s { pkt := p, verdict := none, fwd := none }

end Sys2Proof.Machine
end

