-- ==== Sys2Proof/Machine/Ring.lean ====
section
/-! DEFINITION. The header as it passes and as it is acted on: lock, pitching, maps, fires, the arming master, ARM, DISARM and SYNC,
the bulk lane, and the ORPHAN condition with its beacons (04 R180–R202, R212–R235, 05 R236–R262, 12 R552). -/

namespace Sys2Proof.Machine

/-! ### Fields (04 R185–R192) -/

/-- `n` bits of a header from bit `a`; bit 0 is sent first. -/
def hGet (h : BitVec 512) (a n : Nat) : Nat := h.toNat / 2 ^ (512 - a - n) % 2 ^ n

/-- The header with those bits replaced. -/
def hPut (h : BitVec 512) (a n v : Nat) : BitVec 512 :=
  let u := 2 ^ (512 - a - n)
  BitVec.ofNat 512 (h.toNat - hGet h a n * u + v % 2 ^ n * u)

/-- The CRC over header bits 0–495, and the syndrome of a header as received (04 R191, R192). -/
def hdrCrc (h : BitVec 512) : Nat := crc16 (beBytes 62 (h.toNat / 65536))
def syndrome (h : BitVec 512) : Nat := hGet h 496 16 ^^^ hdrCrc h

/-- The header as forwarded: HCRC carries the syndrome on (04 R192). -/
def hSeal (h : BitVec 512) (syn : Nat) : BitVec 512 := hPut h 496 16 (hdrCrc h ^^^ syn)

def syncOk (h : BitVec 512) : Bool := hGet h 0 32 == 0x7C6B3E95
def hFlag (h : BitVec 512) (b : Nat) : Bool := bit (hGet h 144 16) b
def hKey (h : BitVec 512) : BitVec 56 := BitVec.ofNat 56 (hGet h 216 56)

/-- No fire (04 R190). -/
def absentKey : BitVec 56 := BitVec.allOnes 56

/-- A byte carried bit-reversed, and that byte plus one (04 R188, R189). -/
def rev8 (n : Nat) : Nat := (List.range 8).foldl (fun a i => 2 * a + b2n (bit n i)) 0
def addOne (n : Nat) : Nat := rev8 ((rev8 n + 1) % 256)

/-- A field of the header on its way out. -/
def outPut (s : State) (a n v : Nat) : State := { s with out.header := hPut s.out.header a n v }

/-! ### The ORPHAN condition (04 R219, R225, 03 R160) -/

/-- The condition begins, with its entry, its count and its mark; the time is unaligned from then on (08 R362). -/
def orphanEnter (s : State) : State :=
  if s.ring.orphan then s
  else
    let s1 := { s with ring.orphan := true, ring.orphans := s.ring.orphans + 1, t.unaligned := true,
                       gmarks := openIn .orphan s.t.up s.gmarks }
    logE s1 orgUnit 0x0033 0 0 1

/-- A good header with an ORPHAN count of zero ends it; the next comparison is a first alignment (08 R365). -/
def orphanLeave (s : State) : State :=
  if !s.ring.orphan then s
  else
    let r := { s.ring with orphan := false, beaconLock := false, dataLoss := false, beaconing := false }
    let s1 := { s with ring := r, t.firstDue := true, gmarks := closeIn .orphan (s.t.up - 1) s.gmarks }
    logE s1 orgUnit 0x0033 0 1 0

/-! ### Pegs (05 R239–R249, R252, R254) -/

/-- What no longer leaves under a new peg: queued replies, fragments and events, those a lead has handed on among them; a SLOT message under
way is discarded when it ends (05 R247). -/
def pegEmpty (s : State) : State :=
  let c : CmdSt := { s.cmd with replies := [], frags := [], events := [] }
  let w : TwinSt := { s.twin with handed := [], msgs := s.twin.msgs.filter (fun m => m.head? != some 0x0B),
                                  rxDrop := s.twin.rx.head? == some 0x0B }
  { s with cmd := c, twin := w }

/-- A pole's pair under a new peg: unpitched it splits, by the unit itself and counted as a split by request (DESIGN CHOICE, log 99), else its
partner's peg follows (05 R254, 19 R870). -/
def pegPair (s : State) (peg : Nat) (origin : BitVec 16) : State :=
  if s.twin.mode = 0 then s
  else if peg = 0 then twinSplit s origin false
  else { s with twin.partner := if isLead s then peg + 1 else peg - 1 }

/-- A committed peg and hop count: PEG_SET where they change, and what a change of peg discards. A pair follows its pegs, and ends
for a unit left without one (05 R254, 19 R870). -/
def pegSet (s : State) (peg hop : Nat) (origin : BitVec 16) : State :=
  if peg = s.ring.peg ∧ hop = s.ring.hop then s
  else
    let old := s.ring
    let s1 := { s with ring := { s.ring with peg := peg, hop := hop }, t.firstDue := s.t.firstDue || hop != old.hop }
    let s2 := logE s1 origin 0x0030 0 (natW (old.hop * 256 + old.peg)) (natW (hop * 256 + peg))
    if peg = old.peg then s2 else pegPair (pegEmpty s2) peg origin

/-- Whether a PITCH header makes this unit add one to NEXT_PEG (05 R239). -/
def pitchAdds (s : State) (mode : Nat) : Bool :=
  mode == 1 || mode == 4 || mode == 6 || ((mode == 2 || mode == 3) && !isPitched s)

/-- NEXT_PEG as it leaves. -/
def pitchPass (s : State) (mode field : Nat) : State := outPut s 184 8 (if pitchAdds s mode then addOne field else field)

/-- The outcome of a good PITCH header, from the value received (05 R241). -/
def pitchCommit (s : State) (mode field : Nat) : State :=
  let v := rev8 field
  let r := s.ring
  let fits : Bool := decide (1 ≤ v) && decide (v ≤ 60)
  match mode with
  | 1 => pegSet s (if fits then v else 0) v orgHdr
  | 3 => if isPitched s then s else pegSet s (if fits then v else 0) r.hop orgHdr
  | 4 =>
    let takes : Bool := !isPitched s && decide (1 ≤ r.savedPeg) && decide (r.savedPeg ≤ 60) && decide (1 ≤ v) && r.savedHop == v
    pegSet s (if takes then r.savedPeg else r.peg) v orgHdr
  | 5 => if isPitched s && s.twin.mode == 0 && r.peg == v then pegSet s 0 r.hop orgHdr else s
  | 6 => pegSet s r.peg v orgHdr
  | _ => s

/-- A PITCH header by itself: the field passes and the outcome is committed. -/
def pitchHeader (s : State) (mode : Nat) (field : Byte) : State :=
  if ringLive s then pitchCommit (pitchPass s mode field.toNat) mode field.toNat else s

/-! ### Maps (04 R187, 16 R716) -/

def mapPass (s : State) (a : Nat) (on : Bool) : State :=
  if on && isPitched s then outPut s a 64 (hGet s.out.header a 64 ||| 2 ^ s.ring.peg) else s

def mapsPass (s : State) : State := mapPass (mapPass s 272 s.ring.alarmMap) 336 s.ring.faultMap

/-! ### Fires (04 R196–R201, R229–R231, 05 R237) -/

/-- The key this unit writes: pending since an earlier superframe, and not under ORPHAN or at a tail (04 R196, R227, 19 R850). -/
def fireDue (s : State) : Option (BitVec 56) :=
  if isPitched s && !isOrphan s && !isTail s && decide (s.ring.fireSf < s.t.sf) then s.ring.fire else none

/-- Note a header's fire fields. -/
def seenNote (s : State) (echo good resolve : Bool) (peg : Nat) (changed : Bool) : State :=
  { s with ring.seen := some { sf := s.t.sf, echo := echo, good := good, resolve := resolve, peg := peg, changed := changed } }

/-- Fire pass: the smaller key goes on, and the unit takes its standing where the header is good. -/
def firePass (s : State) (key : BitVec 56) (good : Bool) : State :=
  let s0 := seenNote s false good false 0 false
  if !isPitched s then s0
  else
    let out : BitVec 56 := match fireDue s with
      | some k => if k.toNat < key.toNat then k else key
      | none => key
    let st : Option Standing := match fireDue s with
      | some k => if !good then none else some (if k.toNat < key.toNat then .lead else if k = key then .tie else .lose)
      | none => none
    outPut { s0 with ring.standing := st } 216 56 out.toNat

/-- A header with FIRE_ECHO is a resolve pass where FIRE_PEG is still 0xFF; where an upstream unit has written a peg, if the header before
it was a fire pass, also a missed one, or a resolve pass that arrived poisoned or was missed, or one in which this unit replaced the peg that now comes again
(DEDUCED, log 70). -/
def isResolve (s : State) (peg : Nat) : Bool :=
  peg == 0xFF || (peg != 0 &&
    (match s.ring.seen with
     | some f => f.sf + 1 == s.t.sf && (!f.echo || (f.resolve && (!f.good || (f.changed && f.peg == peg))))
     | none => false))

/-- FIRE_PEG as it leaves in a resolve pass, by the unit's standing. -/
def resolvePeg (s : State) (peg : Nat) : Nat :=
  if !isPitched s then peg
  else
    match s.ring.standing with
    | some .lead => s.ring.peg
    | some .tie => min peg s.ring.peg
    | _ => peg

/-- Resolve pass. -/
def resolvePass (s : State) (peg : Nat) (good : Bool) : State :=
  let out := resolvePeg s peg
  let s1 := seenNote s true good true peg (out != peg)
  if out = peg then s1 else outPut s1 208 8 out

/-- The ring's fire time (04 R200, 15 R674). -/
def fireTime (s : State) (key : BitVec 56) : State :=
  let s1 := { s with ring.ringKey := some key }
  if inSession s1 then capFire s1 key else s1

/-- A good resolve pass: the ring's fire time is learned, and a pending fire that is not earlier ends. -/
def fireLearn (s : State) (key : BitVec 56) : State :=
  let ended : Bool := match s.ring.fire with
    | some k => decide (key.toNat ≤ k.toNat)
    | none => false
  fireTime { s with ring.fire := if ended then none else s.ring.fire } key

/-- Confirm pass: the firing peg, and the fire time too where the resolve pass was missed (04 R231). -/
def fireConfirm (s : State) (peg : Nat) (key : BitVec 56) : State :=
  let s1 := if s.ring.ringKey = some key then s else fireTime s key
  { s1 with ring.standing := none, capt.firePeg := if peg ≤ 60 then peg else 0 }

/-- FIRE_PASS: a good header with FIRE_ECHO clear. -/
def execFirePass (key : BitVec 56) (s : State) : Host.Outcome State Fault Refusal :=
  .next (if ringLive s then firePass s key true else s)

/-- RESOLVE_PASS: a good header of the resolve pass. -/
def execResolvePass (firePeg : Byte) (key : BitVec 56) (s : State) : Host.Outcome State Fault Refusal :=
  .next (if ringLive s && isPitched s then fireLearn (resolvePass s firePeg.toNat true) key else s)

/-- CONFIRM_PASS: a good header of the confirm pass. -/
def execConfirmPass (firePeg : Byte) (key : BitVec 56) (s : State) : Host.Outcome State Fault Refusal :=
  .next (if ringLive s && isPitched s then fireConfirm (seenNote s true true false firePeg.toNat false) firePeg.toNat key else s)

/-- The fire fields as the header passes, and whether it is a resolve pass. -/
def fireFields (s : State) (h : BitVec 512) (good : Bool) : State :=
  let peg := hGet h 208 8
  if !hFlag h 10 then firePass s (hKey h) good
  else if isResolve s peg then resolvePass s peg good
  else seenNote s true good false peg false

/-- What a good header's fire fields tell at tick 16; `s0` is the unit before it. -/
def fireTold (s0 s : State) (h : BitVec 512) : State :=
  let peg := hGet h 208 8
  if !hFlag h 10 || !isPitched s0 then s
  else if isResolve s0 peg then fireLearn s (hKey h)
  else fireConfirm s peg (hKey h)

/-! ### Arming over the ring (04 R202, 14 R639, 15 R653, R670, R671) -/

/-- The arming master writes its request, from the superframe that follows its effect tick on (15 R671); one written into a
poisoned header stays pending. Writing ARM clears DISARM (and the reverse) and replaces the ARM_ID of a request the head-end made in that
header (04 R202 does not say: DESIGN CHOICE, log 15). -/
def masterPass (s : State) (good : Bool) : State :=
  match s.ring.masterReq with
  | none => s
  | some (arm, armId) =>
    if !isPitched s || decide (s.t.sf ≤ s.ring.masterSf) then s
    else
      let f := hGet s.out.header 144 16
      let s1 := outPut (outPut s 144 16 (bits f 15 15 * 32768 + (if arm then 16384 else 8192) + bits f 12 0)) 192 16 armId.toNat
      if good then { s1 with ring.masterReq := none } else s1

/-- A header ARM or DISARM takes effect at the next p = 0. -/
def armNote (s : State) (arm : Bool) (armId : BitVec 16) : State :=
  if isPitched s then { s with arms := s.arms ++ [{ arm := arm, armId := armId }] } else s

/-- Capture cannot take a session of this ARM_ID (15 R653). -/
def captHeld (s : State) (armId : BitVec 16) : Bool :=
  s.capt.phase == .closed || s.capt.phase == .full || (s.capt.phase == .post && s.capt.armId != armId)

/-- A header ARM acts as a TRIPARM with RING_MASK would; one that capture cannot take, or that cannot be applied, is counted (15 R653), and
the session the Tripwire is armed in is left alone (04 R202; log 49). -/
def ringArm (s : State) (armId : BitVec 16) : State :=
  let m := pNat s 0x3082
  if !captHeld s armId && s.trip.st != .disarmed && s.trip.armId == armId then s
  else if s.u.st = .run ∧ m ≠ 0 ∧ (maskList 8 m).all (slotFit s) ∧ !armBusy s armId then tripArm s (byteOf m) armId orgHdr
  else { s with capt.armMissed := s.capt.armMissed + 1 }

/-- A header DISARM of the session the Tripwire is armed in. -/
def ringDisarm (s : State) (armId : BitVec 16) : State :=
  if s.trip.st ≠ .disarmed ∧ s.trip.armId = armId then tripDisarm s 0xFF orgHdr else s

/-- The header arms due take effect at p = 0. -/
def armsRun (s : State) : State :=
  s.arms.foldl (fun s a => if a.arm then ringArm s a.armId else ringDisarm s a.armId) { s with arms := [] }

/-- HEADER_ARM. -/
def execHeaderArm (armId : BitVec 16) (s : State) : Host.Outcome State Fault Refusal :=
  .next (if ringLive s then armNote s true armId else s)

/-- HEADER_DISARM. -/
def execHeaderDisarm (armId : BitVec 16) (s : State) : Host.Outcome State Fault Refusal :=
  .next (if ringLive s then armNote s false armId else s)

/-! ### SYNC (12 R552) -/

/-- The count at the next p = 0, after the correction decided for it. -/
def nextCount (s : State) : BitVec 48 :=
  match s.t.fix with
  | some f => f.target
  | none => s.t.count + BitVec.ofNat 48 (512 - s.t.p)

/-- FLAGS.SYNC names the first tick from the next p = 0 on whose low 16 bits are SYNC_AT; a newer one replaces it. The tick is named by its
count, so a correction that skips that count leaves nothing named (08 R366, R378). -/
def headerSync (s : State) (syncAt : BitVec 16) : State :=
  let c := nextCount s
  let d : SyncDue := { up := 0, count := some (c + (syncAt - c.setWidth 16).setWidth 48), order := 0, origin := orgHdr }
  { s with syncs := d :: s.syncs.filter (fun x => x.order != 0) }

/-- HEADER_SYNC. -/
def execHeaderSync (syncAt : BitVec 16) (s : State) : Host.Outcome State Fault Refusal :=
  .next (if ringLive s then headerSync s syncAt else s)

/-! ### Rows of PITCH headers -/

def execPitchAll (field : Byte) (s : State) : Host.Outcome State Fault Refusal := .next (pitchHeader s 1 field)
def execPitchCount (field : Byte) (s : State) : Host.Outcome State Fault Refusal := .next (pitchHeader s 2 field)
def execPitchFill (field : Byte) (s : State) : Host.Outcome State Fault Refusal := .next (pitchHeader s 3 field)
def execPitchSticky (field : Byte) (s : State) : Host.Outcome State Fault Refusal := .next (pitchHeader s 4 field)
def execPitchDrop (field : Byte) (s : State) : Host.Outcome State Fault Refusal := .next (pitchHeader s 5 field)
def execPitchMeasure (field : Byte) (s : State) : Host.Outcome State Fault Refusal := .next (pitchHeader s 6 field)

/-- PEG_CLASH_RELEASE: the peg goes at the tick 16 after PEG_CLASH became LASTING (05 R252). -/
def execPegClashRelease (s : State) : Host.Outcome State Fault Refusal :=
  .next (if alive s && s.ring.pegDrop && s.t.p == 16 then pegSet { s with ring.pegDrop := false } 0 s.ring.hop orgUnit else s)

/-! ### The bulk lane (04 R213–R215, 06 R292, R293, R306) -/

/-- The frame of a grant, with the transfer advanced past it. -/
def bulkFrame (s : State) (b : Bulk) (len : Nat) : State :=
  let n := min (b.total - b.offset) (len - 12)
  if b.bytes.length < b.offset + n then s
  else
    let f := [0xFE, byteOf s.ring.peg, b.src, b.seq] ++ beBytes 4 b.offset ++ beBytes 2 n ++ (b.bytes.drop b.offset).take n
    let b1 := if b.offset + n < b.total then some { b with offset := b.offset + n } else none
    { s with out.lane := some (len, f ++ beBytes 2 (crc16 f)), cmd.bulk := b1 }

/-- A grant of the lane. -/
def bulkGrant (s : State) (peg len : Nat) : State :=
  if isPitched s && peg == s.ring.peg && decide (13 ≤ len) && decide (len ≤ 448) then
    match s.cmd.bulk with
    | some b => bulkFrame s b len
    | none => s
  else s

/-- BULK_GRANT. -/
def execBulkGrant (peg : Byte) (len : BitVec 16) (s : State) : Host.Outcome State Fault Refusal :=
  .next (if ringLive s then bulkGrant s peg.toNat len.toNat else s)

/-! ### A header that arrives (04 R181–R184, R192–R194, R223) -/

/-- The streaming modifications of a head-end header. -/
def headerPass (s : State) (h : BitVec 512) (good : Bool) : State :=
  let s1 := { s with out.header := h }
  let s2 := if hFlag h 11 then pitchPass s1 (hGet h 176 8) (hGet h 184 8) else s1
  let s3 := masterPass (fireFields (mapsPass s2) h good) good
  { s3 with out.header := hSeal s3.out.header (syndrome h) }

/-- The fields every locked unit takes from a good head-end header. -/
def headerFields (s : State) (h : BitVec 512) : State :=
  let r := { s.ring with hdr := .good, lastBad := false, missedRun := 0, lastSfn := BitVec.ofNat 32 (hGet h 32 32),
                         sfnSf := s.t.sf, timeset := hFlag h 9, anyGood := true, ration := BitVec.ofNat 16 (hGet h 128 16),
                         motion := hFlag h 15 }
  orphanLeave { s with ring := r }

/-- What a good head-end header brings at tick 16; `s0` is the unit before it. -/
def headerAct (s0 s : State) (h : BitVec 512) : State :=
  let s1 := headerFields s h
  let s2 := if hFlag h 11 then pitchCommit s1 (hGet h 176 8) (hGet h 184 8) else s1
  let s3 := fireTold s0 s2 h
  let armId := BitVec.ofNat 16 (hGet h 192 16)
  let s4 := if hFlag h 14 then armNote s3 true armId else s3
  let s5 := if hFlag h 13 then armNote s4 false armId else s4
  let s6 := timeCompare s5 (BitVec.ofNat 48 (hGet h 64 48)) (BitVec.ofNat 16 (hGet h 112 16))
  let s7 := if hFlag h 12 then headerSync s6 (BitVec.ofNat 16 (hGet h 160 16)) else s6
  if hFlag h 8 then bulkGrant s7 (hGet h 416 8) (hGet h 424 16) else s7

/-- A poisoned header is counted and acted on by nothing (04 R193). -/
def headerPoisoned (s : State) : State :=
  let s1 := { s with ring := { s.ring with hdr := .poisoned, lastBad := true, missedRun := 0, poisoned := s.ring.poisoned + 1 } }
  tallyEvent s1 3

/-- A beacon as it passes: the map bits, and one more in its ORPHAN count (04 R223). -/
def beaconPass (s : State) (h : BitVec 512) : State :=
  let s1 := outPut (mapsPass { s with out.header := h }) 408 8 (addOne (hGet h 408 8))
  { s1 with ring.seen := none, out.header := hSeal s1.out.header (syndrome h) }

/-- A good beacon: nothing is taken from it but the condition it shows. -/
def beaconTake (s : State) (h : BitVec 512) : State :=
  let s1 := beaconPass s h
  orphanEnter { s1 with ring := { s1.ring with hdr := .beacon, lastBad := false, missedRun := 0, beaconLock := true } }

/-- A missed header: relayed as it came, counted, and the fourth in a row unlocks (04 R182, R229). -/
def headerMissed (s : State) (h : BitVec 512) : State :=
  let r := { s.ring with hdr := .missed, missed := s.ring.missed + 1, missedRun := s.ring.missedRun + 1,
                         standing := if hFlag h 10 then s.ring.standing else none }
  let peg := hGet h 208 8
  let s0 := seenNote { s with ring := r, out.header := h } (hFlag h 10) false (hFlag h 10 && isResolve s peg) peg false
  let s1 := tallyEvent s0 3
  if s1.ring.missedRun < 4 then s1
  else { s1 with ring := { s1.ring with lock := .unlocked, unlockedAt := s.t.up, beaconLock := false } }

/-- The grid moves so that this is tick 16 of the new one, and every started channel is reset as by SYNC in this tick, the first the
unit runs on the new grid (04 R184 names the tick no nearer: DESIGN CHOICE, log 71). -/
def realign (s : State) (shift : Word) : State :=
  let s1 := syncReset { s with t.p := 16, ring.realigns := s.ring.realigns + 1 }
  logE s1 orgUnit 0x0031 0 0 shift

/-- A header goes out as it came, unless the unit's own beacons fill the OUT port (02 R93, 04 R221, R222). -/
def headerRelay (s : State) (beaconing : Bool) (h : BitVec 512) : State := if beaconing then s else { s with out.header := h }

/-- The unit locks by the header that has just passed unchanged: a beacon leaves it in the ORPHAN condition, and of a head-end's header
it takes every field but a pitch, which passed it unlocked (04 R181, R184, R225, 05 R242; that the header by which it locks is acted on: DEDUCED, log 72). -/
def lockTake (s : State) (h : BitVec 512) (shift : Word) : State :=
  let beacon := hGet h 408 8 != 0
  let r := { s.ring with lock := .locked, missedRun := 0, beaconing := false, dataLoss := false, beaconLock := beacon, lastBad := false,
                         hdr := if beacon then .beacon else .good }
  let s1 := headerRelay { s with ring := r } s.ring.beaconing h
  let s2 := if shift = 0 then s1 else realign s1 shift
  if beacon then orphanEnter s2
  else
    let s3 := headerAct s2 s2 (hPut h 148 1 0)
    seenNote s3 (hFlag h 10) true (hFlag h 10 && isResolve s (hGet h 208 8)) (hGet h 208 8) false

/-- A poisoned header whose ORPHAN count is not zero: a beacon, or a head-end's header with an error there. NEXT_PEG passes before the
count, so a PITCH flag is obeyed either way; a unit not in the ORPHAN condition applies what it would to any header, and one more to the
count (04 R189, R193, 05 R239). -/
def poisonedBeacon (s : State) (h : BitVec 512) : State :=
  if isOrphan s then
    let s1 := beaconPass s h
    if hFlag h 11 then
      let s2 := pitchPass s1 (hGet h 176 8) (hGet h 184 8)
      { s2 with out.header := hSeal s2.out.header (syndrome h) }
    else s1
  else
    let s1 := outPut (headerPass s h false) 408 8 (addOne (hGet h 408 8))
    { s1 with out.header := hSeal s1.out.header (syndrome h) }

/-- A header at the expected place of a locked unit. -/
def headerLocked (s : State) (h : BitVec 512) : State :=
  let good := syndrome h == 0
  let beacon := hGet h 408 8 != 0
  if good && beacon then beaconTake s h
  else if good then headerAct s (headerPass s h true) h
  else headerPoisoned (if beacon then poisonedBeacon s h else headerPass s h false)

/-- The CLK edge that sampled bit 0 of a header `shift` CLK from the grid's p = 0, counted from the boot's. -/
def bitZero (s : State) (shift : Word) : Int := 64 * ((s.t.up : Int) - s.t.p) + shift.toInt

/-- A header at an unlocked unit, whose bit 0 was sampled at edge `pos`: it locks on one that is good exactly 16 384 bits after a SYNCWORD
of its own phase (04 R181). -/
def headerSearch (s : State) (h : BitVec 512) (shift : Word) (cands : List Int) : State :=
  let pos := bitZero s shift
  if syncOk h && syndrome h == 0 && cands.contains (pos - 32768) then lockTake s h shift
  else
    let kept := cands.filter (fun c => decide (pos - 32768 < c))
    headerRelay { s with ring.lock := .acquiring (if syncOk h then kept ++ [pos] else kept) } s.ring.beaconing h

/-- A header of 512 bits arrives whose bit 0 was sampled `shift` CLK from the grid's p = 0. -/
def headerArrive (s : State) (h : BitVec 512) (shift : Word) : State :=
  match s.ring.lock with
  | .locked => if shift = 0 && syncOk h then headerLocked s h else headerMissed s h
  | .acquiring cands => headerSearch s h shift cands
  | .unlocked => headerSearch s h shift []

/-- The IN port is relayed: the core has power and CLK comes from CKI (02 R92, R94, R115); it is so in a core stopped by its ROM check
too (03 R131, 04 R233). -/
def relays (s : State) : Bool := s.u.st != .dormant && s.ring.clk == .cki

/-- SUPERFRAME_HEADER: the header passes and is acted on as one event, at tick 16 (log 50). -/
def execSuperframeHeader (h : BitVec 512) (shift : Word) (s : State) : Host.Outcome State Fault Refusal :=
  .next (if !relays s then s else if alive s then headerArrive s h shift else { s with out.header := h })

/-- BEACON_HEADER: a good beacon header at a locked unit. -/
def execBeaconHeader (h : BitVec 512) (s : State) : Host.Outcome State Fault Refusal :=
  .next (if ringLive s && hGet h 408 8 != 0 && syndrome h == 0 then beaconTake s h else s)

/-! ### Beacons of the unit's own (04 R220–R222) -/

/-- The beacon superframe's header of this p = 0. -/
def beaconOf (s : State) : BitVec 512 :=
  let maps (b : Bool) : Nat := if b && isPitched s then 2 ^ s.ring.peg else 0
  let h0 := hPut (hPut (hPut 0 0 32 0x7C6B3E95) 32 32 s.ring.beaconSfn.toNat) 64 48 s.t.count.toNat
  let h1 := hPut (hPut h0 112 16 s.t.era.toNat) 216 56 absentKey.toNat
  let h2 := hPut (hPut h1 272 64 (maps s.ring.alarmMap)) 336 64 (maps s.ring.faultMap)
  hSeal (hPut (hPut h2 400 8 s.ring.peg) 408 8 0x80) 0

/-- Originate one beacon superframe: its header, and an empty window, slots and guard (04 R221). -/
def beaconSend (s : State) : State :=
  let sfn := if s.ring.beaconing then s.ring.beaconSfn + 1 else s.ring.lastSfn + BitVec.ofNat 32 (s.t.sf - s.ring.sfnSf)
  let s1 := { s with ring := { s.ring with beaconing := true, beaconSfn := sfn } }
  { s1 with out := { s1.out with beacon := beaconOf s1, window := List.replicate 512 0, lane := none, region := List.replicate 1472 0 } }

/-- ORPHAN_BEACON: at p = 0 on the backup oscillator; none from a unit armed for DORMANT (03 R157, 04 R232), also where a cause has sent it to
SAFE, which 03 R161 has send it (DESIGN CHOICE, log 102). -/
def execOrphanBeacon (s : State) : Host.Outcome State Fault Refusal :=
  .next (if alive s && s.t.p == 0 && s.ring.clk == .backup && !s.u.armed then beaconSend s else s)

/-- DATA_LOSS_BEACON: at p = 0 of a unit on CKI that has been unlocked for 32 superframe periods, unless armed for DORMANT (04 R222,
R232). -/
def execDataLossBeacon (s : State) : Host.Outcome State Fault Refusal :=
  .next (if alive s && s.t.p == 0 && s.ring.clk == .cki && s.ring.lock != .locked && !s.u.armed &&
      decide (s.ring.unlockedAt + 32 * 512 ≤ s.t.up) then
    beaconSend (orphanEnter { s with ring.dataLoss := true }) else s)

end Sys2Proof.Machine
end

