-- ==== Sys2Proof/Machine/Boot.lean ====
section
/-! DEFINITION. Resets and their boot, DORMANT and its wakes, the claim hold-off, and the loss and return of the clock (01 R33–R41, 03
R129–R139, R156–R169, 07 R316–R327, 20 R883, R884, R940). -/

namespace Sys2Proof.Machine

/-! ### What outlives a reset -/

/-- Everything in its state of before the first boot but for what NV, the factory and the pins hold, and the commands waiting. -/
def bareState (s : State) : State :=
  let n := (nvTear s).nv
  let f := { FieldSt0 with regs := Vector.replicate 24 0, frst := true, frev := s.fd.frev, vdda := s.fd.vdda, vhtr := s.fd.vhtr,
                           vdrv := s.fd.vdrv }
  let q := { SeamSt0 with up := false, vdda := false, vhtr := false, vdrv := false, want := Vector.replicate 24 0,
                          sent := Vector.replicate 24 0, fstatDone := false }
  { State0 with nv := { n with imageCrc := 0 }, fac := s.fac, fd := f, seam := q, pending := s.pending,
                aout := { State0.aout with clrLow := s.aout.clrLow, clrNow := s.aout.clrNow, clrWas := s.aout.clrWas } }

/-- An empty Logbook goes on from the seal (07 R329, R330). -/
def logEmpty (s : State) : LogSt :=
  match (sealHeld s).getLast? with
  | some e => { LogSt0 with anchor := e.check, nextSeq := seqNext e.seq }
  | none => LogSt0

/-- The chain verifies to its last entry (07 R330). -/
def chainOk : Word → List Entry → Bool
  | _, [] => true
  | prev, e :: es => e.check == chainCheck prev e && chainOk e.check es

def kept (cause : Nat) : Bool := cause == 2 || cause == 3 || cause == 4

/-- The Logbook a boot starts from, and how many entries were lost (03 R135). -/
def bootLog (s : State) (cause : Nat) : LogSt × Nat :=
  if !kept cause then (logEmpty s, 0)
  else if chainOk s.log.anchor s.log.entries then
    ({ s.log with overwritten := 0, unlogged := 0, freeTo := 0xFFFFFFFF }, 0)
  else (logEmpty s, s.log.entries.length)

/-- The highest era of the kept Logbook and the seal (03 R136). -/
def maxEra (es : List Entry) : Option Nat :=
  es.foldl (fun m e => some (max (m.getD 0) e.era.toNat)) none

/-! ### Step 6: NV load (03 R129, 01 R72, 20 R883, R940, 07 R316, R317, R327) -/

/-- What a loaded value hands to the Seam at once: the AOUT range. A phase fraction goes out with its channel's start (12 R578). -/
def bootSend (s : State) : State := if s.aout.range = 0 then s else regSet s 0x16 3 1 s.aout.range

/-- The configuration image; values the unit cannot take are skipped. -/
def bootCfg (s : State) : State :=
  match s.nv.cfg with
  | .good i =>
    let s1 := loadPut s (loadTaken s (loadPairs s i))
    bootSend (loadCal { s1 with nv.imageCrc := cfgCrc i, ring.savedPeg := i.peg, ring.savedHop := i.hop } i)
  | _ => s

def bootCopies (s : State) : State :=
  match s.nv.copies with
  | .good i => loadCopies s i
  | _ => s

def bootRights (s : State) : State :=
  match s.nv.rights with
  | .good i => { s with rights := { s.rights with roles := i.roles, recoveries := i.recoveries } }
  | _ => s

/-- The entry of one image of step 6: NV_FAIL where it fails its check, NV_LOAD where it is loaded; a blank one writes nothing. -/
def bootNote {α : Type} (i : Img α) (region skipped : Nat) (crc : α → Word) (s : State) : State :=
  match i with
  | .bad => nvFail s orgUnit region 1
  | .good a => logE s (org 0 4) 0x0004 region (natW skipped) (crc a)
  | .blank => s

/-- CRC-32 of the rights record, as a function of its content (log 2). -/
def rightsCrc (r : RightsImage) : Word := Config.imageCrc ([4, r.recoveries] ++ (r.roles.map (fun p => [p.1, p.2])).flatten)

/-- Saved values that a boot skips (20 R940). -/
def bootSkips (s : State) : Nat :=
  match (bareState s).nv.cfg with
  | .good i => (loadPairs (bareState s) i).length - (loadTaken (bareState s) (loadPairs (bareState s) i)).length
  | _ => 0

/-- The seal fails its check: its descriptor, or the region it tells of. -/
def sealBad (s : State) : Bool :=
  match s.nv.sealDesc with
  | .good d => d.crc != sealCrc s.nv.sealEnts
  | .bad => true
  | .blank => false

/-- The entries of step 6, in the order of its images; a copies image's NV_LOAD is the model's reading
(07 R335, R337, 01 R72, 20 R940: DEDUCED, log 32). RESET_DEFAULTS loads neither configuration nor copies (03 R135, 20 R883) and writes nothing of
them, also where their check fails, which the spec does not say (DESIGN CHOICE, log 33). -/
def bootNotes (s : State) (cause skips : Nat) : State :=
  let s1 := if cause = 4 then s else bootNote s.nv.copies 2 0 copyCrc (bootNote s.nv.cfg 1 skips cfgCrc s)
  let s2 := bootNote s.nv.rights 4 0 rightsCrc s1
  if sealBad s then nvFail s2 orgUnit 3 1 else s2

/-- Recovery by TESTEN: no client is Keeper any more, and the record is written anew (07 R327, log 52). -/
def testenRecover (s : State) : State :=
  let ks := (s.rights.roles.filter (fun r => r.2 == keeper)).map Prod.fst
  let r := { s.rights with roles := s.rights.roles.filter (fun r => r.2 != keeper), recoveries := min 65535 (s.rights.recoveries + 1) }
  let n := { s.nv with rights := .good { roles := r.roles, recoveries := r.recoveries }, nvwRights := s.nv.nvwRights + 1 }
  let s1 := ks.foldl (fun (s : State) c => logE s orgPin 0x0020 (0x0380 + c) 3 0) { s with rights := r, nv := n }
  logE s1 orgPin 0x0021 0 0 (natW ks.length)

/-! ### Boot (03 R129–R137) -/

/-- The source that clock selection takes (01 R33). -/
def bootClk (e : BootEnv) : Option ClkSrc := if e.cki then some .cki else if e.crystal then some .crystal else none

/-- The field die and the Seam as step 5 leaves them (01 R68, R939): brought up, with FSTAT and HKCTL written, or not up. -/
def bootSeam (s : State) (e : BootEnv) : State :=
  let f := { s.fd with frev := e.frev, vdda := e.vdda, vhtr := e.vhtr, vdrv := e.vdrv }
  if !e.seamUp then { s with fd := f }
  else
    let q := { SeamSt0 with vdda := e.vdda, vhtr := e.vhtr, vdrv := e.vdrv, frev := e.frev }
    { s with fd := { f with regs := FieldSt0.regs, frst := false }, seam := q }

/-- Causes of SAFE that step 5 found (03 R152). -/
def bootCause (s : State) (e : BootEnv) : BitVec 16 := if !e.seamUp then 0x0080 else if e.frev != s.fac.wantFrev then 0x0008 else 0

/-- Steps 3 to 6 of a boot: everything but the Logbook. -/
def bootLoad (s : State) (e : BootEnv) (cause : Nat) (clk : ClkSrc) : State :=
  let s1 := bootSeam (bareState s) e
  let s2 := { s1 with u := { s1.u with rcause := cause, testen := e.testen, bootUs := e.bootUs, bootFault := bootCause s e },
                      ring := { s1.ring with selected := clk, clk := clk, xtal := e.crystal } }
  bootRights (if cause = 4 then s2 else bootCopies (bootCfg s2))

/-- Step 7: the counter at 0 in a new era, and the boot entries (03 R136, R137, R167). -/
def bootLogbook (s0 s : State) (e : BootEnv) (cause : Nat) : State :=
  let l := bootLog { s with log := s0.log } cause
  let prior := maxEra (l.1.entries ++ sealHeld s)
  let era : BitVec 16 := match prior with
    | some x => BitVec.ofNat 16 (x + 1)
    | none => 0
  let s1 := { s with log := l.1, t := { s.t with era := era, marks := [{ up := 0, count := 0, era := era }] } }
  let s2 := bootNotes (logE s1 orgUnit 0x0001 0 0 (natW cause)) cause (bootSkips s0)
  let s3 := if e.testen then testenRecover s2 else s2
  let s4 := if l.2 = 0 then s3 else logE s3 orgUnit 0x0008 0 0 (natW l.2)
  match prior with
  | some x => logE s4 orgUnit 0x0028 0 (natW x) (era.setWidth 32)
  | none => s4

/-- Step 8: IDLE, or SAFE after a failure of step 5 (03 R139, R141). Its entry gives DORMANT as the old state, which the spec does not
say (DESIGN CHOICE, log 8). -/
def bootEnd (s : State) : State :=
  let s1 := { s with u.st := .dormant }
  if s.u.bootFault = 0 then stateTo s1 .idle 0 orgUnit else autoSeal (stateTo s1 .safe s.u.bootFault orgUnit) 0

/-- DORMANT: nothing is clocked, and only NV is left (03 R157, R159). -/
def dormantState (s : State) : State :=
  let s1 := bareState s
  { s1 with u.st := .dormant, log := logEmpty s1 }

/-- What arrives on the IN port while RESET_N is low and until the boot ends goes out unchanged, where CKI carries edges (02 R92, R117,
04 R233). -/
def bootRelay (s : State) (e : BootEnv) : State :=
  if !e.cki then s
  else
    let whole (n : Nat) (l : List Byte) : List Byte := l.take n ++ List.replicate (n - l.length) 0
    { s with out := { s.out with header := e.header.getD s.out.header, window := (e.window.map (whole 512)).getD s.out.window,
                                 region := (e.region.map (whole 1472)).getD s.out.region } }

/-- A boot of a given cause: DORMANT with no clock, stopped after a failed ROM check, else up (03 R129–R132). -/
def boot (s : State) (e : BootEnv) (cause : Nat) : State :=
  match bootClk e with
  | none => dormantState s
  | some clk =>
    if !e.romGood then
      let s1 := bareState s
      bootRelay { s1 with u := { s1.u with romFail := true, rcause := cause }, log := s.log,
                          ring := { s1.ring with selected := clk, clk := clk, xtal := e.crystal } } e
    else bootEnd (bootRelay (bootLogbook s (bootLoad s e cause clk) e cause) e)

/-- POWER_ON. -/
def execPowerOn (e : BootEnv) (s : State) : Host.Outcome State Fault Refusal := .next (boot s e 0)

/-- BROWN_OUT. -/
def execBrownOut (e : BootEnv) (s : State) : Host.Outcome State Fault Refusal := .next (boot s e 1)

/-- RESET_PIN; a core stopped by its ROM check takes no reset and relays on (03 R131). -/
def execResetPin (e : BootEnv) (s : State) : Host.Outcome State Fault Refusal :=
  .next (if s.u.romFail then (if relays s then bootRelay s e else s) else boot s e 2)

/-- RESET_START: an accepted RESET begins at p = 0 of the superframe after its reply (03 R138). -/
def execResetStart (e : BootEnv) (s : State) : Host.Outcome State Fault Refusal :=
  .next (
    match s.u.resetDue with
    | some (mode, sf) => if alive s && s.t.p == 0 && decide (sf < s.t.sf) then boot s e (if mode = 0 then 3 else 4) else s
    | none => s)

/-- CLAIM_HOLDOFF_END: the 1 000 superframes are over (07 R322). -/
def execClaimHoldoffEnd (s : State) : Host.Outcome State Fault Refusal :=
  .next (if s.rights.holdEnd then { s with rights := { s.rights with holdoff := 0, holdEnd := false } } else s)

/-! ### DORMANT and waking (03 R157, R158, R164) -/

/-- DORMANT_ENTRY: an armed unit in IDLE whose clock is lost, or whose crystal runs, at p = 0 (03 R139, R157). One that a cause has sent to
SAFE stays there (DESIGN CHOICE, log 102). -/
def execDormantEntry (s : State) : Host.Outcome State Fault Refusal :=
  .next (if s.u.armed && s.u.st == .idle && (s.ring.clk == .backup || (s.ring.clk == .crystal && s.t.p == 0)) then dormantState s
    else s)

/-- WAKE_CKI. -/
def execWakeCki (e : BootEnv) (s : State) : Host.Outcome State Fault Refusal := .next (if s.u.st = .dormant then boot s e 5 else s)

/-- WAKE_PIN. -/
def execWakePin (e : BootEnv) (s : State) : Host.Outcome State Fault Refusal := .next (if s.u.st = .dormant then boot s e 6 else s)

/-- WAKE_IN_VIGIL: RUN at the next p = 0. -/
def execWakeInVigil (s : State) : Host.Outcome State Fault Refusal :=
  .next (if s.u.st = .vigil then { s with vigil.wakeDue := true } else s)

/-! ### Clock loss and return (01 R35–R39, R77, 04 R219, R225) -/

/-- A switchover: counted, the frames of its tick cut, and its entry. -/
def clkSwitch (s : State) (next : ClkSrc) : State :=
  let s1 := { s with seam := { s.seam with cut := true, switches := s.seam.switches + 1 },
                     ring := { s.ring with clk := next, lock := .unlocked, unlockedAt := s.t.up, missedRun := 0, beaconing := false,
                                           beaconLock := false, dataLoss := false } }
  logE s1 orgUnit 0x0032 0 (natW (clkCode s.ring.clk)) (natW (clkCode next))

/-- MISSING_EDGE: the backup oscillator takes over, and the ORPHAN condition begins. -/
def execMissingEdge (s : State) : Host.Outcome State Fault Refusal :=
  .next (if alive s && s.ring.clk != .backup then orphanEnter (clkSwitch s .backup) else s)

/-- CLOCK_RETURN: the selected source is back; on a crystal the ORPHAN condition ends with it, on CKI at a good header. -/
def execClockReturn (s : State) : Host.Outcome State Fault Refusal :=
  .next (if alive s && s.ring.clk == .backup then
    let s1 := clkSwitch s s.ring.selected
    if s.ring.selected = .crystal then orphanLeave s1 else s1
    else s)

end Sys2Proof.Machine
end

