-- ==== Sys2Proof/Machine/Commands.lean ====
section
/-! DEFINITION. The opcode rows of the table: each is one packet of that opcode (06 R295), with its payload laid out as its row of
R295 or its home chapter gives it. -/

namespace Sys2Proof.Machine

/-- Pairs as the payload of a SETP (06 R298). -/
def pairBytes (ps : List (Pid × Word)) : List Byte := (ps.map (fun p => beBytes 2 p.1.toNat ++ beBytes 4 p.2.toNat)).flatten

/-- NOP (06 R295). -/
def execNop (h : Hdr) (s : State) : Host.Outcome State Fault Refusal := .next (rowRun s h 0x00 [])

/-- HELLO (06 R296). -/
def execHello (h : Hdr) (s : State) : Host.Outcome State Fault Refusal := .next (rowRun s h 0x01 [])

/-- GETP (20 R876). -/
def execGetp (h : Hdr) (ids : List Pid) (s : State) : Host.Outcome State Fault Refusal :=
  .next (rowRun s h 0x02 ((ids.map (fun i => beBytes 2 i.toNat)).flatten))

/-- SETP (06 R286). -/
def execSetp (h : Hdr) (pairs : List (Pid × Word)) (s : State) : Host.Outcome State Fault Refusal :=
  .next (rowRun s h 0x03 (pairBytes pairs))

/-- GETBLK (06 R297). -/
def execGetblk (h : Hdr) (first : Pid) (count via : Byte) (s : State) : Host.Outcome State Fault Refusal :=
  .next (rowRun s h 0x04 (beBytes 2 first.toNat ++ [count, via]))

/-- STATE_QUERY (03 R125). -/
def execStateQuery (h : Hdr) (s : State) : Host.Outcome State Fault Refusal := .next (rowRun s h 0x05 [])

/-- STATE_IDLE (03 R139). -/
def execStateIdle (h : Hdr) (s : State) : Host.Outcome State Fault Refusal :=
  .next (rowRun s h 0x05 [1])

/-- STATE_RUN (03 R139). -/
def execStateRun (h : Hdr) (s : State) : Host.Outcome State Fault Refusal :=
  .next (rowRun s h 0x05 [2])

/-- STATE_VIGIL (03 R146). -/
def execStateVigil (h : Hdr) (s : State) : Host.Outcome State Fault Refusal :=
  .next (rowRun s h 0x05 [3])

/-- STATE_SAFE (03 R139). -/
def execStateSafe (h : Hdr) (s : State) : Host.Outcome State Fault Refusal :=
  .next (rowRun s h 0x05 [4])

/-- STATE_DORMANT (03 R156). -/
def execStateDormant (h : Hdr) (s : State) : Host.Outcome State Fault Refusal :=
  .next (rowRun s h 0x05 [0])

/-- RESET_CMD (03 R138). -/
def execResetCmd (h : Hdr) (s : State) : Host.Outcome State Fault Refusal :=
  .next (rowRun s h 0x06 [0])

/-- RESET_DEFAULTS (03 R138). -/
def execResetDefaults (h : Hdr) (s : State) : Host.Outcome State Fault Refusal :=
  .next (rowRun s h 0x06 [1])

/-- CLAIM_CODED (07 R320). -/
def execClaimCoded (h : Hdr) (role : Byte) (code : BitVec 64) (s : State) : Host.Outcome State Fault Refusal :=
  .next (rowRun s h 0x08 (role :: beBytes 8 code.toNat))

/-- CLAIM_QUERY (07 R323). -/
def execClaimQuery (h : Hdr) (role : Byte) (s : State) : Host.Outcome State Fault Refusal :=
  .next (rowRun s h 0x08 ([role]))

/-- GRANT (07 R324). -/
def execGrant (h : Hdr) (client role : Byte) (s : State) : Host.Outcome State Fault Refusal :=
  .next (rowRun s h 0x09 ([client, role]))

/-- RELEASE (07 R325). -/
def execRelease (h : Hdr) (s : State) : Host.Outcome State Fault Refusal := .next (rowRun s h 0x0A [])

/-- LOGREAD (07 R346). -/
def execLogread (h : Hdr) (source : Byte) (first : Word) (count : BitVec 16) (via : Byte) (s : State) : Host.Outcome State Fault Refusal :=
  .next (rowRun s h 0x0C (source :: (beBytes 4 first.toNat ++ beBytes 2 count.toNat ++ [via])))

/-- LOGSEAL (07 R343). -/
def execLogseal (h : Hdr) (s : State) : Host.Outcome State Fault Refusal := .next (rowRun s h 0x0D [])

/-- LOGMARK (07 R335). -/
def execLogmark (h : Hdr) (mark : BitVec 16) (value : Word) (s : State) : Host.Outcome State Fault Refusal :=
  .next (rowRun s h 0x0E (beBytes 2 mark.toNat ++ beBytes 4 value.toNat))

/-- LOG_FREE_TO (07 R341). -/
def execLogFreeTo (h : Hdr) (seq : Word) (s : State) : Host.Outcome State Fault Refusal :=
  .next (rowRun s h 0x03 (pairBytes [(BitVec.ofNat 16 (idLog 2), seq)]))

/-- LOG_POLICY (07 R342). -/
def execLogPolicy (h : Hdr) (policy : Word) (s : State) : Host.Outcome State Fault Refusal :=
  .next (rowRun s h 0x03 (pairBytes [(BitVec.ofNat 16 (idLog 0), policy)]))

/-- TIMESET (08 R373). -/
def execTimeset (h : Hdr) (wall : BitVec 64) (tick : BitVec 48) (s : State) : Host.Outcome State Fault Refusal :=
  .next (rowRun s h 0x10 (beBytes 8 wall.toNat ++ beBytes 6 tick.toNat))

/-- TIMEQ (08 R377). -/
def execTimeq (h : Hdr) (s : State) : Host.Outcome State Fault Refusal := .next (rowRun s h 0x11 [])

/-- CHSTART (12 R557). -/
def execChstart (h : Hdr) (mask : Mask) (s : State) : Host.Outcome State Fault Refusal :=
  .next (rowRun s h 0x14 (maskBytes mask))

/-- CHSTOP (12 R558). -/
def execChstop (h : Hdr) (mask : Mask) (s : State) : Host.Outcome State Fault Refusal :=
  .next (rowRun s h 0x15 (maskBytes mask))

/-- RANGE (09 R409). -/
def execRange (h : Hdr) (channel range : Byte) (s : State) : Host.Outcome State Fault Refusal :=
  .next (rowRun s h 0x16 ([channel, range]))

/-- SNAP (12 R565). -/
def execSnap (h : Hdr) (mask : Mask) (s : State) : Host.Outcome State Fault Refusal :=
  .next (rowRun s h 0x17 (maskBytes mask))

/-- STREAM (15 R683). -/
def execStream (h : Hdr) (mask : Mask) (divider : BitVec 16) (s : State) : Host.Outcome State Fault Refusal :=
  .next (rowRun s h 0x18 (maskBytes mask ++ beBytes 2 divider.toNat))

/-- FIRLOAD (12 R536). -/
def execFirload (h : Hdr) (set first : Byte) (coeffs : List (BitVec 24)) (s : State) : Host.Outcome State Fault Refusal :=
  .next (rowRun s h 0x1A ([set, first] ++ (coeffs.map (fun c => beBytes 3 c.toNat)).flatten))

/-- FIRSEL (12 R538). -/
def execFirsel (h : Hdr) (channel index set : Byte) (s : State) : Host.Outcome State Fault Refusal :=
  .next (rowRun s h 0x1B ([channel, index, set]))

/-- DCFREEZE (12 R569). -/
def execDcfreeze (h : Hdr) (mask : Mask) (freeze : Byte) (s : State) : Host.Outcome State Fault Refusal :=
  .next (rowRun s h 0x1C (maskBytes mask ++ [freeze]))

/-- SYNCNOW (12 R555). -/
def execSyncnow (h : Hdr) (s : State) : Host.Outcome State Fault Refusal := .next (rowRun s h 0x1D [])

/-- CALWRITE (12 R543). -/
def execCalwrite (h : Hdr) (channel : Byte) (gain offset : Word) (s : State) : Host.Outcome State Fault Refusal :=
  .next (rowRun s h 0x46 (channel :: (beBytes 4 gain.toNat ++ beBytes 4 offset.toNat)))

/-- BIAS_ENABLE (09 R400). -/
def execBiasEnable (h : Hdr) (cell : Byte) (s : State) : Host.Outcome State Fault Refusal :=
  .next (rowRun s h 0x20 ([cell, 1]))

/-- BIAS_DISABLE (09 R400). -/
def execBiasDisable (h : Hdr) (cell : Byte) (s : State) : Host.Outcome State Fault Refusal :=
  .next (rowRun s h 0x20 ([cell, 0]))

/-- CELL_BIAS_WRITE (09 R395). -/
def execCellBiasWrite (h : Hdr) (k : Fin 4) (value : Word) (s : State) : Host.Outcome State Fault Refusal :=
  .next (rowRun s h 0x03 (pairBytes [(BitVec.ofNat 16 (idCell k.val 0), value)]))

/-- CELL_RAMP_WRITE (09 R396). -/
def execCellRampWrite (h : Hdr) (k : Fin 4) (value : Word) (s : State) : Host.Outcome State Fault Refusal :=
  .next (rowRun s h 0x03 (pairBytes [(BitVec.ofNat 16 (idCell k.val 1), value)]))

/-- AUTORANGE_WRITE (09 R417). -/
def execAutorangeWrite (h : Hdr) (c : Fin 12) (field : Fin 3) (value : Word) (s : State) : Host.Outcome State Fault Refusal :=
  .next (rowRun s h 0x03 (pairBytes [(BitVec.ofNat 16 (if c.val < 8 then idAmp c.val (1 + field.val) else idMox (c.val - 8) (1 + field.val)), value)]))

/-- LEAD_CAPTURE (10 R460). -/
def execLeadCapture (h : Hdr) (n : Fin 4) (value : Word) (s : State) : Host.Outcome State Fault Refusal :=
  .next (rowRun s h 0x03 (pairBytes [(BitVec.ofNat 16 (idMox n.val 7), value)]))

/-- PHASE_TICKS (12 R549). -/
def execPhaseTicks (h : Hdr) (c : Fin 14) (value : Word) (s : State) : Host.Outcome State Fault Refusal :=
  .next (rowRun s h 0x03 (pairBytes [(BitVec.ofNat 16 (idFilt c.val 6), value)]))

/-- PHASE_FRAC (12 R550). -/
def execPhaseFrac (h : Hdr) (c : Fin 14) (value : Word) (s : State) : Host.Outcome State Fault Refusal :=
  .next (rowRun s h 0x03 (pairBytes [(BitVec.ofNat 16 (idFilt c.val 7), value)]))

/-- CABLE_CLK (08 R384). -/
def execCableClk (h : Hdr) (value : Word) (s : State) : Host.Outcome State Fault Refusal :=
  .next (rowRun s h 0x03 (pairBytes [(BitVec.ofNat 16 idCable, value)]))

/-- RIDGE_TERM (20 R893). -/
def execRidgeTerm (h : Hdr) (value : Word) (s : State) : Host.Outcome State Fault Refusal :=
  .next (rowRun s h 0x03 (pairBytes [(BitVec.ofNat 16 idTerm, value)]))

/-- TALLY_WINDOW_WRITE (16 R699). -/
def execTallyWindowWrite (h : Hdr) (n : Fin 24) (window : Bool) (value : Word) (s : State) : Host.Outcome State Fault Refusal :=
  .next (rowRun s h 0x03 (pairBytes [(BitVec.ofNat 16 (if window then idTallyW n.val else idTallyK n.val), value)]))

/-- ALARM_ENABLE (16 R706). -/
def execAlarmEnable (h : Hdr) (r : Fin 16) (value : Word) (s : State) : Host.Outcome State Fault Refusal :=
  .next (rowRun s h 0x03 (pairBytes [(BitVec.ofNat 16 (idAlarm 0 r.val), value)]))

/-- WAVE_SIZE (18 R794). -/
def execWaveSize (h : Hdr) (w : Fin 16) (value : Word) (s : State) : Host.Outcome State Fault Refusal :=
  .next (rowRun s h 0x03 (pairBytes [(BitVec.ofNat 16 (idWave w.val), value)]))

/-- AOUT_ENABLE (18 R772). -/
def execAoutEnable (h : Hdr) (value : Word) (s : State) : Host.Outcome State Fault Refusal :=
  .next (rowRun s h 0x03 (pairBytes [(BitVec.ofNat 16 (idAout 0), value)]))

/-- ALARMACK (16 R712). -/
def execAlarmack (h : Hdr) (mask : BitVec 16) (s : State) : Host.Outcome State Fault Refusal :=
  .next (rowRun s h 0x38 (beBytes 2 mask.toNat))

/-- TALLYREAD (16 R705). -/
def execTallyread (h : Hdr) (source : Byte) (s : State) : Host.Outcome State Fault Refusal :=
  .next (rowRun s h 0x39 ([source]))

/-- TALLYCLEAR (16 R703). -/
def execTallyclear (h : Hdr) (source : Byte) (s : State) : Host.Outcome State Fault Refusal :=
  .next (rowRun s h 0x3A ([source]))

/-- HEATRUN (11 R508). -/
def execHeatrun (h : Hdr) (heater profile : Byte) (s : State) : Host.Outcome State Fault Refusal :=
  .next (rowRun s h 0x28 ([heater, profile]))

/-- HEATSTOP (11 R511). -/
def execHeatstop (h : Hdr) (mask : Byte) (s : State) : Host.Outcome State Fault Refusal :=
  .next (rowRun s h 0x29 ([mask]))

/-- PROFLOAD (11 R505). -/
def execProfload (h : Hdr) (profile first : Byte) (steps : List (BitVec 64)) (s : State) : Host.Outcome State Fault Refusal :=
  .next (rowRun s h 0x2A ([profile, first] ++ (steps.map (fun w => beBytes 8 w.toNat)).flatten))

/-- LEADCAL (11 R495). -/
def execLeadcal (h : Hdr) (heater : Byte) (s : State) : Host.Outcome State Fault Refusal :=
  .next (rowRun s h 0x2B ([heater]))

/-- ZCHECK (13 R597). -/
def execZcheck (h : Hdr) (mask : Mask) (s : State) : Host.Outcome State Fault Refusal :=
  .next (rowRun s h 0x2C (maskBytes mask))

/-- TRIPARM (14 R637). -/
def execTriparm (h : Hdr) (mask : Byte) (armId : BitVec 16) (s : State) : Host.Outcome State Fault Refusal :=
  .next (rowRun s h 0x30 (mask :: beBytes 2 armId.toNat))

/-- TRIPDISARM (14 R638). -/
def execTripdisarm (h : Hdr) (mask : Byte) (s : State) : Host.Outcome State Fault Refusal :=
  .next (rowRun s h 0x31 ([mask]))

/-- TRIPFORCE (14 R640). -/
def execTripforce (h : Hdr) (slot : Byte) (s : State) : Host.Outcome State Fault Refusal :=
  .next (rowRun s h 0x32 ([slot]))

/-- CAPREAD (15 R679). -/
def execCapread (h : Hdr) (first : Word) (count : BitVec 16) (via : Byte) (s : State) : Host.Outcome State Fault Refusal :=
  .next (rowRun s h 0x33 (beBytes 4 first.toNat ++ beBytes 2 count.toNat ++ [via]))

/-- CAPSTAT (15 R680). -/
def execCapstat (h : Hdr) (s : State) : Host.Outcome State Fault Refusal := .next (rowRun s h 0x34 [])

/-- CAPCLEAR (15 R681). -/
def execCapclear (h : Hdr) (s : State) : Host.Outcome State Fault Refusal := .next (rowRun s h 0x35 [])

/-- AOUTSET (18 R779). -/
def execAoutset (h : Hdr) (code : BitVec 16) (s : State) : Host.Outcome State Fault Refusal :=
  .next (rowRun s h 0x3C (beBytes 2 code.toNat))

/-- AOUTRANGE (18 R777). -/
def execAoutrange (h : Hdr) (range : Byte) (s : State) : Host.Outcome State Fault Refusal :=
  .next (rowRun s h 0x3D ([range]))

/-- WAVELOAD (18 R795). -/
def execWaveload (h : Hdr) (wave : Byte) (first : BitVec 16) (points : List (BitVec 16)) (s : State) : Host.Outcome State Fault Refusal :=
  .next (rowRun s h 0x23 (wave :: (beBytes 2 first.toNat ++ (points.map (fun p => beBytes 2 p.toNat)).flatten)))

/-- WAVEPLAY (18 R797). -/
def execWaveplay (h : Hdr) (wave target : Byte) (period repeats : BitVec 16) (s : State) : Host.Outcome State Fault Refusal :=
  .next (rowRun s h 0x21 ([wave, target] ++ beBytes 2 period.toNat ++ beBytes 2 repeats.toNat))

/-- WAVESTOP (18 R801). -/
def execWavestop (h : Hdr) (target : Byte) (s : State) : Host.Outcome State Fault Refusal :=
  .next (rowRun s h 0x22 ([target]))

/-- TWIN_JOIN (19 R828). -/
def execTwinjoin (h : Hdr) (mode partner : Byte) (s : State) : Host.Outcome State Fault Refusal :=
  .next (rowRun s h 0x40 ([mode, partner]))

/-- TWINSPLIT (19 R863). -/
def execTwinsplit (h : Hdr) (s : State) : Host.Outcome State Fault Refusal := .next (rowRun s h 0x41 [])

/-- TWINSTAT (19 R867). -/
def execTwinstat (h : Hdr) (s : State) : Host.Outcome State Fault Refusal := .next (rowRun s h 0x42 [])

/-- NVSAVE (20 R887). -/
def execNvsave (h : Hdr) (mask : Byte) (s : State) : Host.Outcome State Fault Refusal :=
  .next (rowRun s h 0x44 ([mask]))

/-- NVLOAD (20 R888). -/
def execNvload (h : Hdr) (mask : Byte) (s : State) : Host.Outcome State Fault Refusal :=
  .next (rowRun s h 0x45 ([mask]))

/-- TASKQ (17 R756). -/
def execTaskq (h : Hdr) (task : Byte) (s : State) : Host.Outcome State Fault Refusal :=
  .next (rowRun s h 0x48 ([task]))

/-- RATIONQ (17 R757). -/
def execRationq (h : Hdr) (s : State) : Host.Outcome State Fault Refusal := .next (rowRun s h 0x4A [])

/-- FIELDREAD (20 R899). -/
def execFieldread (h : Hdr) (address : Byte) (s : State) : Host.Outcome State Fault Refusal :=
  .next (rowRun s h 0x7F ([1, address]))

/-- PINS (20 R898). -/
def execPins (h : Hdr) (s : State) : Host.Outcome State Fault Refusal :=
  .next (rowRun s h 0x7F [2])

end Sys2Proof.Machine
end

