-- ==== Sys2Proof/Machine/Decide.lean ====
section
/-! DEFINITION. The decision of each superframe: the packets whose first decision it is, the unit's own decision, and a Span pair's
pooled one (17 R744–R751, 19 R844–R847); periodic checks falling due (13 R598). -/

namespace Sys2Proof.Machine

/-! ### Packets taken and not yet decided (17 R750) -/

/-- The loop of what a task drives, computed for its first request. -/
def firstLoop (s : State) (t : TaskRec) : State :=
  match t.obj with
  | .profile n => heaterLoop s n
  | _ => s

/-- After packet `i` has run on trial: its request, or none where it asks for nothing yet; nothing where it is not a decided long
opcode that has passed its checks. `n` is the number its task took. -/
def trialReq (s : State) (n i : Nat) (p : Packet) (a : Option Answer) : List (Nat × Option Req) :=
  if !isDecided p.opc.toNat p.payload || a.map (fun a => a.status.toNat) != some stAccepted then []
  else
    match taskOf s n with
    | none => []
    | some t => [(i, (taskReq (firstLoop s t) t).map (fun r => { r with slot := some i }))]

/-- One packet taken from a window, on trial. -/
def trialTaken (x : State × List (Nat × Option Req)) (it : Nat × Taken) : State × List (Nat × Option Req) :=
  let s := x.1
  let n := nextTaskNum s
  match packetFate s it.2.pkt, it.2.fwd.bind (fwdOf s) with
  | .run, some f =>
    match f.own with
    | some p =>
      let r := ownRun s p none
      (r.1, x.2 ++ (if f.commit = some false then [] else trialReq r.1 n it.1 p r.2))
    | none => x
  | .run, none =>
    let r := ownRun s it.2.pkt none
    (r.1, x.2 ++ trialReq r.1 n it.1 it.2.pkt r.2)
  | _, _ => x

/-- One part a tail has been sent, on trial. -/
def trialFar (x : State × List (Nat × Option Req)) (it : Nat × FwdIn) : State × List (Nat × Option Req) :=
  if !it.2.ok then x
  else
    let n := nextTaskNum x.1
    let r := farRun x.1 it.2.pkt none
    (r.1, x.2 ++ trialReq r.1 n it.1 it.2.pkt r.2)

/-- Items with their places. -/
def withIdx {α : Type} (l : List α) : List (Nat × α) := l.mapIdx (fun i a => (i, a))

/-- The first requests of packets not yet executed. -/
def trialReqs (s : State) : List (Nat × Option Req) :=
  if isTail s then ((withIdx s.twin.fwdIn).foldl trialFar (s, [])).2 else ((withIdx s.cmd.taken).foldl trialTaken (s, [])).2

/-- A packet that asks for nothing yet is ACCEPTED (17 R750). -/
def trialIdle (s : State) (l : List (Nat × Option Req)) : State :=
  l.foldl (fun (s : State) x => if x.2.isNone then packetVerdict s x.1 { status := vGrant, reason := 0, energy := 0, asked := false } else s) s

/-! ### The unit's own decision (17 R744) -/

/-- The loops run for the packets on trial see the state before the decision. -/
def decideAlone (s : State) : State :=
  let tr := trialReqs s
  trialIdle (decideRun s (tr.filterMap Prod.snd) [] (capsOf s)).1 tr

/-- A decision is still to be made in this superframe. -/
def decideDue (s : State) (p : Nat) : Bool := alive s && s.t.p == p && s.sched.doneSf != some s.t.sf

/-- SCHEDULER_DECISION: at p = 496, but for the members of a Span pair. -/
def execSchedulerDecision (s : State) : Host.Outcome State Fault Refusal :=
  .next (if decideDue s 496 && s.twin.mode != 1 && s.twin.mode != 3 then decideAlone s else s)

/-! ### The pooled decision of a Span pair (19 R844–R846) -/

/-- A class as a REQ carries it. -/
def clsOf (b : Byte) : TaskClass :=
  match b.toNat with
  | 1 => .heat | 2 => .check | 3 => .chore | _ => .keep

/-- A request of the tail. Heat work draws VHTR, and any other with a current (17 R739). -/
def farReq (s : State) (i : Nat) (t : TailReq) : Req :=
  { asker := .tail, slot := none, task := t.task.toNat, cls := clsOf t.cls, energy := t.energy.toNat,
    amps := (t.current.toNat : Rat) / 1000, vhtr := t.current != 0 || t.cls == 1, allow := t.allowance.toNat, born := s.t.sf - t.age.toNat,
    place := i, within := t.allowance != 0, word := 0 }

/-- The caps a REQ reports. -/
def farCapsOf (c : TailCaps) : Caps :=
  { thermal := if c.thermal = 0xFFFF then none else some c.thermal.toNat, amps := (c.current.toNat : Rat) / 1000,
    noVhtr := c.flags.getLsbD 0, sag := c.flags.getLsbD 1 }

/-- A verdict as a GRANT carries it. -/
def outcomeByte (v : Verdict) : Byte :=
  byteOf ((if v.status = vGrant then 0 else if v.status = vDefer then 1 else 2) + 4 * (v.reason % 32))

/-- The GRANT of a decision. -/
def grantBytes (out : List (Req × Verdict)) : List Byte :=
  ((out.filter (fun x => x.1.asker == .tail)).map (fun x => [byteOf x.1.task, outcomeByte x.2])).flatten

/-- The lead decides for both units. -/
def decidePair (s : State) : State :=
  let tr := trialReqs s
  let far : List Req := match s.twin.req with
    | some (_, rs) => rs.mapIdx (fun i t => farReq s i t)
    | none => []
  let caps : Caps := match s.twin.req with
    | some (c, _) => farCapsOf c
    | none => capsOf s
  let r := decideRun s (tr.filterMap Prod.snd) far caps
  let s1 := { trialIdle r.1 tr with twin.req := none }
  if far.isEmpty then s1 else twinSend s1 0x08 (grantBytes r.2)

/-- PAIR_DECISION: at p = 480, at a Span lead. -/
def execPairDecision (s : State) : Host.Outcome State Fault Refusal :=
  .next (if decideDue s 480 && s.twin.mode == 1 then decidePair s else s)

/-- TWIN_REQ. -/
def execTwinReq (caps : TailCaps) (reqs : List TailReq) (s : State) : Host.Outcome State Fault Refusal :=
  .next (if s.twin.mode = 1 then { s with twin.req := some (caps, reqs) } else s)

/-! ### The tail's requests (19 R844, R846, R847) -/

/-- The caps of this unit as a REQ carries them. -/
def tailCaps (s : State) : TailCaps :=
  let c := capsOf s
  { thermal := BitVec.ofNat 16 (match c.thermal with
      | some t => min t 0xFFFE
      | none => 0xFFFF),
    current := BitVec.ofNat 16 (min 65535 (c.amps * 1000).floor.toNat),
    flags := byteOf (packFlags [c.noVhtr, c.sag, capHard s]) }

/-- Class code, energy, current rounded up, allowance and age of a request. An age limit is carried as an allowance of 255 within
it and 0 beyond it (log 42). -/
def tailReq (s : State) (r : Req) : TailReq :=
  { task := byteOf r.task, cls := byteOf (clsCode r.cls), energy := BitVec.ofNat 16 (min r.energy 65535),
    current := BitVec.ofNat 16 (min 65535 (r.amps * 1000).ceil.toNat),
    allowance := byteOf (if r.within then (if r.cls = .heat then min 255 (max 1 r.allow) else 255) else 0),
    age := natW (s.t.sf - r.born) }

def tailReqBytes (t : TailReq) : List Byte :=
  [t.task, t.cls] ++ beBytes 2 t.energy.toNat ++ beBytes 2 t.current.toNat ++ [t.allowance] ++ beBytes 4 t.age.toNat

def tailCapsBytes (c : TailCaps) : List Byte := beBytes 2 c.thermal.toNat ++ beBytes 2 c.current.toNat ++ [c.flags]

/-- What RATIONQ reports at a tail: the energy asked, and no income. -/
def tailRecord (s : State) (rs : List Req) : Decision :=
  let sum (c : TaskClass) : Nat := ((rs.filter (fun r => r.cls == c)).map Req.energy).foldl (· + ·) 0
  { rin := 0, flags := 0, share := pNat s (idSched 0), income := 0, net := 0, heat := sum .heat, check := sum .check,
    chore := sum .chore, ihtr := 0, defers := 0, refuses := 0, missing := missingNow s }

/-- Every request of the tail: those of its tasks and of the parts it has been sent. -/
def tailAll (s : State) (tr : List (Nat × Option Req)) : List Req := taskReqs s s.sched.tasks ++ tr.filterMap Prod.snd

/-- At p = 400 the tail forms its requests and sends them; what its own state does not allow it refuses and counts at once (17 R747, R758). -/
def tailAsk (s0 : State) : State :=
  let s := loopsRun (owedCreate s0)
  let tr := trialReqs s
  let all := tailAll s tr
  let ok := all.filter (fun r => clsAllowed s.u.st r.cls)
  let no := all.filter (fun r => !clsAllowed s.u.st r.cls)
  let ts := ok.map (tailReq s)
  let s1 := { s with sched := { s.sched with last := some (tailRecord s ok), doneSf := some s.t.sf, refusals := s.sched.refusals + no.length },
                     ring.missingRun := missingNow s, twin.req := some (tailCaps s, ts) }
  let s2 := trialIdle (twinSend (askedNone s1 all) 0x07 (tailCapsBytes (tailCaps s) ++ (ts.map tailReqBytes).flatten)) tr
  applyVerdicts s2 (no.map (fun r => (r, { status := vRefuse, reason := 6, energy := r.energy })))

/-- The tail's REQ is due. -/
def tailAskDue (s : State) : Bool := decideDue s 400 && s.twin.mode == 3

/-- One outcome of a GRANT reaches its request; a deferral counts, and a refusal. -/
def grantOne (s : State) (g : Byte × Byte) : State :=
  match s.twin.req with
  | none => s
  | some (c, ts) =>
    match (tailAll s (trialReqs s)).find? (fun r => byteOf r.task == g.1), ts.any (fun t => t.task == g.1) with
    | some r, true =>
      let k := g.2.toNat % 4
      let v : Verdict := { status := if k = 0 then vGrant else if k = 1 then vDefer else vRefuse, reason := g.2.toNat / 4 % 32,
                           energy := r.energy, far := true }
      let s1 := { s with twin.req := some (c, ts.filter (fun t => t.task != g.1)),
                         sched := { s.sched with deferrals := s.sched.deferrals + b2n (v.status == vDefer),
                                                 refusals := s.sched.refusals + b2n (v.status == vRefuse) } }
      applyVerdicts s1 [(r, v)]
    | _, _ => s

/-- The outcomes of a GRANT: checks first, so that a bridge's word carries its tone or not. -/
def grantTake (s : State) (gs : List (Byte × Byte)) : State :=
  let chk (g : Byte × Byte) : Bool := (taskOf s g.1.toNat).any (fun t => t.cls == .check)
  (gs.filter chk ++ gs.filter (fun g => !chk g)).foldl grantOne s

/-- TWIN_GRANT. -/
def execTwinGrant (outcomes : List (Byte × Byte)) (s : State) : Host.Outcome State Fault Refusal :=
  .next (if s.twin.mode = 3 then grantTake s outcomes else s)

/-- TAIL_GRANT_TIMEOUT: at p = 506, requests with no GRANT are deferred with reason BUDGET. -/
def execTailGrantTimeout (s : State) : Host.Outcome State Fault Refusal :=
  .next (
    if s.twin.mode ≠ 3 ∨ s.t.p ≠ 506 then s
    else
      match s.twin.req with
      | some (_, ts) => { grantTake s (ts.map (fun t => (t.task, byteOf (1 + 4 * 1)))) with twin.req := none }
      | none => s)

/-! ### Periodic checks (13 R598) -/

/-- PERIODIC_CHECK_DUE: at p = 0 the channels due form one task of client 0; with no place for it, it waits for the next decision (17
R743). -/
def execPeriodicCheckDue (s : State) : Host.Outcome State Fault Refusal :=
  .next (if s.t.p ≠ 0 ∨ periodicOwed s ∨ !alive s then s else periodicCreate s)

end Sys2Proof.Machine
end

