-- ==== Sys2Proof/Machine/Slot.lean ====
section
/-! DEFINITION. The command window as it passes, the response slot and what goes into it, and the count of lost events (04 R203–R212,
06 R265–R280, R288–R291, 15 R684, R685, 19 R833, R843). -/

namespace Sys2Proof.Machine

/-! ### The command window (06 R266–R269) -/

/-- A corrupt packet ends the window (06 R267). -/
def windowBad (s : State) : State := tallyEvent { s with ring.cmdBad := s.ring.cmdBad + 1 } 3

/-- The packet that begins with these bytes, with the bytes after it; none where it is corrupt. -/
def packetAt (w : List Byte) : Option (Packet × List Byte) :=
  let len := plByte w 4
  let body := w.take (5 + len)
  let p : Packet := { bcast := w.headD 0 == 0xFF, src := w.getD 1 0, seq := w.getD 2 0, opc := w.getD 3 0,
                      payload := (w.drop 5).take len }
  if w.length < 7 ∨ 240 < len ∨ w.length < 7 + len ∨ crc16 body ≠ plField w (5 + len) 2 then none
  else some (p, w.drop (7 + len))

/-- Parse the rest of a window; `fuel` is at least the number of its bytes. -/
def windowParse : Nat → State → List Byte → State
  | 0, s, _ => s
  | _, s, [] => s
  | fuel + 1, s, d :: w =>
    if d = 0 then windowParse fuel s w
    else if 0x3D ≤ d.toNat ∧ d.toNat ≤ 0xFE then s
    else
      match packetAt (d :: w) with
      | none => windowBad s
      | some (p, rest) =>
        windowParse fuel (if d.toNat = s.ring.peg ∨ d = 0xFF then packetTake s p else s) rest

/-- The window as it leaves: unchanged but for the frame at the head of the lane granted to this unit (04 R212, R213, R215). -/
def windowOut (s : State) (w : List Byte) : List Byte :=
  match s.out.lane with
  | some (len, f) => w.take (512 - len) ++ f ++ w.drop (512 - len + f.length)
  | none => w

/-- COMMAND_WINDOW: its 512 bytes are relayed, but for a unit that sends beacons (04 R221); the packets taken are executed at the next
p = 0. -/
def execCommandWindow (window : List Byte) (s : State) : Host.Outcome State Fault Refusal :=
  let w := window.take 512 ++ List.replicate (512 - window.length) 0
  .next (
    if !relays s then s
    else
      let s1 := if s.ring.beaconing then s else { s with out.window := windowOut s w }
      if ringPart s then windowParse 513 s1 w else s1)

/-- EVENT_LOST: once there is room again, one event tells how many were dropped (06 R290); above 65 535 it tells 65 535 (DESIGN CHOICE,
log 100). -/
def execEventLost (s : State) : Host.Outcome State Fault Refusal :=
  .next (if s.cmd.lost != 0 && decide (s.cmd.events.length < 16) then
    queueEvent { s with cmd.lost := 0 } 0x07 (beBytes 2 (min s.cmd.lost 65535)) else s)

/-! ### Payloads (06 R275–R280, R288, 15 R684) -/

/-- A payload with its slot flags CONT, STREAM and TWIN2, and the state once it is written. -/
structure Payload where
  flags : Nat
  body  : List Byte
  after : State
  deriving DecidableEq, Repr

def flCont : Nat := 0x20
def flStream : Nat := 0x10
def flTwin : Nat := 0x08

/-- Eighteen bytes. -/
def pad18 (l : List Byte) : List Byte := l.take 18 ++ List.replicate (18 - l.length) 0

/-- A first fragment. -/
def fragFirst (r : Reply) : List Byte :=
  pad18 ([0x01, r.src, r.seq, r.ans.status, byteOf r.ans.data.length] ++ r.ans.data.take 13)

/-- Continuation fragment `f`. -/
def fragNext (r : Reply) (f : Nat) : List Byte :=
  pad18 ([0x02, r.src, r.seq, byteOf f] ++ (r.ans.data.drop (13 + 14 * (f - 1))).take 14)

/-- Fragments of a reply in all. -/
def fragCount (r : Reply) : Nat := 1 + (r.ans.data.length - 13 + 13) / 14

/-- Take the first element that meets a condition out of a list. -/
def pickOut {α : Type} (p : α → Bool) : List α → Option (α × List α)
  | [] => none
  | a :: as =>
    if p a then some (a, as) else (pickOut p as).map (fun x => (x.1, a :: x.2))

/-- The oldest queued reply that is ready (19 R837: one that waits for the tail is not). -/
def payReply (s : State) : Option Payload :=
  match pickOut (fun r : Reply => r.wait.isNone) s.cmd.replies with
  | none => none
  | some (r, rest) =>
    let more := decide (1 < fragCount r)
    let c := { s.cmd with replies := rest, frags := if more then s.cmd.frags ++ [{ r with sent := 1 }] else s.cmd.frags }
    some { flags := if more then flCont else 0, body := fragFirst r, after := { s with cmd := c } }

/-- The next fragment of the oldest reply with some outstanding. -/
def payFrag (s : State) : Option Payload :=
  match s.cmd.frags with
  | [] => none
  | r :: rest =>
    let more := decide (r.sent + 1 < fragCount r)
    let fr := if more then { r with sent := r.sent + 1 } :: rest else rest
    some { flags := if more then flCont else 0, body := fragNext r r.sent, after := { s with cmd.frags := fr } }

/-- The oldest queued event. -/
def payEvent (s : State) : Option Payload :=
  match s.cmd.events with
  | [] => none
  | e :: rest =>
    some { flags := 0, body := pad18 ([0x03, e.eseq, e.code] ++ beBytes 4 e.tick.toNat ++ e.data),
           after := { s with cmd.events := rest } }

/-- The count at the present superframe's p = 0. -/
def sfCount (s : State) : BitVec 48 := s.t.count - BitVec.ofNat 48 s.t.p

/-- AGE of a stream entry. -/
def streamAge (s : State) (e : StreamEnt) : Nat := (sfCount s - (tagOf s e.tag).1).toNat

/-- The 12 bits of AGE: an overflow entry may have to show more than they hold, which the spec does not state (15 R685; log 89). -/
def ageField (n : Nat) : Nat := if n ≤ 4095 then n else (Config.overAge n).toNat

/-- Entries of samples formed in an earlier superframe (01 R76). -/
def streamReady (s : State) (e : StreamEnt) : Bool := decide (e.sf < s.t.sf)

/-- The six bytes of an entry; SRC is 1 from a Span tail (15 R684, 19 R842), and 0 in an overflow entry (15 R685). -/
def streamBytes (s : State) (e : StreamEnt) : List Byte :=
  beBytes 6 (e.ch * 2 ^ 43 + e.qual * 2 ^ 40 + (if e.ch < 12 then e.range else 0) * 2 ^ 37 + b2n (s.twin.mode == 3 && e.ch != 31) * 2 ^ 36 +
    ageField (streamAge s e) * 2 ^ 24 + (e.value % 2 ^ 24).toNat)

/-- Up to `n` entries, oldest first. One whose AGE would exceed 4 095 overflows the stream, and the overflow entry follows. -/
def streamTake : Nat → State → List Byte × State
  | 0, s => ([], s)
  | n + 1, s =>
    match s.stream.queue with
    | [] => ([], s)
    | e :: rest =>
      if !streamReady s e then ([], s)
      else if e.ch ≠ 31 ∧ 4095 < streamAge s e then
        let s1 := streamOverflow s e.tag e.sf
        (match s1.stream.queue with
         | [] => []
         | o :: _ => streamBytes s o, { s1 with stream.queue := [] })
      else
        let x := streamTake n { s with stream.queue := rest }
        (streamBytes s e ++ x.1, x.2)

/-- Stream content. -/
def payStream (s : State) : Option Payload :=
  if !(s.stream.queue.head?.map (streamReady s)).getD false then none
  else
    let x := streamTake 3 s
    let twin := if s.twin.mode = 3 then flTwin else 0
    some { flags := flStream + twin, body := x.1 ++ List.replicate (18 - x.1.length) 0xFF, after := x.2 }

/-- The status-only payload (04 R208). -/
def payStatus (s : State) : Payload := { flags := 0, body := List.replicate 18 0, after := s }

/-- The choice of R275; what the lead has handed over stands, at a tail, before its own streams (19 R833). -/
def payChoose (s : State) : Payload :=
  (payReply s).getD ((payFrag s).getD ((payEvent s).getD ((payStream s).getD (payStatus s))))

/-! ### The slot (04 R203–R210) -/

/-- STATE of a slot. -/
def slotState (s : State) : Byte :=
  byteOf (stCode s.u.st + 8 * packFlags [isOrphan s, s.u.armed, s.t.unaligned, isLead s, isTail s])

/-- A slot's 24 bytes from its first four and its payload. -/
def slotBytes (head : List Byte) (body : List Byte) : List Byte :=
  let b := head ++ body
  b ++ beBytes 2 (crc16 b)

/-- FILLED and HDRBAD with the payload's own flags. -/
def slotFlags (s : State) (flags : Nat) : Byte := byteOf (0x80 + flags + if s.ring.hdr = .poisoned then 4 else 0)

/-- The slot a unit writes for itself; under TWIN2 a stream of a Span tail carries the lead's peg. -/
def slotOwn (s : State) : List Byte × State :=
  let p := payChoose s
  let peg := if p.flags % 16 / 8 = 1 then s.twin.partner else s.ring.peg
  (slotBytes [slotFlags s p.flags, byteOf peg, slotState s, s.ring.alarmsum] p.body, p.after)

/-- The slot's content: at a tail that has nothing due of its own but streams, what the lead handed over (19 R833). -/
def slotContent (s : State) : List Byte × State :=
  let own := s.cmd.replies.any (fun r => r.wait.isNone) || !s.cmd.frags.isEmpty || !s.cmd.events.isEmpty
  match s.twin.handed with
  | (f, st, al, body) :: rest =>
    if own || !isTail s then slotOwn s
    else
      let flags := f.toNat % 64 / 16 * 16 + flTwin
      (slotBytes [slotFlags s flags, byteOf s.twin.partner, st, al] (beBytes 18 body.toNat), { s with twin.handed := rest })
  | [] => slotOwn s

/-- A slot found filled: CLASH, the syndrome carried on, and the content is lost (04 R210, 06 R276). -/
def slotClash (s : State) (a : List Byte) : State :=
  let head := a.take 22
  let syn := plField a 22 2 ^^^ crc16 head
  let out := byteOf ((a.headD 0).toNat ||| 0x40) :: head.drop 1
  let s1 := (slotContent s).2
  tallyEvent { s1 with out.slot := out ++ beBytes 2 (crc16 out ^^^ syn), ring.clashes := s1.ring.clashes + 1 } 4

/-- Write the slot over the 24 bytes that arrived in it. -/
def slotWrite (s : State) (a : List Byte) : State :=
  if bit (a.headD 0).toNat 7 then slotClash s a
  else
    let x := slotContent s
    { x.2 with out.slot := x.1 }

/-- Byte of the region of slots and guard at which a peg's slot begins (04 R177, R178). -/
def slotAt (peg : Nat) : Nat := 24 * (peg - 1)

/-- The unit's slot is passing (04 R178). -/
def slotDue (s : State) : Bool :=
  let t := 144 + 6 * (s.ring.peg - 1)
  ringPart s && decide (t ≤ s.t.p) && decide (s.t.p < t + 6)

/-- SLOT_WRITE: the 60 slots and the guard of a superframe, 1 472 bytes as they arrive, taken as one event while the unit's own slot passes;
they are relayed unchanged but for the slot a pitched unit writes as its own (04 R207–R210, R216), and not by a unit that sends beacons. -/
def execSlotWrite (region : List Byte) (s : State) : Host.Outcome State Fault Refusal :=
  let r := region.take 1472 ++ List.replicate (1472 - region.length) 0
  .next (
    if !relays s then s
    else if s.ring.beaconing then s
    else if !slotDue s then { s with out.region := r }
    else
      let n := slotAt s.ring.peg
      let s1 := slotWrite s ((r.drop n).take 24)
      { s1 with out.region := r.take n ++ s1.out.slot ++ r.drop (n + 24) })

/-- At p = 0 a lead hands its tail the event that its own slot will not carry: the oldest one where a reply goes first, else the
second (19 R833, log 60). -/
def slotHand (s : State) : State :=
  if !isLead s || !ringPart { s with ring.hdr := .good } then s
  else
    let busy := s.cmd.replies.any (fun r => r.wait.isNone) || !s.cmd.frags.isEmpty
    let send (e : Event) (rest : List Event) : State :=
      let p := { s with cmd.events := [e] }
      let body := ((payEvent p).map Payload.body).getD []
      twinSend { s with cmd.events := rest } 0x0B ([byteOf (0x80 + flTwin), slotState s, s.ring.alarmsum] ++ body)
    match s.cmd.events with
    | e :: e2 :: rest => if busy then send e (e2 :: rest) else send e2 (e :: rest)
    | [e] => if busy then send e [] else s
    | [] => s

end Sys2Proof.Machine
end

