-- ==== Sys2Proof/Machine/Twin.lean ====
section
/-! DEFINITION. The pole link word by word and message by message, joining and committing a pair, tail-evaluated rules, and partner
triggers (19 R818–R831, R848–R856, R864). -/

namespace Sys2Proof.Machine

/-! ### HELLO and the join conditions (19 R824, R826) -/

/-- The store digest: CRC-32 over the CRCs of the 16 profiles, user sets and waveforms. -/
def storeDigest (s : State) : Word :=
  let ws := (List.range 16).map (profCrc s) ++ (List.range 16).map (usetCrc s) ++ (List.range 16).map (waveCrc s)
  natW (crc32 (ws.map (fun w => beBytes 4 w.toNat)).flatten)

/-- The HELLO this unit sends. -/
def helloOf (s : State) (j : Join) : Hello :=
  { serial := s.fac.serial, romRev := s.fac.romRev, frev := s.seam.frev, hop := byteOf s.ring.hop, peg := byteOf s.ring.peg,
    state := byteOf (stCode s.u.st), mode := byteOf j.mode, partner := byteOf j.peg, phase := byteOf (phaseCode s.capt.phase),
    paired := byteOf (b2n (s.twin.mode != 0)), digest := storeDigest s }

def helloBytes (m : Hello) : List Byte :=
  beBytes 8 m.serial.toNat ++ beBytes 2 m.romRev.toNat ++
    [m.frev, m.hop, m.peg, m.state, m.mode, m.partner, m.phase, m.paired] ++ beBytes 4 m.digest.toNat

/-- The first join condition that fails, by its code. -/
def joinFail (s : State) (j : Join) (m : Hello) : Option Nat :=
  let o := helloOf s j
  let lead := if j.lead then o.hop else m.hop
  let tail := if j.lead then m.hop else o.hop
  if m.romRev ≠ o.romRev ∨ m.frev ≠ o.frev then some 2
  else if m.phase.toNat = 1 ∨ m.phase.toNat = 2 then some 3
  else if m.state ≠ o.state ∨ o.state.toNat = 4 ∨ (j.mode = 2 ∧ o.state.toNat ≠ 1) then some 4
  else if m.mode ≠ o.mode ∨ m.partner ≠ o.peg then some 5
  else if tail.toNat ≠ lead.toNat + 1 then some 6
  else if m.paired ≠ 0 then some 7
  else if j.mode = 2 ∧ m.digest ≠ o.digest then some 9
  else none

/-- A good HELLO from the partner: a candidate tail answers it, and the conditions are checked. -/
def helloTake (s : State) (m : Hello) : State :=
  match s.twin.join with
  | none => s
  | some j =>
    let answer := if j.lead then [] else [twinMsg 0x01 (helloBytes (helloOf s j))]
    let s1 := { s with twin := { s.twin with join := some { j with hello := some m }, partnerSt := m.state, serial := m.serial } }
    match joinFail s j m with
    | some code => if j.lead then joinEnd s1 code else joinEndSend s1 code answer
    | none => { s1 with twin.msgs := s1.twin.msgs ++ answer }

/-- TWIN_HELLO. -/
def execTwinHello (m : Hello) (s : State) : Host.Outcome State Fault Refusal := .next (helloTake s m)

/-! ### CONF (19 R827, R848, R851) -/

/-- A lead's value reaches a tail: a field of a rule it runs for the lead, or a shared CAPT value. -/
def confOne (s : State) (id : Nat) (w : Word) : State :=
  let i := id % 256
  if id / 256 = 0x31 ∧ captShared i then { s with twin.leadCapt := aset s.twin.leadCapt id w }
  else if id / 256 = 0x34 ∧ s.twin.mode = 3 then
    let was := param { s with cfg := s.twin.farCfg } id
    let s1 := { s with twin.farCfg := cfgSet s.twin.farCfg id w }
    if i < 16 ∧ w ≠ was then
      (if w = 0 then ruleOff s1 i orgTwin
       else modRule s1 i (fun a => { a with win := [], counted := none, vrun := 0, skipped := false }))
    else s1
  else s

/-- CONF: the copy of a Mirror join at the candidate tail, or the lead's values at a tail. -/
def confTake (s : State) (ps : List (Nat × Word)) : State :=
  match s.twin.join with
  | some j => if j.mode = 2 ∧ !j.lead then ps.foldl (fun s p => writeParam s p.1 orgTwin p.2) s else s
  | none => if isTail s then ps.foldl (fun s p => confOne s p.1 p.2) s else s

/-- TWIN_CONF. -/
def execTwinConf (pairs : List (Pid × Word)) (s : State) : Host.Outcome State Fault Refusal :=
  .next (confTake s (pairs.map (fun p => (p.1.toNat, p.2))))

/-- Every parameter of pages 0x08–0x39 with a role, in CONF messages of 40 pairs (19 R827). -/
def copyIds : List Nat := (List.range 0x3200).filterMap (fun i =>
  match descOf (0x0800 + i) with
  | some d => if d.role.isSome then some (0x0800 + i) else none
  | none => none)

/-- Lists of at most `n` elements. -/
def chunks {α : Type} (n : Nat) : Nat → List α → List (List α)
  | 0, _ => []
  | fuel + 1, l => if l.isEmpty then [] else l.take n :: chunks n fuel (l.drop n)

def copySend (s : State) : State :=
  let ps := copyIds.map (fun id => (id, readParam s id))
  (chunks 40 400 ps).foldl (fun (s : State) c => twinSend s 0x0C (confBytes c)) s

/-! ### JOIN and commit (19 R828–R830) -/

/-- The SFN of the present superframe as far as headers told it, with `n` more. -/
def sfnIn (s : State) (n : Nat) : Word := s.ring.lastSfn + BitVec.ofNat 32 (s.t.sf - s.ring.sfnSf + n)

/-- At the lead's p = 0: HELLO, then the copy of a Mirror join, then JOIN two superframes before the commit. -/
def joinLead (s : State) (j : Join) : State :=
  let s1 := { s with twin.msgs := twinMsg 0x01 (helloBytes (helloOf s j)) :: s.twin.msgs }
  if j.hello.isNone ∨ j.commit.isSome then s1
  else if j.mode = 2 ∧ !j.copied then
    let s2 := copySend s1
    { s2 with twin.join := some { j with copied := true } }
  else if !s.twin.msgs.isEmpty then s1
  else
    let s2 := twinSend s1 0x0D (beBytes 2 ((sfnIn s 2).toNat % 65536) ++ [byteOf j.mode])
    { s2 with twin.join := some { j with commit := some (s.t.sf + 2) } }

def joinTick (s : State) : State :=
  match s.twin.join with
  | some j => if j.lead then joinLead s j else s
  | none => s

/-- JOIN received by a candidate tail: the commit is noted and acknowledged with handle 0. -/
def joinTake (s : State) (commitSfn : BitVec 16) (mode : Nat) : State :=
  match s.twin.join with
  | none => s
  | some j =>
    if j.lead ∨ mode ≠ j.mode then s
    else
      let n := (commitSfn - (sfnIn s 0).setWidth 16).toNat
      twinSend { s with twin.join := some { j with commit := some (s.t.sf + n) } } 0x05 [0]

/-- TWIN_JOIN. -/
def execTwinJoin (commitSfn : BitVec 16) (mode : Byte) (s : State) : Host.Outcome State Fault Refusal :=
  .next (joinTake s commitSfn mode.toNat)

/-- The rules of a unit that enters a pair: a Span tail's and a Mirror tail's are CLEAR, a Mirror lead's become the pair's. -/
def joinRules (s : State) (mode : Nat) : State :=
  if mode = 1 then s
  else if mode = 2 then
    let s1 := { s with twin.pairSt := Vector.ofFn (fun r => (ruleOf s r.val).st) }
    forEach s1 (List.range 16) (fun s r => modRule s r (fun a => { a with st := .clear }))
  else
    forEach s (List.range 16) (fun s r =>
      let s1 := if (ruleOf s r).st = .clear then s else alarmTo s r .clear orgUnit nanW
      modRule s1 r (fun a => { a with win := [], counted := none, vrun := 0 }))

/-- What a Span tail gives up at commit (19 R830). -/
def joinSpanTail (s : State) : State :=
  let s1 := aoutOff s orgTwin true
  { tripDisarm s1 0xFF orgTwin with sched.bank := 0 }

/-- The pair is made (19 R829): its entry, the task's end, and at a Span lead the CAPT values its tail takes over (19 R848). -/
def joinCommit (s : State) (j : Join) : State :=
  let mode := if j.lead then j.mode else j.mode + 2
  let s1 := joinRules s mode
  let s2 := if mode = 3 then joinSpanTail s1 else s1
  let s3 := logE s2 (orgPkt j.client) 0x0080 j.peg 0 (natW mode)
  let s4 := { s3 with twin := { s3.twin with mode := mode, partner := j.peg, join := none, joinResult := 0, exchanges := 0,
                                             votes := 0, voted := 0, farCfg := [], fwd := [], fwdIn := [], leadCapt := [] } }
  let s5 := taskEnd s4 j.task 0 0 [0, byteOf j.peg]
  if mode = 1 then twinSend s5 0x0C (confBytes ([2, 3, 4, 5].map (fun f => (idCapt f, param s (idCapt f))))) else s5

/-- PAIR_COMMIT: at p = 0 of the commit superframe; a lead without the ACK sends SPLIT and ends with LINK. -/
def execPairCommit (s : State) : Host.Outcome State Fault Refusal :=
  .next (
    match s.twin.join with
    | none => s
    | some j =>
      if s.t.p = 0 ∧ j.commit.any (fun c => decide (c ≤ s.t.sf)) then
        (if j.lead ∧ !j.acked then joinEndSend s 8 [twinMsg 0x0E [1]] else joinCommit s j)
      else s)

/-- JOIN_TIMEOUT. -/
def execJoinTimeout (s : State) : Host.Outcome State Fault Refusal :=
  .next (
    match s.twin.join with
    | some j => if j.since + pNat s (idTwin 0x10) ≤ s.t.sf then joinEnd s 1 else s
    | none => s)

/-! ### Tail-evaluated rules at a Span lead (19 R851, R852) -/

/-- The entry and event of a transition, with the tick and value that told of it. -/
def farRuleNote (s : State) (r : Nat) (was next : AlarmSt) (up : Nat) (value : Word) : State :=
  let tg := tagOf s up
  let s1 := logTag s tg orgUnit 0x0070 r (natW (alarmCode was)) (natW (alarmCode next))
  let s2 := alarmEvent { s1 with t.count := tg.1 } r was next value
  { s2 with t.count := s.t.count }

/-- The elapsed tick that a RULE message names by its low 32 bits; the present one where the unit held no such count (08 R378, 19 R852). -/
def tickNear (s : State) (w : Word) : Nat := (upOf s.t.marks s.t.up w).getD s.t.up

/-- A rule's vote changes: the state follows at once, the entry when its RULE message is in hand; one kept that tells of the other direction
is stale. -/
def farRuleTo (s : State) (r : Nat) (next : AlarmSt) : State :=
  let was := (ruleOf s r).st
  let s1 := modRule s r (fun a => { a with st := next, raises := if next = .raised then a.raises + 1 else a.raises })
  let s2 := { s1 with twin.ruleGot := s.twin.ruleGot.filter (fun g => g.1 != r) }
  match s.twin.ruleGot.find? (fun g => g.1 == r && g.2.1 == (next == .raised)) with
  | some (_, _, tick, value) => farRuleNote s2 r was next (tickNear s tick) value
  | none => { s2 with twin.ruleWait := s2.twin.ruleWait ++ [{ rule := r, was := was, next := next, up := s.t.up, sf := s.t.sf }] }

/-- The vote of a rule the tail runs has changed from `old`: RAISED on a rise; on a fall LATCHED with its latch set, else CLEAR (19 R852). -/
def farRuleVote (old : BitVec 16) (s : State) (r : Nat) : State :=
  if !farRule s r || !alarmOn s r || old.getLsbD r == farVote s r then s
  else if farVote s r then (if (ruleOf s r).st = .raised then s else farRuleTo s r .raised)
  else if (ruleOf s r).st = .raised then farRuleTo s r (if bit (alarmOpt s r) 9 then .latched else .clear)
  else s

/-- RULE received: it completes the transition that waits for it, or is kept for its vote. -/
def ruleTake (s : State) (r st : Nat) (tick value : Word) : State :=
  if !farRule s r || decide (2 ≤ st) then s
  else
    let up := st == 1
    match s.twin.ruleWait.find? (fun w => w.rule == r && (w.next == .raised) == up) with
    | some w =>
      farRuleNote { s with twin.ruleWait := s.twin.ruleWait.erase w } r w.was w.next (tickNear s tick) value
    | none =>
      if ((ruleOf s r).st == .raised) = up then s
      else { s with twin.ruleGot := (r, up, tick, value) :: s.twin.ruleGot.filter (fun g => g.1 != r) }

/-- TWIN_RULE. -/
def execTwinRule (rule state : Byte) (tick value : Word) (s : State) : Host.Outcome State Fault Refusal :=
  .next (if isSpanLead s then ruleTake s rule.toNat state.toNat tick value else s)

/-- Transitions whose RULE message is lost are written with the tick of their vote and no value, two superframes on (log 62). -/
def ruleLate (s : State) : State :=
  let late := s.twin.ruleWait.filter (fun w => decide (w.sf + 2 ≤ s.t.sf))
  late.foldl (fun s w => farRuleNote s w.rule w.was w.next w.up nanW)
    { s with twin.ruleWait := s.twin.ruleWait.filter (fun w => decide (s.t.sf < w.sf + 2)) }

/-! ### TRIG, SLOT, SPLIT (19 R833, R850, R863, R864, R874) -/

/-- A partner's trigger of the session this unit holds is placed as a learned fire, unless this unit's own point is not later. -/
def trigTake (s : State) (tick : BitVec 48) (frac : Byte) (armId : BitVec 16) : State :=
  let k := mkKey tick frac
  let s1 := if isLead s && armId != 0 && s.trip.armId == armId then firePend s k else s
  if s.trip.st = .disarmed ∨ s.trip.armId ≠ armId ∨ s.capt.armId ≠ armId then s1
  else if (pointKey s).any (fun p => decide (p.toNat ≤ k.toNat)) then { s1 with capt.ignored := s.capt.ignored + 1 }
  else { capFire s1 k with capt.firePeg := s.twin.partner, capt.byTrig := true }

/-- TWIN_TRIG. -/
def execTwinTrig (tick : BitVec 48) (frac _source _type : Byte) (armId : BitVec 16) (s : State) : Host.Outcome State Fault Refusal :=
  .next (if s.twin.mode ≠ 0 then trigTake s tick frac armId else s)

/-- TWIN_SLOT: what the tail writes for its lead, and the lead's state (19 R833, R867). -/
def execTwinSlot (flags state alarmsum : Byte) (payload : BitVec 144) (s : State) : Host.Outcome State Fault Refusal :=
  .next (if isTail s then { s with twin := { s.twin with handed := s.twin.handed ++ [(flags, state, alarmsum, payload)], partnerSt := state &&& 7 } } else s)

/-- SPLIT received: cause 0 splits a tail at its next p = 0, any other a pair at once; a join ends. -/
def splitTake (s : State) (cause : Nat) : State :=
  if s.twin.join.isSome then joinEnd s (if cause = 1 then 8 else 10)
  else if s.twin.mode = 0 then s
  else if cause = 0 then { s with twin := { s.twin with splitDue := some orgTwin, splitAhead := s.twin.fwdIn.length } }
  else twinSplit s orgTwin true

/-- TWIN_SPLIT_MSG. -/
def execTwinSplitMsg (cause : Byte) (s : State) : Host.Outcome State Fault Refusal := .next (splitTake s cause.toNat)

/-! ### Messages (19 R824) -/

/-- A HELLO payload read. -/
def helloRead (b : List Byte) : Hello :=
  { serial := BitVec.ofNat 64 (plField b 0 8), romRev := BitVec.ofNat 16 (plField b 8 2), frev := b.getD 10 0, hop := b.getD 11 0,
    peg := b.getD 12 0, state := b.getD 13 0, mode := b.getD 14 0, partner := b.getD 15 0, phase := b.getD 16 0,
    paired := b.getD 17 0, digest := BitVec.ofNat 32 (plField b 18 4) }

/-- The requests of a REQ payload. -/
def reqRead : Nat → List Byte → List TailReq
  | 0, _ => []
  | fuel + 1, b =>
    if b.length < 11 then []
    else
      { task := b.getD 0 0, cls := b.getD 1 0, energy := BitVec.ofNat 16 (plField b 2 2), current := BitVec.ofNat 16 (plField b 4 2),
        allowance := b.getD 6 0, age := BitVec.ofNat 32 (plField b 7 4) } :: reqRead fuel (b.drop 11)

/-- Pairs of bytes. -/
def bytePairs : List Byte → List (Byte × Byte)
  | a :: b :: l => (a, b) :: bytePairs l
  | _ => []

/-- What a good message does: the same as its row of the table. -/
def msgTake (s : State) (type : Nat) (b : List Byte) : State :=
  let g (i : Nat) : Byte := b.getD i 0
  let w (i : Nat) : Word := BitVec.ofNat 32 (plField b i 4)
  let run (o : Host.Outcome State Fault Refusal) : State := outState s o
  match type with
  | 0x01 => helloTake s (helloRead b)
  | 0x02 => run (execTwinFwd (g 0) (g 1) (g 2) (g 3) (b.drop 5) s)
  | 0x03 => run (execTwinVerdict (g 0) (g 1) (g 2) s)
  | 0x04 => run (execTwinCommit (g 0) (g 1) s)
  | 0x05 => run (execTwinAck (g 0) s)
  | 0x06 => run (execTwinAnswer (g 0) (g 1) (g 2) (g 3) (b.drop 4) s)
  | 0x07 => run (execTwinReq { thermal := BitVec.ofNat 16 (plField b 0 2), current := BitVec.ofNat 16 (plField b 2 2),
                               flags := g 4 } (reqRead 30 (b.drop 5)) s)
  | 0x08 => run (execTwinGrant (bytePairs b) s)
  | 0x09 => run (execTwinRule (g 0) (g 1) (w 2) (w 6) s)
  | 0x0A => run (execTwinTrig (BitVec.ofNat 48 (plField b 0 6)) (g 6) (g 7) (g 8) (BitVec.ofNat 16 (plField b 9 2)) s)
  | 0x0B => run (execTwinSlot (g 0) (g 1) (g 2) (BitVec.ofNat 144 (plField b 3 18)) s)
  | 0x0C => confTake s (plPairs b)
  | 0x0D => joinTake s (BitVec.ofNat 16 (plField b 0 2)) (g 2).toNat
  | 0x0E => splitTake s (g 0).toNat
  | _ => s

/-- Whether this unit sends the lead word. -/
def leadSide (s : State) : Bool := isLead s || s.twin.lastLead || (match s.twin.join with
  | some j => j.lead
  | none => false)

/-- Bytes of the message under way make it whole: dispatched where its CRC holds. A tail not yet numbered takes the lead's number
from a good HELLO, and without one goes on looking (19 R831). -/
def msgWhole (s : State) (m : List Byte) : State :=
  let n := m.length - 2
  let s1 := { s with twin := { s.twin with rx := [], rxDrop := false } }
  if crc16 (m.take n) ≠ plField m n 2 then { s1 with twin.rxDead := s.twin.num.isSome || leadSide s }
  else
    let first : Bool := s.twin.num.isNone && (m.headD 0).toNat == 1
    let s2 := if first then { s1 with twin.num := some (m.length - 1) } else s1
    if s.twin.rxDrop && m.head? == some 0x0B then s2 else msgTake s2 (m.headD 0).toNat ((m.take n).drop 2)

/-- One byte of the stream. -/
def byteTake (s : State) (b : Byte) : State :=
  if s.twin.rxDead then s
  else
    let rx := s.twin.rx ++ [b]
    if s.twin.rx.isEmpty ∧ b = 0 then s
    else if 2 ≤ rx.length ∧ rx.length = (rx.getD 1 0).toNat + 4 then msgWhole s rx
    else { s with twin.rx := rx }

/-! ### The exchange (19 R818–R823, R856) -/

/-- Number of this exchange: the lead's p, at a tail the one taken from the handshake. -/
def exchNum (s : State) : Option Nat := if leadSide s then some s.t.p else s.twin.num

/-- The next byte to send; a message that would not end before the lead's p = 0 waits. -/
def byteSend (s : State) (num : Option Nat) : State × Byte :=
  match s.twin.tx, s.twin.msgs, num with
  | b :: rest, _, _ => ({ s with twin.tx := rest }, b)
  | [], m :: ms, some n =>
    if n + m.length ≤ 512 then
      match m with
      | b :: rest => ({ s with twin := { s.twin with tx := rest, msgs := ms } }, b)
      | [] => ({ s with twin.msgs := ms }, 0)
    else (s, 0)
  | _, _, _ => (s, 0)

/-- A rule's bit in VOTE: RAISED in Mirror, RAISED or LATCHED otherwise; zero before commit. -/
def voteBit (s : State) (r : Nat) : Bool :=
  s.twin.mode != 0 && (if isMirror s then (ruleOf s r).st == .raised else (ruleOf s r).st != .clear)

/-- The word this unit sends. -/
def poleWord (s : State) (num : Nat) (data : Byte) : BitVec 16 :=
  let v := packFlags ((List.range 4).map (fun i => voteBit s (num % 4 * 4 + i)))
  let asks := if isLead s then 2 * b2n (alertOwn s) + b2n (faultReq s) else 0
  let x := asks * 4096 + v * 256 + data.toNat
  BitVec.ofNat 16 (x * 4 + (if leadSide s then crc2 14 x else crc2 12 x))

/-- A word whose CHK holds; none does on the unit's own backup clock (19 R861). -/
def wordGood (s : State) (w : BitVec 16) : Bool :=
  if s.ring.clk = .backup then false
  else if leadSide s then w.toNat % 4 == crc2 12 (w.toNat / 4 % 4096) else w.toNat % 4 == crc2 14 (w.toNat / 4)

/-- The votes a good word brings: at a Span lead its tail's rules follow them. -/
def votesTake (s : State) (num : Nat) (w : BitVec 16) : State :=
  let g := num % 4
  let at_ (i : Nat) (v : BitVec 16) : BitVec 16 := putBit v (4 * g + i) (w.getLsbD (10 + i))
  let s1 := { s with twin.votes := at_ 3 (at_ 2 (at_ 1 (at_ 0 s.twin.votes))) }
  if s.twin.mode = 1 then forEach s1 [4 * g, 4 * g + 1, 4 * g + 2, 4 * g + 3] (farRuleVote s.twin.votes) else s1

/-- The word received: failed, or good with its flags, votes and byte. -/
def wordTake (s : State) (num : Option Nat) (w : BitVec 16) : State :=
  let good := wordGood s w
  let s1 := { s with twin.hist := (good :: s.twin.hist).take 8 }
  if !good then
    let s2 := { s1 with twin := { s1.twin with fails := s1.twin.fails + 1, rx := [], rxDead := num.isSome } }
    tallyEvent s2 23
  else
    let s2 := { s1 with twin.exchanges := s1.twin.exchanges + 1 }
    let s3 := if isTail s2 then { s2 with twin := { s2.twin with alrt := w.getLsbD 15, aflt := w.getLsbD 14 } } else s2
    let s4 := match num with
      | some n => if s.twin.mode = 0 then s3 else votesTake s3 n w
      | none => s3
    byteTake s4 (BitVec.ofNat 8 (w.toNat / 4))

/-- V of every rule of a Mirror lead after an exchange (19 R855, R856). -/
def votesForm (s : State) : State :=
  if s.twin.mode ≠ 2 then s
  else forEach { s with twin.fallback := !partnerUsable s } (List.range 16) (fun s r => pairVote s r nanW)

/-- A new superframe of the lead begins the parsing afresh. -/
def exchBegin (s : State) (num : Option Nat) : State :=
  if num = some 0 then { s with twin := { s.twin with rx := [], rxDead := false, rxDrop := false, tx := [] } } else s

/-- The tail's numbering goes on, and a link kept up for a last message goes down. -/
def exchEnd (s : State) (num : Option Nat) : State :=
  let next : Option Nat := match num, s.twin.num with
    | some n, _ => if leadSide s then none else some ((n + 1) % 512)
    | none, some n => some ((n + 1) % 512)
    | none, none => none
  let idle : Bool := s.twin.mode == 0 && s.twin.join.isNone && s.twin.msgs.isEmpty && s.twin.tx.isEmpty
  { s with twin := { s.twin with num := if idle then none else next, active := s.twin.active && !idle,
                                 lastLead := s.twin.lastLead && !idle } }

/-- With nothing else to send, a tail sends the next bytes of its lead's bulk transfer in an ANSWER (19 R839, R841). -/
def bulkFeed (s : State) : State :=
  match s.cmd.bulk with
  | some b =>
    match b.far with
    | some h =>
      if !isTail s || !s.twin.msgs.isEmpty || !s.twin.tx.isEmpty then s
      else
        let s1 := twinSend s 0x06 ([h, byteOf stDone, 4, byteOf (4 + b.offset)] ++ (b.bytes.drop b.offset).take 14)
        { s1 with cmd.bulk := if b.offset + 14 < b.total then some { b with offset := b.offset + 14 } else none }
    | none => s
  | none => s

/-- One exchange: each side's word goes out, and the partner's comes in. -/
def exchange (s : State) (word : BitVec 16) : State :=
  let num := exchNum s
  let s1 := bulkFeed (exchBegin s num)
  let x := byteSend s1 num
  let s2 := { x.1 with out.pole := poleWord s1 (num.getD 0) x.2 }
  let s3 := votesForm (wordTake s2 num word)
  if s3.twin.active then exchEnd s3 num else s3

/-- POLE_EXCHANGE: the word the partner sent in this tick's exchange. -/
def execPoleExchange (word : BitVec 16) (s : State) : Host.Outcome State Fault Refusal :=
  .next (if alive s && s.twin.active then exchange s word else s)

end Sys2Proof.Machine
end

