-- ==== Sys2Proof/Machine/Tick.lean ====
section
/-! DEFINITION. The advance of a tick and what falls due at p = 0 (08 R358–R360, 07 R331), the named resets (12 R551–R556, R563),
VIGIL's bursts (03 R147–R151), the capture memory's own steps (15 R657–R669), automatic re-arm (14 R635), CLR_N (18 R782) and
waveform points (18 R799). -/

namespace Sys2Proof.Machine

/-! ### The tick (01 R43, 08 R358, R360, R365, 18 R780) -/

/-- The AOUT codes sent, with the tick that ends (18 R780): its frame's code, and the enable bit unless a write of it still waits. -/
def aoutSent (s : State) : List (BitVec 16 × Bool) :=
  let wait := s.seam.regQ.any (fun a => !a.read && a.addr == 0x16 && a.tries == 0)
  let on := if wait then (s.aout.sent.head?.map Prod.snd).getD false else (regWant s 0x16).getLsbD 0
  ((if s.seam.up then s.seam.aout else 0, on) :: s.aout.sent).take 3

/-- The counter, the phase and the superframe advance; a correction due replaces the new count. Then the field die applies what it
received in the tick that has ended; a frame that a switchover cut is none (01 R46, R77). -/
def tickAdvance (s : State) : State :=
  let s0 := fieldSends s
  let p := if s.t.p = 511 then 0 else s.t.p + 1
  let t := { s.t with count := s.t.count + 1, up := s.t.up + 1, p := p, sf := if p = 0 then s.t.sf + 1 else s.t.sf }
  let fd := if s.seam.cut then { s0.fd with inbox := .none } else s0.fd
  let s1 := { s0 with t := t, fd := fd, seam := { s0.seam with cut := false, aout := outCode s },
                      aout := { s0.aout with clrWas := s0.aout.clrNow, sent := aoutSent s0 } }
  fieldApply (if p = 0 && t.fix.isSome then fixApply s1 else wrapCheck s1)

/-- Some enabled rule a pair's member acts by is in a state. -/
def ruleIn (s : State) (st : AlarmSt) (r : Nat) : Bool := alarmOn s r && ruleSt s r == st

/-- ALARM_MAP: a pair's rules are the lead's (16 R716, 19 R853, R855). -/
def alarmMapNow (s : State) : Bool := !isTail s && stActive s && someRule s 2

/-- The slot ALARMSUM (16 R717). -/
def alarmsumNow (s : State) : Byte :=
  let raised := (List.range 16).filter (ruleIn s .raised)
  let unack := (List.range 16).any (ruleIn s .latched)
  byteOf (128 * b2n (alertOwn s) + 64 * b2n (!raised.isEmpty) + 32 * b2n unack + 16 * b2n (someLasting s) + min 15 raised.length)

/-- The map conditions and ALARMSUM of the superframe that begins. -/
def mapsTake (s : State) : State :=
  { s with ring := { s.ring with alarmMap := alarmMapNow s, faultMap := s.u.st == .safe || someLasting s, alarmsum := alarmsumNow s } }

/-- One superframe of the claim hold-off (07 R322). -/
def holdStep (s : State) : State :=
  let r := s.rights
  let r1 : RightsSt := if r.holdoff ≤ 1 then { r with holdEnd := r.holdEnd || r.holdoff == 1 } else { r with holdoff := r.holdoff - 1 }
  { s with rights := r1 }

/-- A split due, and RUN after a WAKE. -/
def dueRun (s : State) : State :=
  let s1 := splitRun s
  if s1.vigil.wakeDue then
    let s2 := { s1 with vigil.wakeDue := false }
    if s2.u.st = .vigil then enterRun s2 orgPin else s2
  else s1

/-- What p = 0 brings: commanded effects, then automatic ones (07 R331), then what the new superframe begins with. -/
def superframeBegin (s : State) : State :=
  let s1 := decisionRun (packetsRun (armsRun (dueRun (holdStep s))))
  let s2 := { s1 with ring := { s1.ring with hdr := .none, timeset := false }, counted := 0, out.lane := none }
  slotHand (joinTick (zSettle (mapsTake (ruleLate (nvStage s2)))))

/-- A tick of a running unit. -/
def tickRun (s : State) : State :=
  let s1 := tickAdvance s
  if s1.t.p = 0 then superframeBegin s1 else if tailAskDue s1 then tailAsk s1 else s1

/-- TICK. -/
def execTick (s : State) : Host.Outcome State Fault Refusal := .next (if alive s then tickRun s else s)

/-- COUNTER_WRAP: the tick after the last count. -/
def execCounterWrap (s : State) : Host.Outcome State Fault Refusal :=
  .next (if alive s && s.t.count == BitVec.allOnes 48 then tickRun s else s)

/-! ### Named resets and conversions (12 R551–R556, R563) -/

/-- SYNC_PIN: a rising edge in IDLE, RUN or SAFE. -/
def execSyncPin (s : State) : Host.Outcome State Fault Refusal :=
  .next (
    if alive s && s.u.st != .vigil then
      let d : SyncDue := { up := s.t.up + 2, count := none, order := 2, origin := orgPin }
      { s with syncs := d :: s.syncs }
    else s)

/-- SYNC_RESET. -/
def execSyncReset (s : State) : Host.Outcome State Fault Refusal := .next (if alive s then syncRun s else s)

/-- A boundary of back-to-back conversions at the present tick: codes decided from it on form the next one. -/
def scsBoundary (s : State) (c : Nat) : State :=
  let ch := chainOf s c
  let n := chainPscs s c
  let at_ := n != 0 && decide (((s.t.up : Int) - baseNow ch) % (n : Int) = 0)
  if ch.started && ch.conv.isNone && pOn s (idFilt c 5) && s.u.st != .vigil && at_ && !ch.due.contains (s.t.up, baseNow ch, true) then
    modChain s c (fun ch => { ch with due := ch.due ++ [(s.t.up, baseNow ch, true)] })
  else s

/-- SCS_BOUNDARY. -/
def execScsBoundary (c : Fin 14) (s : State) : Host.Outcome State Fault Refusal := .next (scsBoundary s c.val)

/-! ### Sentinel bursts (03 R147, R148) -/

/-- A sentinel channel at the start of a burst: the step decided in the last one is taken, and the run of rail codes starts afresh
(03 R151, 09 R416, R418). -/
def burstRange (s : State) (n : Nat) : State :=
  let s1 := modFront s n (fun f => { f with vstep := none, run := 0 })
  match (frontOf s n).vstep with
  | none => s1
  | some r =>
    if rangerOn s n && !(frontOf s n).suspended && decide (rangerMin s n ≤ r) && decide (r ≤ rangerMax s n) &&
        decide (r ≠ (frontOf s n).range) then rangeAsk s1 n r orgUnit true false
    else s1

/-- A burst starts: HKCTL names the monitor, steps decided are taken, and the sentinel chains are cleared for one conversion after 64
ticks. -/
def burstStart (s : State) : State :=
  let u := s.t.up + 64
  let m := s.vigil.rotation
  let set := maskList 8 s.vigil.set.toNat
  let s1 := forEach (regSet s 0x17 4 2 m) set burstRange
  let s2 := forEach s1 set (fun s c => modChain s c (fun ch => { clearChain ch with conv := some u, from_ := u, due := [] }))
  { s2 with hk := { s2.hk with monitor := m, from_ := s.t.up, taken := 0, sum := 0, bad := false, void := false, held := false },
            vigil := { s2.vigil with burst := some s.t.up, rotation := (m + 1) % 6,
                                     waiting := s.vigil.set.setWidth 24 ||| BitVec.ofNat 24 (2 ^ (18 + m)) } }

/-- A burst is due at this p = 0. -/
def burstDue (s : State) : Bool :=
  s.u.st == .vigil && s.t.p == 0 && pNat s (idSched 5) != 0 && (s.t.sf - s.vigil.since) % pNat s (idSched 5) == 0

/-- SENTINEL_BURST: a burst that finds the last one running is skipped and counted (03 R149). -/
def execSentinelBurst (s : State) : Host.Outcome State Fault Refusal :=
  .next (
    if !burstDue s then s
    else
      match s.vigil.burst with
      | some u => if u = s.t.up then s else { s with sched.skipped := s.sched.skipped + 1 }
      | none => burstStart s)

/-- SENTINEL_BURST_END: every chain of the burst has emitted. -/
def execSentinelBurstEnd (s : State) : Host.Outcome State Fault Refusal :=
  .next (if s.u.st == .vigil && s.vigil.burst.isSome && s.vigil.waiting == 0 then { s with vigil.burst := none } else s)

/-! ### Automatic re-arm (14 R635) -/

/-- TRIPWIRE_AUTO_REARM. -/
def execTripwireAutoRearm (s : State) : Host.Outcome State Fault Refusal :=
  .next (
    if pOn s 0x3080 && decide (s.trip.recogAt + pNat s 0x3081 ≤ s.t.up) && s.capt.phase == .recording then tripRearm s orgUnit else s)

/-! ### Capture memory (15 R657, R658, R666–R668, R673) -/

/-- The tick of the last record made. -/
def lastMade (c : CaptSt) : Nat :=
  match c.fifo.getLast? with
  | some r => r.at_
  | none => ((c.recs.getLast?).map Rec.at_).getD 0

/-- NEXT_SEGMENT: the tick after the protected segment's CLOSE. -/
def execNextSegment (s : State) : Host.Outcome State Fault Refusal :=
  .next (if s.capt.nextDue && decide (lastMade s.capt < s.t.up) then capOpen s s.capt.armId else s)

/-- The FIFO's write of this tick, and a stop that waited for it to drain. -/
def fifoWrite (s : State) : State :=
  match s.capt.fifo with
  | [] => s
  | r :: rest =>
    if s.capt.wroteAt = some s.t.up then s
    else
      let s1 := capFollow (capStore { s with capt.fifo := rest, capt.wroteAt := some s.t.up } r)
      if s1.capt.stopping && s1.capt.lostAt.isNone && s1.capt.fifo.isEmpty then capClose s1 5 orgUnit else s1

/-- FIFO_WRITE. -/
def execFifoWrite (s : State) : Host.Outcome State Fault Refusal := .next (fifoWrite s)

/-- Base context of the oldest held record, past one that is discarded (15 R667). -/
def baseStep (s : State) (r : Rec) : State :=
  let w := r.word.toNat
  let c := s.capt
  let put (v : Word) (n : Nat) : Word := natW (v.toNat - bits v.toNat (3 * n + 2) (3 * n) * 2 ^ (3 * n) + bits w 50 48 * 2 ^ (3 * n))
  let tg := tagOf s r.at_
  let ch := bits w 55 51
  let c1 : CaptSt :=
    if isSampleWord r.word then { c with bTick := tg.1 }
    else if w / 2 ^ 62 = 1 then { c with bTick := tg.1, bEra := tg.2 }
    else if bits w 61 56 = 6 then
      (if ch < 8 then { c with bAmp := put c.bAmp ch } else { c with bMox := put c.bMox (ch - 8) })
    else c
  { s with capt := c1 }

/-- Whether the oldest record of the segment goes: too old, or beyond the pre-ring's room. -/
def discardDue (s : State) (n : Nat) (r : Rec) : Bool :=
  decide ((tagOf s r.at_).1.toNat + captN s 2 < s.t.count.toNat) || decide (32768 < n + s.capt.prot + captN s 3 + 64)

/-- Discard from the oldest on: `n` records of the segment are held or in the FIFO. -/
def discardFrom (s : State) (n : Nat) : List Rec → State × List Rec
  | [] => (s, [])
  | r :: rest => if discardDue s n r then discardFrom (baseStep s r) (n - 1) rest else (s, r :: rest)

/-- The pre-ring of this tick. -/
def preDiscard (s : State) : State :=
  if s.capt.phase ≠ .recording ∨ s.capt.stopping ∨ s.capt.lostAt.isSome then s
  else
    let k := min s.capt.prot s.capt.recs.length
    let seg := s.capt.recs.drop k
    let r := discardFrom s (seg.length + s.capt.fifo.length - (s.capt.prot - k)) seg
    { r.1 with capt.recs := s.capt.recs.take k ++ r.2 }

/-- PRE_RING_DISCARD. -/
def execPreRingDiscard (s : State) : Host.Outcome State Fault Refusal := .next (preDiscard s)

/-- OVERFLOW_EVENT: the FIFO has drained after an overflow. -/
def execOverflowEvent (s : State) : Host.Outcome State Fault Refusal :=
  .next (
    match s.capt.lostAt with
    | some u =>
      if s.capt.fifo.isEmpty && capRunning s then capClose (capOutside s (evWord 0x05 (tagOf s u).1.toNat) s.t.up) 3 orgUnit
      else s
    | none => s)

/-! ### CLR_N and waveforms (18 R782–R786, R799, R801) -/

/-- CLR_N_LEVEL: the sample of this tick is `high`, in every state but DORMANT. It is taken where the sample of the tick before agrees and it
differs from the level in force (18 R782). -/
def execClrNLevel (high : Bool) (s : State) : Host.Outcome State Fault Refusal :=
  .next (
    if !alive s then s
    else
      let s1 := { s with aout.clrNow := high }
      if s.aout.clrWas != high || s.aout.clrLow != high then s1
      else
        let s2 := { s1 with aout.clrLow := !high, aout.clrCount := s.aout.clrCount + b2n (!high) }
        logE s2 orgPin 0x0058 0 (flagW (!high)) (flagW high))

/-- The point in force goes to the target. -/
def pointSend (s : State) (t : Nat) : State :=
  if t = 0 then s else biasTo s (t - 1) (BitVec.ofNat 14 ((pointOf s t).toNat / 4))

/-- The handover of target `t`, where its tick has come. -/
def wavePoint (s : State) (t : Nat) : State :=
  let p := playOf s t
  if p.st ≠ .playing ∨ s.t.up < p.due then s
  else if p.point + 1 < (wavePts s p.wave).length then
    pointSend (modPlay s t (fun p => { p with point := p.point + 1, due := p.due + p.period })) t
  else if p.passes = 1 then playEnd s t orgUnit false
  else pointSend (modPlay s t (fun p => { p with point := 0, passes := p.passes - 1, due := p.due + p.period })) t

/-- WAVE_POINT. -/
def execWavePoint (t : Fin 5) (s : State) : Host.Outcome State Fault Refusal := .next (if alive s then wavePoint s t.val else s)

end Sys2Proof.Machine
end

