-- ==== Sys2Proof/Machine/Dispatch.lean ====
section
/-! DEFINITION. One arm for each row of the table. -/

namespace Sys2Proof.Machine

def exec (i : Instr) (s : State) : Host.Outcome State Fault Refusal :=
  match i with
  | .powerOn e => Sys2Proof.Machine.execPowerOn e s
  | .brownOut e => Sys2Proof.Machine.execBrownOut e s
  | .resetPin e => Sys2Proof.Machine.execResetPin e s
  | .claimHoldoffEnd => Sys2Proof.Machine.execClaimHoldoffEnd s
  | .fieldDieReset => Sys2Proof.Machine.execFieldDieReset s
  | .vhtrPresentChange present => Sys2Proof.Machine.execVhtrPresentChange present s
  | .vdrvPresentChange present => Sys2Proof.Machine.execVdrvPresentChange present s
  | .missingEdge => Sys2Proof.Machine.execMissingEdge s
  | .clockReturn => Sys2Proof.Machine.execClockReturn s
  | .sckLoss => Sys2Proof.Machine.execSckLoss s
  | .wakeCki e => Sys2Proof.Machine.execWakeCki e s
  | .wakePin e => Sys2Proof.Machine.execWakePin e s
  | .wakeInVigil => Sys2Proof.Machine.execWakeInVigil s
  | .dormantArm ok => Sys2Proof.Machine.execDormantArm ok s
  | .dormantEntry => Sys2Proof.Machine.execDormantEntry s
  | .resetStart e => Sys2Proof.Machine.execResetStart e s
  | .upFrame u => Sys2Proof.Machine.execUpFrame u s
  | .downFrame err => Sys2Proof.Machine.execDownFrame err s
  | .downFrameTimeout => Sys2Proof.Machine.execDownFrameTimeout s
  | .driveWordApply => Sys2Proof.Machine.execDriveWordApply s
  | .housekeepingStep => Sys2Proof.Machine.execHousekeepingStep s
  | .superframeHeader h shift => Sys2Proof.Machine.execSuperframeHeader h shift s
  | .headerArm armId => Sys2Proof.Machine.execHeaderArm armId s
  | .headerDisarm armId => Sys2Proof.Machine.execHeaderDisarm armId s
  | .headerSync syncAt => Sys2Proof.Machine.execHeaderSync syncAt s
  | .pitchAll field => Sys2Proof.Machine.execPitchAll field s
  | .pitchCount field => Sys2Proof.Machine.execPitchCount field s
  | .pitchFill field => Sys2Proof.Machine.execPitchFill field s
  | .pitchSticky field => Sys2Proof.Machine.execPitchSticky field s
  | .pitchDrop field => Sys2Proof.Machine.execPitchDrop field s
  | .pitchMeasure field => Sys2Proof.Machine.execPitchMeasure field s
  | .bulkGrant peg len => Sys2Proof.Machine.execBulkGrant peg len s
  | .firePass key => Sys2Proof.Machine.execFirePass key s
  | .resolvePass firePeg key => Sys2Proof.Machine.execResolvePass firePeg key s
  | .confirmPass firePeg key => Sys2Proof.Machine.execConfirmPass firePeg key s
  | .beaconHeader h => Sys2Proof.Machine.execBeaconHeader h s
  | .orphanBeacon => Sys2Proof.Machine.execOrphanBeacon s
  | .dataLossBeacon => Sys2Proof.Machine.execDataLossBeacon s
  | .slotWrite region => Sys2Proof.Machine.execSlotWrite region s
  | .pegClashRelease => Sys2Proof.Machine.execPegClashRelease s
  | .commandWindow window => Sys2Proof.Machine.execCommandWindow window s
  | .eventLost => Sys2Proof.Machine.execEventLost s
  | .nop h => Sys2Proof.Machine.execNop h s
  | .hello h => Sys2Proof.Machine.execHello h s
  | .getp h ids => Sys2Proof.Machine.execGetp h ids s
  | .setp h pairs => Sys2Proof.Machine.execSetp h pairs s
  | .getblk h first count via => Sys2Proof.Machine.execGetblk h first count via s
  | .stateQuery h => Sys2Proof.Machine.execStateQuery h s
  | .stateIdle h => Sys2Proof.Machine.execStateIdle h s
  | .stateRun h => Sys2Proof.Machine.execStateRun h s
  | .stateVigil h => Sys2Proof.Machine.execStateVigil h s
  | .stateSafe h => Sys2Proof.Machine.execStateSafe h s
  | .stateDormant h => Sys2Proof.Machine.execStateDormant h s
  | .resetCmd h => Sys2Proof.Machine.execResetCmd h s
  | .resetDefaults h => Sys2Proof.Machine.execResetDefaults h s
  | .claimCoded h role code => Sys2Proof.Machine.execClaimCoded h role code s
  | .claimQuery h role => Sys2Proof.Machine.execClaimQuery h role s
  | .grant h client role => Sys2Proof.Machine.execGrant h client role s
  | .release h => Sys2Proof.Machine.execRelease h s
  | .rightsRecordWrite ok => Sys2Proof.Machine.execRightsRecordWrite ok s
  | .logread h source first count via => Sys2Proof.Machine.execLogread h source first count via s
  | .logseal h => Sys2Proof.Machine.execLogseal h s
  | .logSealTask ok => Sys2Proof.Machine.execLogSealTask ok s
  | .logmark h mark value => Sys2Proof.Machine.execLogmark h mark value s
  | .logFreeTo h seq => Sys2Proof.Machine.execLogFreeTo h seq s
  | .logPolicy h policy => Sys2Proof.Machine.execLogPolicy h policy s
  | .timeset h wall tick => Sys2Proof.Machine.execTimeset h wall tick s
  | .slewStep => Sys2Proof.Machine.execSlewStep s
  | .counterWrap => Sys2Proof.Machine.execCounterWrap s
  | .timeq h => Sys2Proof.Machine.execTimeq h s
  | .chstart h mask => Sys2Proof.Machine.execChstart h mask s
  | .chstop h mask => Sys2Proof.Machine.execChstop h mask s
  | .range h channel range => Sys2Proof.Machine.execRange h channel range s
  | .rangeChangeRelease n => Sys2Proof.Machine.execRangeChangeRelease n s
  | .decadeChangeRelease n => Sys2Proof.Machine.execDecadeChangeRelease n s
  | .snap h mask => Sys2Proof.Machine.execSnap h mask s
  | .stream h mask divider => Sys2Proof.Machine.execStream h mask divider s
  | .firload h set first coeffs => Sys2Proof.Machine.execFirload h set first coeffs s
  | .firsel h channel index set => Sys2Proof.Machine.execFirsel h channel index set s
  | .dcfreeze h mask freeze => Sys2Proof.Machine.execDcfreeze h mask freeze s
  | .syncnow h => Sys2Proof.Machine.execSyncnow h s
  | .syncPin => Sys2Proof.Machine.execSyncPin s
  | .syncReset => Sys2Proof.Machine.execSyncReset s
  | .scsBoundary c => Sys2Proof.Machine.execScsBoundary c s
  | .calwrite h channel gain offset => Sys2Proof.Machine.execCalwrite h channel gain offset s
  | .calwriteDone ok => Sys2Proof.Machine.execCalwriteDone ok s
  | .biasEnable h cell => Sys2Proof.Machine.execBiasEnable h cell s
  | .biasDisable h cell => Sys2Proof.Machine.execBiasDisable h cell s
  | .cellEnableStep k => Sys2Proof.Machine.execCellEnableStep k s
  | .cellDisableStep k => Sys2Proof.Machine.execCellDisableStep k s
  | .biasRampStep k => Sys2Proof.Machine.execBiasRampStep k s
  | .cellBiasWrite h k value => Sys2Proof.Machine.execCellBiasWrite h k value s
  | .cellRampWrite h k value => Sys2Proof.Machine.execCellRampWrite h k value s
  | .autorangeWrite h c field value => Sys2Proof.Machine.execAutorangeWrite h c field value s
  | .leadCapture h n value => Sys2Proof.Machine.execLeadCapture h n value s
  | .phaseTicks h c value => Sys2Proof.Machine.execPhaseTicks h c value s
  | .phaseFrac h c value => Sys2Proof.Machine.execPhaseFrac h c value s
  | .cableClk h value => Sys2Proof.Machine.execCableClk h value s
  | .ridgeTerm h value => Sys2Proof.Machine.execRidgeTerm h value s
  | .tallyWindowWrite h n window value => Sys2Proof.Machine.execTallyWindowWrite h n window value s
  | .alarmEnable h r value => Sys2Proof.Machine.execAlarmEnable h r value s
  | .waveSize h w value => Sys2Proof.Machine.execWaveSize h w value s
  | .aoutEnable h value => Sys2Proof.Machine.execAoutEnable h value s
  | .sampleOutput c => Sys2Proof.Machine.execSampleOutput c s
  | .tripwireAutoRearm => Sys2Proof.Machine.execTripwireAutoRearm s
  | .nextSegment => Sys2Proof.Machine.execNextSegment s
  | .fifoWrite => Sys2Proof.Machine.execFifoWrite s
  | .preRingDiscard => Sys2Proof.Machine.execPreRingDiscard s
  | .overflowEvent => Sys2Proof.Machine.execOverflowEvent s
  | .alarmack h mask => Sys2Proof.Machine.execAlarmack h mask s
  | .tallyread h source => Sys2Proof.Machine.execTallyread h source s
  | .tallyclear h source => Sys2Proof.Machine.execTallyclear h source s
  | .sentinelBurst => Sys2Proof.Machine.execSentinelBurst s
  | .sentinelBurstEnd => Sys2Proof.Machine.execSentinelBurstEnd s
  | .schedulerDecision => Sys2Proof.Machine.execSchedulerDecision s
  | .profileAbort n => Sys2Proof.Machine.execProfileAbort n s
  | .heaterMeasurement n => Sys2Proof.Machine.execHeaterMeasurement n s
  | .heaterLoop n => Sys2Proof.Machine.execHeaterLoop n s
  | .bridgeLoop b => Sys2Proof.Machine.execBridgeLoop b s
  | .heatrun h heater profile => Sys2Proof.Machine.execHeatrun h heater profile s
  | .heatstop h mask => Sys2Proof.Machine.execHeatstop h mask s
  | .profload h profile first steps => Sys2Proof.Machine.execProfload h profile first steps s
  | .leadcal h heater => Sys2Proof.Machine.execLeadcal h heater s
  | .leadcalSwitch n => Sys2Proof.Machine.execLeadcalSwitch n s
  | .leadcalDone n => Sys2Proof.Machine.execLeadcalDone n s
  | .zcheck h mask => Sys2Proof.Machine.execZcheck h mask s
  | .periodicCheckDue => Sys2Proof.Machine.execPeriodicCheckDue s
  | .toneStart => Sys2Proof.Machine.execToneStart s
  | .toneCode => Sys2Proof.Machine.execToneCode s
  | .filmToneToggle => Sys2Proof.Machine.execFilmToneToggle s
  | .triparm h mask armId => Sys2Proof.Machine.execTriparm h mask armId s
  | .tripdisarm h mask => Sys2Proof.Machine.execTripdisarm h mask s
  | .tripforce h slot => Sys2Proof.Machine.execTripforce h slot s
  | .capread h first count via => Sys2Proof.Machine.execCapread h first count via s
  | .capstat h => Sys2Proof.Machine.execCapstat h s
  | .capclear h => Sys2Proof.Machine.execCapclear h s
  | .aoutset h code => Sys2Proof.Machine.execAoutset h code s
  | .aoutrange h range => Sys2Proof.Machine.execAoutrange h range s
  | .clrNLevel high => Sys2Proof.Machine.execClrNLevel high s
  | .waveload h wave first points => Sys2Proof.Machine.execWaveload h wave first points s
  | .waveplay h wave target period repeats => Sys2Proof.Machine.execWaveplay h wave target period repeats s
  | .wavePoint t => Sys2Proof.Machine.execWavePoint t s
  | .wavestop h target => Sys2Proof.Machine.execWavestop h target s
  | .twinjoin h mode partner => Sys2Proof.Machine.execTwinjoin h mode partner s
  | .twinsplit h => Sys2Proof.Machine.execTwinsplit h s
  | .twinstat h => Sys2Proof.Machine.execTwinstat h s
  | .nvsave h mask => Sys2Proof.Machine.execNvsave h mask s
  | .nvsaveDone region2 ok => Sys2Proof.Machine.execNvsaveDone region2 ok s
  | .nvload h mask => Sys2Proof.Machine.execNvload h mask s
  | .nvLoadApply region2 => Sys2Proof.Machine.execNvLoadApply region2 s
  | .taskq h task => Sys2Proof.Machine.execTaskq h task s
  | .rationq h => Sys2Proof.Machine.execRationq h s
  | .fieldread h address => Sys2Proof.Machine.execFieldread h address s
  | .pins h => Sys2Proof.Machine.execPins h s
  | .poleExchange word => Sys2Proof.Machine.execPoleExchange word s
  | .twinHello m => Sys2Proof.Machine.execTwinHello m s
  | .twinConf pairs => Sys2Proof.Machine.execTwinConf pairs s
  | .twinJoin commitSfn mode => Sys2Proof.Machine.execTwinJoin commitSfn mode s
  | .pairCommit => Sys2Proof.Machine.execPairCommit s
  | .joinTimeout => Sys2Proof.Machine.execJoinTimeout s
  | .twinFwd handle client seq opc payload => Sys2Proof.Machine.execTwinFwd handle client seq opc payload s
  | .twinVerdict handle status pos => Sys2Proof.Machine.execTwinVerdict handle status pos s
  | .leadPacketDecide => Sys2Proof.Machine.execLeadPacketDecide s
  | .twinCommit handle apply => Sys2Proof.Machine.execTwinCommit handle apply s
  | .twinAck handle => Sys2Proof.Machine.execTwinAck handle s
  | .twinAnswer handle status rlen offset data => Sys2Proof.Machine.execTwinAnswer handle status rlen offset data s
  | .twinReq caps reqs => Sys2Proof.Machine.execTwinReq caps reqs s
  | .pairDecision => Sys2Proof.Machine.execPairDecision s
  | .twinGrant outcomes => Sys2Proof.Machine.execTwinGrant outcomes s
  | .twinRule rule state tick value => Sys2Proof.Machine.execTwinRule rule state tick value s
  | .twinTrig tick frac source type armId => Sys2Proof.Machine.execTwinTrig tick frac source type armId s
  | .twinSlot flags state alarmsum payload => Sys2Proof.Machine.execTwinSlot flags state alarmsum payload s
  | .twinSplitMsg cause => Sys2Proof.Machine.execTwinSplitMsg cause s
  | .tick => Sys2Proof.Machine.execTick s
  | .vddaReturn => Sys2Proof.Machine.execVddaReturn s
  | .tailGrantTimeout => Sys2Proof.Machine.execTailGrantTimeout s

end Sys2Proof.Machine
end

