-- ==== Sys2Proof/Safety.lean ====
section
/-! DEFINITION. The terms in which statements speak of the machine: the invariant every step keeps, when a packet is carried out at
once, and what its answer leaves. -/

namespace Sys2Proof.Machine

/-! ### The invariant -/

/-- The IDs of a configuration list rise strictly. -/
def idsRise : List (Nat × Word) → Bool
  | (i, _) :: (j, w) :: l => decide (i < j) && idsRise ((j, w) :: l)
  | _ => true

/-- A configuration list is in its canonical form: IDs rise, and no entry equals its ID's Reset column (20 R883). -/
def cfgWf (c : List (Nat × Word)) : Bool := idsRise c && c.all (fun p => p.2 != resetOf p.1)

/-- What holds of every state the block can be in: the phase is one of the 512 ticks of a superframe (01 R43), the configuration
list is canonical, the Logbook holds at most 4 096 entries (07 R329), at most 16 events wait (06 R290). -/
structure Inv (s : State) : Prop where
  phase  : s.t.p < 512
  config : cfgWf s.cfg = true
  log    : s.log.entries.length ≤ 4096
  events : s.cmd.events.length ≤ 16

/-! ### A packet carried out at once (06 R266–R291) -/

/-- A client's query is taken: the unit runs, is in no pair, the packet is addressed to it alone, SRC names a client, and a place
is free among the eight queued replies. -/
structure CanQuery (s : State) (h : Hdr) : Prop where
  runs   : alive s = true
  single : s.twin.mode = 0
  ucast  : h.bcast = false
  lo     : 1 ≤ h.src.toNat
  hi     : h.src.toNat ≤ 125
  room   : repliesFull s = false

/-- A client's changing packet is taken: as a query, or broadcast; its SEQ is not the one of the client's duplicate record, its
role is at least `role`, and the Logbook wraps. -/
structure CanChange (s : State) (h : Hdr) (role : Nat) : Prop where
  runs   : alive s = true
  single : s.twin.mode = 0
  lo     : 1 ≤ h.src.toNat
  hi     : h.src.toNat ≤ 125
  room   : h.bcast = true ∨ repliesFull s = false
  fresh  : ∀ d, aget s.cmd.dups h.src.toNat = some d → d.seq ≠ h.seq
  role   : role ≤ roleOf s h.src.toNat
  wraps  : stopPolicy s = false

/-- The reply an answer queues (06 R272). -/
def replyOf (h : Hdr) (a : Answer) : Reply := { src := h.src, seq := h.seq, ans := a, sent := 0, wait := none }

/-- A query is answered: one more reply waits, and nothing else changes. -/
def queried (s : State) (h : Hdr) (data : List Byte) : State :=
  { s with cmd.replies := s.cmd.replies ++ [replyOf h (answer stDone data)] }

/-- A changing packet is answered: its client's duplicate record is the answer (06 R281), and the reply waits unless the packet was
a broadcast (06 R291). -/
def answered (s : State) (h : Hdr) (status : Nat) (data : List Byte) : State :=
  { s with cmd.dups := aset s.cmd.dups h.src.toNat { seq := h.seq, ans := answer status data, wait := none },
           cmd.replies := if h.bcast then s.cmd.replies else s.cmd.replies ++ [replyOf h (answer status data)] }

/-- A long request is taken: it waits for its first decision at the next p = 0 (17 R750). -/
def awaiting (s : State) (h : Hdr) (opc : Nat) (pl : List Byte) : State :=
  { s with cmd.taken := s.cmd.taken ++ [{ pkt := rowPkt h opc pl, verdict := none, fwd := none }] }

/-- The request as it is executed once the decision has granted it energy. -/
def grantedPkt (h : Hdr) (opc : Nat) (pl : List Byte) (energy : Nat) : Taken :=
  { pkt := rowPkt h opc pl, verdict := some { status := vGrant, reason := 0, energy := energy }, fwd := none }

/-- A granted task of this client stands in the table (17 R741). -/
def HasTask (s : State) (n : Nat) (h : Hdr) (obj : TaskObj) (energy : Nat) : Prop :=
  ∃ k ∈ s.sched.tasks, k.num = n ∧ k.obj = obj ∧ k.origin = orgPkt h.src ∧ k.state = .granted ∧ k.energy = energy

/-- The grant of a long request that waits: at its first grant it is ACCEPTED with its task's number, and the task stands granted. -/
def GrantStarts (s : State) (h : Hdr) (opc : Nat) (pl : List Byte) (obj : TaskObj) : Prop :=
  ∀ e : Nat, e ≠ 0 → ∃ t : State, execTaken s (grantedPkt h opc pl e) = answered t h stAccepted [byteOf (nextTaskNum s)] ∧
    HasTask t (nextTaskNum s) h obj e

/-- A RESET of this mode is taken: its mode and superframe stand, with room in the Logbook one entry of its client is written (03 R138), and
a partner it joins is told (19 R826; DEDUCED, log 95). -/
structure ResetAsked (s t : State) (h : Hdr) (mode : Nat) : Prop where
  due   : t.u = { s.u with resetDue := some (mode, s.t.sf) }
  frame : t = { s with u := t.u, log := t.log, twin.msgs := t.twin.msgs }
  told  : t.twin.msgs = s.twin.msgs ++ (if s.twin.join.isSome then [twinMsg 0x0E [2]] else [])
  entry : s.log.entries.length < 4096 → ∃ e : Entry, t.log.entries = s.log.entries ++ [e] ∧ e.origin = orgPkt h.src

/-- The unit right after a boot of a cause: the counter stands at 0 of superframe 0 (03 R136), no task runs, and no pair. -/
structure Booted (t : State) (cause : Nat) (st : UState) : Prop where
  rcause : t.u.rcause = cause
  state  : t.u.st = st
  count  : t.t.count = 0
  phase  : t.t.p = 0
  single : t.twin.mode = 0

/-- A BIAS slot names one of the four cells. -/
def slotOk : Option (Nat × BitVec 14) → Bool
  | none => true
  | some (k, _) => decide (k < 4)

/-- The cells and the drive pair of a frame are in range (01 R53). -/
def frameOk : DownFrame → Bool
  | .bias a b => slotOk a && slotOk b
  | .drive p _ _ => decide (p < 4)
  | _ => true

/-- A command packet as it travels (06 R264). -/
def packetBytes (dest : Byte) (p : Packet) : List Byte :=
  let b := [dest, p.src, p.seq, p.opc, byteOf p.payload.length] ++ p.payload
  b ++ beBytes 2 (crc16 b)

/-- The bulk lane is this client's, with these bytes still to go (06 R293). -/
def laneHolds (s : State) (h : Hdr) (bytes : List Byte) : State :=
  { s with cmd.bulk := some { src := h.src, seq := h.seq, bytes := bytes, offset := 0, total := bytes.length, far := none } }

/-- The channels a mask names (06 R942). -/
def maskVal (m : Mask) : Nat := if m.wide then m.bits.toNat else m.bits.toNat % 2 ^ 32

/-- A register write waiting for its frame (01 R59). -/
def regAccess (s : State) (addr : Byte) (data : BitVec 16) : RegAcc :=
  { read := false, addr := addr, data := data, tries := 0, at_ := s.t.up, alts := [] }

/-- A down frame goes out, and the field die receives it, with the errors of its lane (01 R46, R52, R60). -/
def sentDown (t : State) (f : DownFrame) (err : BitVec 64) : State :=
  let w := downWord t.seam.aout f
  let got := w ^^^ err
  { t with out.down := w,
           fd.inbox := if !t.fd.vdda then .none
             else if crc8 (beBytes 7 (got.toNat / 256)) == got.toNat % 256 then .good got else .bad }

/-- The region of slots and guard as it leaves where this unit's slot is written (04 R178, R216). -/
def slotOver (s : State) (r slot : List Byte) : List Byte :=
  r.take (slotAt s.ring.peg) ++ slot ++ r.drop (slotAt s.ring.peg + 24)

/-- The 512 bytes of a window that holds these bytes first. -/
def windowFill (w : List Byte) : List Byte := w.take 512 ++ List.replicate (512 - w.length) 0

/-- Front end `n` has left the hold that ended at tick `e` (09 R407, R408): it is live in the range it was given. -/
structure Released (s t : State) (n e : Nat) : Prop where
  closed : (frontOf t n).closed = false
  hold   : (frontOf t n).holdAt = none
  free   : (frontOf t n).freeAt = none
  range  : (frontOf t n).range = (frontOf s n).range
  relAt  : (frontOf t n).relAt = if (frontOf s n).range = (frontOf s n).oldRange then (frontOf s n).relAt else some e
  cfg    : t.cfg = s.cfg

/-- A lead capture of `n` samples, not yet begun (10 R460). -/
def leadCapNew (n : Nat) (client : Byte) : LeadCap := { left := n, total := n, sum := 0, origin := orgPkt client }

/-! ### What the events leave alone -/

/-- Rows that are no packet of a client and change no parameter. -/
def keepsConfig : Instr → Bool
  | .claimHoldoffEnd | .fieldDieReset | .vhtrPresentChange _ | .vdrvPresentChange _ | .missingEdge | .clockReturn
  | .sckLoss | .wakeInVigil | .downFrameTimeout | .housekeepingStep | .headerArm _ | .headerDisarm _ | .headerSync _
  | .pitchAll _ | .pitchFill _ | .pitchSticky _ | .pitchDrop _ | .pitchMeasure _ | .bulkGrant _ _ | .firePass _
  | .resolvePass _ _ | .confirmPass _ _ | .beaconHeader _ | .orphanBeacon | .dataLossBeacon | .pegClashRelease
  | .eventLost | .logSealTask _ | .slewStep | .rangeChangeRelease _ | .decadeChangeRelease _ | .syncPin | .syncReset
  | .scsBoundary _ | .cellEnableStep _ | .cellDisableStep _ | .biasRampStep _ | .tripwireAutoRearm | .nextSegment
  | .fifoWrite | .preRingDiscard | .overflowEvent | .sentinelBurst | .sentinelBurstEnd | .profileAbort _
  | .heaterLoop _ | .bridgeLoop _ | .leadcalSwitch _ | .periodicCheckDue | .toneStart | .toneCode | .filmToneToggle
  | .clrNLevel _ | .wavePoint _ | .twinHello _ | .twinJoin _ _ | .pairCommit | .joinTimeout | .twinVerdict _ _ _
  | .twinCommit _ _ | .twinAck _ | .twinAnswer _ _ _ _ _ | .twinReq _ _ | .twinRule _ _ _ _ | .twinTrig _ _ _ _ _
  | .twinSlot _ _ _ _ | .twinSplitMsg _ | .vddaReturn | .dormantArm _ | .upFrame _ | .downFrame _ | .driveWordApply
  | .superframeHeader _ _ | .slotWrite _ | .commandWindow _ | .heaterMeasurement _ => true
  | _ => false

/-- Rows that are no packet of a client and leave the unit's condition alone. -/
def keepsUnit : Instr → Bool
  | .claimHoldoffEnd | .fieldDieReset | .vhtrPresentChange _ | .vdrvPresentChange _ | .missingEdge | .clockReturn
  | .sckLoss | .wakeInVigil | .downFrameTimeout | .housekeepingStep | .headerArm _ | .headerDisarm _ | .headerSync _
  | .pitchAll _ | .pitchFill _ | .pitchSticky _ | .pitchDrop _ | .pitchMeasure _ | .bulkGrant _ _ | .firePass _
  | .resolvePass _ _ | .confirmPass _ _ | .beaconHeader _ | .orphanBeacon | .dataLossBeacon | .pegClashRelease
  | .eventLost | .logSealTask _ | .slewStep | .rangeChangeRelease _ | .decadeChangeRelease _ | .syncPin | .syncReset
  | .scsBoundary _ | .cellEnableStep _ | .cellDisableStep _ | .biasRampStep _ | .tripwireAutoRearm | .nextSegment
  | .fifoWrite | .preRingDiscard | .overflowEvent | .sentinelBurst | .sentinelBurstEnd | .profileAbort _
  | .heaterLoop _ | .bridgeLoop _ | .leadcalSwitch _ | .periodicCheckDue | .toneStart | .toneCode | .filmToneToggle
  | .clrNLevel _ | .wavePoint _ | .twinHello _ | .twinJoin _ _ | .pairCommit | .joinTimeout | .twinVerdict _ _ _
  | .twinCommit _ _ | .twinAck _ | .twinAnswer _ _ _ _ _ | .twinReq _ _ | .twinRule _ _ _ _ | .twinTrig _ _ _ _ _
  | .twinSlot _ _ _ _ | .twinSplitMsg _ | .vddaReturn | .pitchCount _ | .rightsRecordWrite _ | .leadcalDone _
  | .nvLoadApply _ | .twinConf _ | .calwriteDone _ | .nvsaveDone _ _ => true
  | _ => false

end Sys2Proof.Machine
end

