-- ==== Sys2Proof/Certificates/Slice0/Obligations.lean ====
section
/-! DEFINITION. The statements about the model, for the provers. Each says in its docstring what it formalises; OBLIGATIONS.json
cites the rules. -/

open Sys2Proof Sys2Proof.Machine

/-! ### The queue and reset -/

/-- A step takes the command at the front of the queue and runs it with the rest; on an empty queue the block idles (log 9: the
model's choice). -/
def Obligations.StepRunsFrontCommand : Prop :=
  ∀ s : State,
    (∀ (c : Instr) (rest : List Instr), s.pending = c :: rest → step s = exec c { s with pending := rest }) ∧
    (s.pending = [] → step s = .next s)

/-- No command changes the queue, and each answers a next state from every state. -/
def Obligations.EveryCommandAnswersAndKeepsQueue : Prop :=
  ∀ (i : Instr) (s : State), ∃ t : State, exec i s = .next t ∧ t.pending = s.pending

/-- What the spec states of the unit after a power-on boot: counter 0 and phase 0, UNALIGNED and not mapped, IDLE, no peg, saved
peg 0, every client an Observer with the claim hold-off running, every parameter at its Reset column, the Logbook holding BOOT and
the entry of the end of boot, the rest of the queues empty. -/
def Obligations.ResetLeaves : Prop :=
  State.reset.u.st = .idle ∧ State.reset.u.rcause = 0 ∧ State.reset.u.armed = false ∧
  State.reset.t.count = 0 ∧ State.reset.t.p = 0 ∧ State.reset.t.unaligned = true ∧ State.reset.t.off = none ∧
  State.reset.ring.lock = .unlocked ∧ State.reset.ring.peg = 0 ∧ State.reset.ring.hop = 0 ∧ State.reset.ring.savedPeg = 0 ∧
  (∀ c : Nat, roleOf State.reset c = observer) ∧ State.reset.rights.holdoff = 1000 ∧
  (∀ id : Nat, param State.reset id = resetOf id) ∧
  State.reset.log.entries.map Entry.event = [0x0001, 0x0002] ∧ State.reset.log.entries.map Entry.seq = [0, 1] ∧
  State.reset.log.overwritten = 0 ∧ State.reset.log.unlogged = 0 ∧
  State.reset.cmd.taken = [] ∧ State.reset.cmd.replies = [] ∧ State.reset.cmd.dups = [] ∧
  State.reset.sched.tasks = [] ∧ State.reset.sched.bank = 0 ∧
  (∀ n : Fin 12, (State.reset.front[n]).range = 5) ∧ (∀ c : Fin 14, (State.reset.chain[c]).started = false) ∧
  (∀ i : Fin 24, (State.reset.tally[i]).total = 0 ∧ (State.reset.tally[i]).lasting = false) ∧
  (∀ r : Fin 16, (State.reset.alarm[r]).st = .clear) ∧
  State.reset.trip.st = .disarmed ∧ State.reset.capt.phase = .empty ∧ State.reset.aout.enabled = false ∧
  State.reset.twin.mode = 0 ∧ State.reset.pending = []

/-- The state after reset has the invariant. -/
def Obligations.ResetHasInvariant : Prop := Inv State.reset

/-- Every step keeps the invariant, from every state that has it. -/
def Obligations.StepKeepsInvariant : Prop :=
  ∀ s t : State, Inv s → step s = .next t → Inv t

/-- The events that are no commands of a client leave the configuration alone, and all but a few of them the unit's condition (state,
causes, boots): what changes a parameter or a state is a boot, a packet, a sample, a decision, a tick, or a row of the other list. -/
def Obligations.EventsKeepConfiguration : Prop :=
  ∀ (i : Instr) (s t : State), exec i s = .next t →
    (keepsConfig i = true → t.cfg = s.cfg) ∧ (keepsUnit i = true → t.u = s.u)

/-! ### Queries -/

/-- NOP, HELLO, STATE with LEN 0, TIMEQ, CAPSTAT, TWINSTAT and RATIONQ each queue one reply, and change nothing else. -/
def Obligations.PlainQueriesAnswer : Prop :=
  ∀ (s : State) (h : Hdr), CanQuery s h →
    exec (.nop h) s = .next (queried s h []) ∧
    exec (.hello h) s = .next (queried s h (beBytes 8 s.fac.serial.toNat ++ beBytes 2 s.fac.romRev.toNat ++
      [s.seam.frev, byteOf s.ring.hop, if keepers s = 0 then 0 else 4])) ∧
    exec (.stateQuery h) s = .next (queried s h ([byteOf (stCode s.u.st), byteOf (stateFlags s), byteOf s.u.rcause] ++
      beBytes 2 s.u.safecause.toNat ++ beBytes 2 s.u.chgEra.toNat ++ beBytes 6 s.u.chgTick.toNat)) ∧
    exec (.timeq h) s = .next (queried s h (beBytes 2 s.t.era.toNat ++ beBytes 6 s.t.count.toNat ++ beBytes 8
      (match s.t.off with
        | some o => (wallAt s.t.count o).getD (2 ^ 64 - 1)
        | none => 2 ^ 64 - 1))) ∧
    exec (.capstat h) s = .next (queried s h (((List.range 16).map (fun i => beBytes 4 (readCapt s (0x40 + i)).toNat)).flatten)) ∧
    exec (.twinstat h) s = .next (queried s h ([0, byteOf s.twin.partner, byteOf (stCode s.u.st), s.twin.partnerSt,
      byteOf (twinStatus s), byteOf s.twin.joinResult] ++ beBytes 2 (tallyCount s 23) ++ beBytes 4 s.twin.serial.toNat)) ∧
    exec (.rationq h) s = .next (queried s h (beBytes 2 (min (lastDec s).rin 65535) ++ [(lastDec s).flags] ++
      beBytes 2 (min (lastDec s).share 65535) ++ beBytes 2 (min (lastDec s).income 65535) ++
      beBytes 2 (min (lastDec s).net 65535) ++ beBytes 4 (min s.sched.bank 0xFFFFFFFF) ++
      beBytes 2 (min (lastDec s).heat 65535) ++ beBytes 2 (min (lastDec s).check 65535) ++
      beBytes 2 (min (lastDec s).chore 65535) ++ beBytes 2 (min (lastDec s).ihtr 65535) ++
      [byteOf (min (lastDec s).defers 255), byteOf (min (lastDec s).refuses 255)] ++ beBytes 2 (min (lastDec s).missing 65535)))

/-- GETP answers its values in the order of its IDs, GETBLK by the reply a block of up to 63 values. -/
def Obligations.ParameterReadsAnswer : Prop :=
  ∀ (s : State) (h : Hdr), CanQuery s h →
    (∀ ids : List Pid, 1 ≤ ids.length → ids.length ≤ 16 → (∀ i ∈ ids, (descOf i.toNat).isSome = true) →
      exec (.getp h ids) s = .next (queried s h ((ids.map (fun i => beBytes 4 (readParam s i.toNat).toNat)).flatten))) ∧
    (∀ (first : Pid) (n : Byte), (descOf first.toNat).isSome = true → 1 ≤ n.toNat → n.toNat ≤ 63 →
      first.toNat % 256 + n.toNat ≤ 256 →
      exec (.getblk h first n 0) s =
        .next (queried s h (((List.range n.toNat).map (fun i => beBytes 4 (readParam s (first.toNat + i)).toNat)).flatten)))

/-- LOGREAD, CAPREAD, TALLYREAD and TASKQ by the reply: entries of the Logbook or of a valid seal, records, a source, tasks. -/
def Obligations.StoreReadsAnswer : Prop :=
  ∀ (s : State) (h : Hdr), CanQuery s h →
    (∀ (src : Byte) (first : Word) (n : BitVec 16), src.toNat ≤ 1 → 1 ≤ n.toNat → n.toNat ≤ 7 →
      (src.toNat = 0 ∨ sealWriting s = false) →
      exec (.logread h src first n 0) s =
        .next (queried s h (((logRun (logSource s src.toNat) first.toNat n.toNat).map entryBytes).flatten))) ∧
    (∀ (first : Word) (n : BitVec 16), 1 ≤ n.toNat → n.toNat ≤ 31 →
      exec (.capread h first n 0) s = .next (queried s h (capData s (capRecs s first.toNat n.toNat)))) ∧
    (∀ src : Byte, src.toNat ≤ 23 →
      exec (.tallyread h src) s = .next (queried s h ([src, byteOf (tallyCond s src.toNat)] ++
        beBytes 2 (tallyCount s src.toNat) ++ [byteOf (tallyK s src.toNat)] ++ beBytes 2 (tallyW s src.toNat) ++
        beBytes 4 (tallyOf s src.toNat).total))) ∧
    (∀ n : Byte, n.toNat ≠ 0 →
      exec (.taskq h n) s = .next (queried s h ([byteOf (taskOf s n.toNat).toList.length] ++
        beBytes 2 (min s.sched.skipped 65535) ++ ((taskOf s n.toNat).toList.map (taskBytes s)).flatten)) ∧
      exec (.taskq h 0) s = .next (queried s h ([byteOf (tasksByNum s).length] ++
        beBytes 2 (min s.sched.skipped 65535) ++ ((tasksByNum s).map (taskBytes s)).flatten)))

/-- A read through the bulk lane answers the number of bytes it will send there, and leaves them for the grants; a read of nothing
leaves the lane free. -/
def Obligations.BulkReadsWaitForGrants : Prop :=
  ∀ (s : State) (h : Hdr), CanQuery s h → (∀ b, s.cmd.bulk = some b → b.src = h.src) →
    (∀ (first : Pid) (n : Byte), (descOf first.toNat).isSome = true → 1 ≤ n.toNat → first.toNat % 256 + n.toNat ≤ 256 →
      exec (.getblk h first n 1) s =
        .next (queried (laneHolds s h (((List.range n.toNat).map (fun i => beBytes 4 (readParam s (first.toNat + i)).toNat)).flatten)) h
          (beBytes 4 (4 * n.toNat)))) ∧
    (∀ (src : Byte) (first : Word) (n : BitVec 16), src.toNat ≤ 1 → 1 ≤ n.toNat → n.toNat ≤ 4096 →
      (src.toNat = 0 ∨ sealWriting s = false) → logRun (logSource s src.toNat) first.toNat n.toNat ≠ [] →
      exec (.logread h src first n 1) s =
        .next (queried (laneHolds s h (((logRun (logSource s src.toNat) first.toNat n.toNat).map entryBytes).flatten)) h
          (beBytes 4 (32 * (logRun (logSource s src.toNat) first.toNat n.toNat).length)))) ∧
    (∀ (first : Word) (n : BitVec 16), 1 ≤ n.toNat → n.toNat ≤ 32768 →
      (capRecs s first.toNat n.toNat ≠ [] →
        exec (.capread h first n 1) s =
          .next (queried (laneHolds s h (capData s (capRecs s first.toNat n.toNat))) h
            (beBytes 4 (4 + 8 * (capRecs s first.toNat n.toNat).length)))) ∧
      (capRecs s first.toNat n.toNat = [] →
        exec (.capread h first n 1) s = .next (queried { s with cmd.bulk := none } h [0, 0, 0, 0])))

/-- FIELDREAD hands one REG read to the Seam, behind those that wait; its reply and its client's record hold their places until the answer
comes. PINS answers the levels of five lines; those of SYNC and WAKE are free. -/
def Obligations.DiagnosticsAnswer : Prop :=
  ∀ (s : State) (h : Hdr),
    (CanChange s h tuner → ∀ a : Byte,
      exec (.fieldread h a) s = .next { s with
        seam := { s.seam with regQ := s.seam.regQ ++ [{ regAccess s a 0 with read := true }],
                              fieldRead := s.seam.fieldRead ++ [(a, h.src, h.seq)] },
        cmd.dups := aset s.cmd.dups h.src.toNat { seq := h.seq, ans := answer stDone [], wait := some 0 },
        cmd.replies := if h.bcast then s.cmd.replies
          else s.cmd.replies ++ [{ replyOf h (answer stDone []) with wait := some 0 }] }) ∧
    (CanChange s h observer →
      exec (.pins h) s = .next (answered s h stDone [byteOf (packFlags [!s.aout.clrLow, Config.pinLevel 0 s.t.up,
        Config.pinLevel 1 s.t.up, s.u.testen, alertN s])]))

/-! ### Parameters -/

/-- A parameter written reads back, the others keep their values, and the list stays canonical. -/
def Obligations.WrittenParameterReadsBack : Prop :=
  ∀ (s : State) (id : Nat) (w : Word),
    param (setParam s id w) id = w ∧ (∀ j : Nat, j ≠ id → param (setParam s id w) j = param s j) ∧
    (cfgWf s.cfg = true → cfgWf (setParam s id w).cfg = true)

/-- A SETP whose pairs all pass applies every pair, in order, and answers DONE; one of whose pairs fails a check changes no parameter,
and answers the failing status with the pair's position. -/
def Obligations.SetpAppliesAllOrNothing : Prop :=
  ∀ (s : State) (h : Hdr) (pairs : List (Pid × Word)), CanChange s h observer → 1 ≤ pairs.length → pairs.length ≤ 16 →
    (setpCheck s (roleOf s h.src.toNat) (orgPkt h.src) (pairs.map (fun p => (p.1.toNat, p.2))) = none →
      exec (.setp h pairs) s = .next (answered
        ((pairs.map (fun p => (p.1.toNat, p.2))).foldl (fun t p => writeParam t p.1 (orgPkt h.src) p.2) s) h stDone [])) ∧
    (∀ st n : Nat, h.bcast = false →
      setpCheck s (roleOf s h.src.toNat) (orgPkt h.src) (pairs.map (fun p => (p.1.toNat, p.2))) = some (st, n) →
      (st = stBadValue ∨ st = stLocked ∨ st = stWrongState) →
      exec (.setp h pairs) s = .next (answered s h st [byteOf n]))

/-- CELL.BIAS and CELL.RAMP: the value is stored, and a BIASED cell with no waveform starts a ramp to a new bias. -/
def Obligations.CellWrites : Prop :=
  ∀ (s : State) (h : Hdr) (k : Fin 4) (v : Word), CanChange s h observer →
    (setpCheck s (roleOf s h.src.toNat) (orgPkt h.src) [(idCell k 0, v)] = none →
      ∃ t : State, exec (.cellBiasWrite h k v) s = .next (answered t h stDone []) ∧
        param t (idCell k 0) = storedOf (idCell k 0) v ∧
        (sameVal (idCell k 0) (storedOf (idCell k 0) v) (param s (idCell k 0)) = false → zCell s k = false →
          (cellOf s k).step = .open_ → isPlaying s (k + 1) = false →
          (cellOf t k).ramping = true ∧ (cellOf t k).rampAt = s.t.up ∧
          (cellOf t k).rampFrom = (if (cellOf s k).ramping = true ∧ (cellOf s k).suspended = false
            then rampAfter s k (s.t.up - (cellOf s k).rampAt) else (cellOf s k).target))) ∧
    (setpCheck s (roleOf s h.src.toNat) (orgPkt h.src) [(idCell k 1, v)] = none →
      ∃ t : State, exec (.cellRampWrite h k v) s = .next (answered t h stDone []) ∧
        param t (idCell k 1) = storedOf (idCell k 1) v)

/-- Ranger fields, lead capture and filter phases: the value is stored (a lead capture counts the samples asked), and a new phase
fraction of a running channel goes to its control register, while a stopped channel's is only stored. -/
def Obligations.ChannelWrites : Prop :=
  ∀ (s : State) (h : Hdr) (v : Word), CanChange s h observer →
    (∀ (c : Fin 12) (f : Fin 3),
      setpCheck s (roleOf s h.src.toNat) (orgPkt h.src)
        [(if c.val < 8 then idAmp c (1 + f) else idMox (c - 8) (1 + f), v)] = none →
      ∃ t : State, exec (.autorangeWrite h c f v) s = .next (answered t h stDone []) ∧
        param t (if c.val < 8 then idAmp c (1 + f) else idMox (c - 8) (1 + f)) =
          storedOf (if c.val < 8 then idAmp c (1 + f) else idMox (c - 8) (1 + f)) v) ∧
    (∀ n : Fin 4, setpCheck s (roleOf s h.src.toNat) (orgPkt h.src) [(idMox n 7, v)] = none →
      ∃ t : State, exec (.leadCapture h n v) s = .next (answered t h stDone []) ∧ t.cfg = s.cfg ∧
        (moxOf t n).cap = if storedOf (idMox n 7) v = 0 then none else some (leadCapNew (storedOf (idMox n 7) v).toNat h.src)) ∧
    (∀ c : Fin 14,
      (setpCheck s (roleOf s h.src.toNat) (orgPkt h.src) [(idFilt c 6, v)] = none →
        ∃ t : State, exec (.phaseTicks h c v) s = .next (answered t h stDone []) ∧
          param t (idFilt c 6) = storedOf (idFilt c 6) v) ∧
      (setpCheck s (roleOf s h.src.toNat) (orgPkt h.src) [(idFilt c 7, v)] = none →
        ∃ t : State, exec (.phaseFrac h c v) s = .next (answered t h stDone []) ∧
          param t (idFilt c 7) = storedOf (idFilt c 7) v ∧
          (param s (idFilt c 7) ≠ storedOf (idFilt c 7) v →
            (filtRunning s c = true → t.seam.regQ = s.seam.regQ ++
              [regAccess s (byteOf (ctlAddr c)) (regField (regWant s (ctlAddr c)) 6 1 (storedOf (idFilt c 7) v).toNat)]) ∧
            (filtRunning s c = false → t.seam = s.seam))))

/-- CABLE_CLK, TERM, the tally windows, alarm enables and waveform sizes: the value is stored; a tally source written starts again
with an empty window, and so does a rule newly enabled. AOUT.ENABLE enables or disables the output. -/
def Obligations.UnitWrites : Prop :=
  ∀ (s : State) (h : Hdr) (v : Word), CanChange s h observer →
    (setpCheck s (roleOf s h.src.toNat) (orgPkt h.src) [(idCable, v)] = none →
      ∃ t : State, exec (.cableClk h v) s = .next (answered t h stDone []) ∧ param t idCable = storedOf idCable v) ∧
    (setpCheck s (roleOf s h.src.toNat) (orgPkt h.src) [(idTerm, v)] = none →
      ∃ t : State, exec (.ridgeTerm h v) s = .next (answered t h stDone []) ∧ param t idTerm = storedOf idTerm v) ∧
    (∀ (n : Fin 24) (window : Bool),
      setpCheck s (roleOf s h.src.toNat) (orgPkt h.src) [(if window then idTallyW n else idTallyK n, v)] = none →
      ∃ t : State, exec (.tallyWindowWrite h n window v) s = .next (answered t h stDone []) ∧
        param t (if window then idTallyW n else idTallyK n) = storedOf (if window then idTallyW n else idTallyK n) v ∧
        (tallyOf t n).win = []) ∧
    (∀ r : Fin 16, setpCheck s (roleOf s h.src.toNat) (orgPkt h.src) [(idAlarm 0 r, v)] = none →
      ∃ t : State, exec (.alarmEnable h r v) s = .next (answered t h stDone []) ∧
        param t (idAlarm 0 r) = storedOf (idAlarm 0 r) v ∧
        (param s (idAlarm 0 r) ≠ storedOf (idAlarm 0 r) v → storedOf (idAlarm 0 r) v ≠ 0 →
          (ruleOf t r).win = [] ∧ (ruleOf t r).counted = none ∧ (ruleOf t r).st = (ruleOf s r).st)) ∧
    (∀ w : Fin 16, setpCheck s (roleOf s h.src.toNat) (orgPkt h.src) [(idWave w, v)] = none →
      ∃ t : State, exec (.waveSize h w v) s = .next (answered t h stDone []) ∧
        param t (idWave w) = storedOf (idWave w) v) ∧
    (setpCheck s (roleOf s h.src.toNat) (orgPkt h.src) [(idAout 0, v)] = none →
      ∃ t : State, exec (.aoutEnable h v) s = .next (answered t h stDone []) ∧
        (storedOf (idAout 0) v ≠ 0 → t.aout.enabled = true ∧ (s.aout.enabled = false → t.aout.everOn = true ∧
          t.seam.regQ = s.seam.regQ ++ [regAccess s 0x16 (regField (regWant s 0x16) 0 0 1)])) ∧
        (storedOf (idAout 0) v = 0 → t.aout.enabled = false))

/-- LOG.POLICY is stored; LOG.FREE_TO discards every entry through the one it names, its check becoming the anchor, and one LOG_FREE
entry follows what is left. -/
def Obligations.LogbookWrites : Prop :=
  ∀ (s : State) (h : Hdr) (v : Word), CanChange s h observer →
    (setpCheck s (roleOf s h.src.toNat) (orgPkt h.src) [(idLog 0, v)] = none →
      ∃ t : State, exec (.logPolicy h v) s = .next (answered t h stDone []) ∧ param t (idLog 0) = storedOf (idLog 0) v) ∧
    (setpCheck s (roleOf s h.src.toNat) (orgPkt h.src) [(idLog 2, v)] = none → s.log.entries.length ≤ 4096 →
      ∃ (t : State) (c : Word) (rest : List Entry) (e : Entry), exec (.logFreeTo h v) s = .next (answered t h stDone []) ∧
        freeThrough s.log.entries (storedOf (idLog 2) v) = some (c, rest) ∧ t.log.anchor = c ∧ t.log.entries = rest ++ [e] ∧
        e.event = 0x000B ∧ e.origin = orgPkt h.src ∧ e.new = storedOf (idLog 2) v ∧ t.log.freeTo = storedOf (idLog 2) v)

/-! ### Unit states, reset, rights -/

/-- STATE 1 to 4 where the target is reached: the reply holds the 13 bytes of the state entered, the armed latch clears, the
configuration stays, and SAFE by request has cause bit 6. RESET 0 and 1 are answered
DONE, write one entry, leave their mode and superframe for the reset that follows the reply, and tell a partner the unit is joining (log
95: the model's choice). -/
def Obligations.StateAndResetRequests : Prop :=
  ∀ (s : State) (h : Hdr),
    (CanChange s h operator →
    ((s.u.st = .safe → safeCauses s = 0) →
      ∃ t : State, exec (.stateIdle h) s = .next (answered t h stDone (stateData t)) ∧ t.u.st = .idle ∧ t.u.armed = false ∧
        t.cfg = s.cfg) ∧
    (s.u.st = .idle ∨ s.u.st = .run ∨ s.u.st = .vigil →
      ∃ t : State, exec (.stateRun h) s = .next (answered t h stDone (stateData t)) ∧ t.u.st = .run ∧ t.u.armed = false ∧
        t.cfg = s.cfg) ∧
    (s.u.st = .run ∨ s.u.st = .vigil →
      ∃ t : State, exec (.stateVigil h) s = .next (answered t h stDone (stateData t)) ∧ t.u.st = .vigil ∧ t.u.armed = false ∧
        t.cfg = s.cfg) ∧
    (∃ t : State, exec (.stateSafe h) s = .next (answered t h stDone (stateData t)) ∧ t.u.st = .safe ∧ t.u.armed = false ∧
        t.cfg = s.cfg ∧ (s.u.st ≠ .safe → t.u.safecause = 0x0040))) ∧
    (CanChange s h keeper →
      (∃ t : State, exec (.resetCmd h) s = .next (answered t h stDone []) ∧ ResetAsked s t h 0) ∧
      ∃ t : State, exec (.resetDefaults h) s = .next (answered t h stDone []) ∧ ResetAsked s t h 1)

/-- CLAIM with the right code makes the client Keeper, GRANT gives a client a role, RELEASE makes the client an Observer; no other
client's role changes. A CLAIM of one byte answers the role. -/
def Obligations.RightsCommands : Prop :=
  ∀ (s : State) (h : Hdr),
    (CanChange s h observer →
      (∀ (role : Byte), role.toNat ≤ 3 →
        exec (.claimQuery h role) s = .next (answered s h stDone [byteOf (roleOf s h.src.toNat)])) ∧
      (∀ (code : BitVec 64), h.bcast = false → keepers s = 0 → s.rights.holdoff = 0 → codeUpper (beBytes 8 code.toNat) = s.fac.claim →
        ∃ t : State, exec (.claimCoded h 3 code) s = .next (answered t h stDone [3]) ∧ roleOf t h.src.toNat = keeper ∧
          (∀ c, c ≠ h.src.toNat → roleOf t c = roleOf s c) ∧ t.u = s.u ∧ t.cfg = s.cfg) ∧
      (∃ t : State, exec (.release h) s = .next (answered t h stDone []) ∧ roleOf t h.src.toNat = observer ∧
          (∀ c, c ≠ h.src.toNat → roleOf t c = roleOf s c) ∧ t.u = s.u ∧ t.cfg = s.cfg)) ∧
    (CanChange s h keeper → ∀ (client role : Byte), 1 ≤ client.toNat → client.toNat ≤ 125 → role.toNat ≤ 3 →
      ∃ t : State, exec (.grant h client role) s = .next (answered t h stDone []) ∧ roleOf t client.toNat = role.toNat ∧
        (∀ c, c ≠ client.toNat → roleOf t c = roleOf s c) ∧ t.u = s.u ∧ t.cfg = s.cfg)

/-- A CLAIM with a wrong code is DENIED, counts one failed comparison, starts the hold-off of 1 000 superframes and writes one
CMD_REJECT entry; no role changes. A packet of a client whose role is below the opcode's minimum changes nothing but its own record:
DENIED, with one entry. -/
def Obligations.DeniedRequests : Prop :=
  ∀ (s : State) (h : Hdr), CanChange s h observer → h.bcast = false → s.log.entries.length < 4096 →
    (∀ (role : Byte) (code : BitVec 64), keepers s = 0 → s.rights.holdoff = 0 → codeUpper (beBytes 8 code.toNat) ≠ s.fac.claim →
      ∃ (t : State) (e : Entry), exec (.claimCoded h role code) s = .next (answered t h stDenied []) ∧
        t.rights.roles = s.rights.roles ∧ t.rights.holdoff = 1000 ∧ t.rights.claimFails = s.rights.claimFails + 1 ∧
        t.log.entries = s.log.entries ++ [e] ∧ e.event = 0x0011 ∧ e.origin = orgPkt h.src) ∧
    (∀ client role : Byte, roleOf s h.src.toNat < keeper →
      ∃ (t : State) (e : Entry), exec (.grant h client role) s = .next (answered t h stDenied []) ∧
        t = { s with log := t.log } ∧ t.log.entries = s.log.entries ++ [e] ∧ e.event = 0x0011 ∧
        e.old = natW (0x09 * 256 + h.seq.toNat) ∧ e.new = natW stDenied)

/-! ### Logbook and time -/

/-- LOGMARK writes one entry with its mark and value and answers the entry's number. -/
def Obligations.LogmarkWritesItsEntry : Prop :=
  ∀ (s : State) (h : Hdr) (mark : BitVec 16) (value : Word), CanChange s h operator → s.log.entries.length < 4096 →
    ∃ (t : State) (e : Entry), exec (.logmark h mark value) s = .next (answered t h stDone (beBytes 4 s.log.nextSeq.toNat)) ∧
      t = { s with log := t.log } ∧ t.log.entries = s.log.entries ++ [e] ∧ e.seq = s.log.nextSeq ∧ e.origin = orgPkt h.src ∧
      e.event = 0x000D ∧ e.subject = mark ∧ e.new = value ∧ e.check = chainCheck s.log.newestCheck e

/-- A full Logbook. Under WRAP an entry discards the oldest, whose check becomes the anchor; under STOP a changing packet that would
write an entry is LOCKED: nothing but its own record and reply changes. -/
def Obligations.FullLogbook : Prop :=
  ∀ (s : State) (h : Hdr) (mark : BitVec 16) (value : Word),
    (∀ (o : Entry) (rest : List Entry), CanChange s h operator → s.log.entries = o :: rest → rest.length = 4095 →
      (s.log.overwritten + 1) % 4096 ≠ 0 →
      ∃ (t : State) (e : Entry), exec (.logmark h mark value) s = .next (answered t h stDone (beBytes 4 s.log.nextSeq.toNat)) ∧
        t = { s with log := t.log } ∧ t.log.entries = rest ++ [e] ∧ e.event = 0x000D ∧ t.log.anchor = o.check ∧
        t.log.overwritten = s.log.overwritten + 1) ∧
    (CanQuery s h → (∀ d, aget s.cmd.dups h.src.toNat = some d → d.seq ≠ h.seq) → operator ≤ roleOf s h.src.toNat →
      stopPolicy s = true → 4096 ≤ s.log.entries.length →
      exec (.logmark h mark value) s = .next (answered s h stLocked []))

/-- TIMESET in order: the first mapping takes its offset at once; a backward step and a large forward one do so too, the backward one with
a new era; a small forward step is slewed, its first tick 2 000 ticks later; an equal one leaves the offset, and changes nothing where no
slew runs, while of a running slew it cancels what is left. -/
def Obligations.TimesetMaps : Prop :=
  ∀ (s : State) (h : Hdr) (wall : BitVec 64) (tick : BitVec 48), CanChange s h keeper → s.ring.hdr = .good →
    s.ring.timeset = true → s.t.unaligned = false → s.ring.orphan = false → wall.toNat < 2 ^ 63 → tick ≠ BitVec.allOnes 48 →
    let new : Int := 512 * (wall.toNat : Int) - tick.toNat
    (s.t.off = none → ∃ t : State, exec (.timeset h wall tick) s = .next (answered t h stDone []) ∧
      t.t.off = some new ∧ t.t.era = s.t.era ∧ t.t.slewLeft = 0) ∧
    (∀ o : Int, s.t.off = some o → new < o → ∃ t : State, exec (.timeset h wall tick) s = .next (answered t h stDone []) ∧
      t.t.off = some new ∧ t.t.era = s.t.era + 1 ∧ t.t.slewLeft = 0) ∧
    (∀ o : Int, s.t.off = some o → o < new → new ≤ o + 1024 →
      ∃ t : State, exec (.timeset h wall tick) s = .next (answered t h stDone []) ∧ t.t.off = some o ∧ t.t.era = s.t.era ∧
        (t.t.slewLeft : Int) = new - o ∧ t.t.slewPhase = s.t.up + 2000) ∧
    (∀ o : Int, s.t.off = some o → o + 1024 < new → ∃ t : State, exec (.timeset h wall tick) s = .next (answered t h stDone []) ∧
      t.t.off = some new ∧ t.t.era = s.t.era ∧ t.t.slewLeft = 0) ∧
    (s.t.off = some new →
      (s.t.slewLeft = 0 → exec (.timeset h wall tick) s = .next (answered s h stDone [])) ∧
      (s.t.slewLeft ≠ 0 → ∃ t : State, exec (.timeset h wall tick) s = .next (answered t h stDone []) ∧ t.t.off = some new ∧
        t.t.era = s.t.era ∧ t.t.slewLeft = 0))

/-- A slew step that is due moves the offset by one tick, and the next is 2 000 ticks later; where none is due nothing changes. -/
def Obligations.SlewStepMovesOneTick : Prop :=
  ∀ s : State,
    (∀ o : Int, s.t.off = some o → s.t.slewLeft ≠ 0 → s.t.slewPhase ≤ s.t.up →
      exec .slewStep s = .next { s with t.off := some (o + 1), t.slewLeft := s.t.slewLeft - 1, t.slewPhase := s.t.slewPhase + 2000 }) ∧
    (s.t.off = none ∨ s.t.slewLeft = 0 ∨ s.t.up < s.t.slewPhase → exec .slewStep s = .next s)

/-! ### Channels, filters, cells -/

/-- CHSTART in RUN: every named channel 0–13 that was stopped starts, in order, and all of them are started then; CHSTOP stops each
named channel. -/
def Obligations.ChannelsStartAndStop : Prop :=
  ∀ (s : State) (h : Hdr) (m : Mask), CanChange s h operator → maskVal m < 2 ^ 24 →
    (s.u.st = .run →
      (∀ c ∈ (maskList 14 (maskVal m)).filter (fun c => !(chainOf s c).started), chainDead s c = false ∧ inSnap s c = false) →
      s.sched.tasks.length + (((maskList 14 (maskVal m)).filter (fun c => !(chainOf s c).started)).filter (12 ≤ ·)).length ≤ 16 →
      ∃ t : State, exec (.chstart h m) s = .next (answered t h stDone []) ∧
        t = forEach s ((maskList 14 (maskVal m)).filter (fun c => !(chainOf s c).started)) (fun t c => chanStart t c (orgPkt h.src)) ∧
        ∀ c ∈ maskList 14 (maskVal m), (chainOf t c).started = true) ∧
    ∃ t : State, exec (.chstop h m) s = .next (answered t h stDone []) ∧
      t = forEach s (maskList 14 (maskVal m)) (fun t c => chanCommandStop t c (orgPkt h.src))

/-- SNAP of stopped channels 0–11 in RUN is accepted as one task, and each channel begins one conversion. -/
def Obligations.SnapIsATask : Prop :=
  ∀ (s : State) (h : Hdr) (m : Mask), CanChange s h operator → s.u.st = .run → maskVal m < 2 ^ 24 →
    maskList 14 (maskVal m) = maskList 12 (maskVal m) → maskList 12 (maskVal m) ≠ [] →
    (∀ c ∈ maskList 12 (maskVal m), filtRunning s c = false ∧ chainDead s c = false) → s.sched.tasks.length < 16 →
    exec (.snap h m) s = .next (answered (forEach (taskNew s 0x17 .keep (orgPkt h.src) (.snap (BitVec.ofNat 64 (maskVal m % 2 ^ 12))))
      (maskList 12 (maskVal m)) snapStart) h stAccepted [byteOf (nextTaskNum s)])

/-- RANGE asks the front end of a started channel for another range, by one control-register write, which waits while the write of its
start is on its way; the active range (that of a start on its way, else the one in force) is answered with no change. -/
def Obligations.RangeAsksOnce : Prop :=
  ∀ (s : State) (h : Hdr) (n rg : Byte), CanChange s h operator → s.u.st = .run → n.toNat < 12 → rg.toNat ≤ 5 →
    (chainOf s n.toNat).started = true →
    (rangerOn s n.toNat = true → rangerMin s n.toNat ≤ rg.toNat ∧ rg.toNat ≤ rangerMax s n.toNat) →
    (rg.toNat = activeRange s n.toNat → exec (.range h n rg) s = .next (answered s h stDone [])) ∧
    (rg.toNat ≠ activeRange s n.toNat →
      ∃ t : State, exec (.range h n rg) s = .next (answered t h stDone []) ∧
        (frontOf t n.toNat).range = (frontOf s n.toNat).range ∧
        (let q : RangeReq := { range := rg.toNat, origin := orgPkt h.src, auto := false, reset := false, start := false }
         ((∀ p : RangeReq, (frontOf s n.toNat).req = some p → p.start = false) →
           (frontOf t n.toNat).req = some q ∧ t.seam.regQ.getLast? = some (regAccess s (byteOf (ctlAddr n.toNat))
             (holdWord (regWant s (ctlAddr n.toNat)) n.toNat rg.toNat))) ∧
         (∀ p : RangeReq, (frontOf s n.toNat).req = some p → p.start = true →
           (frontOf t n.toNat).later = some q ∧ t.seam = s.seam)))

/-- STREAM with a mask sets mask and divider, with bits 14–17 ignored, and starts every divider count again; with none it stops streaming. DCFREEZE freezes
or frees the named estimates. SYNCNOW answers the present tick, and the reference tick of every response is this one. -/
def Obligations.StreamFreezeSync : Prop :=
  ∀ (s : State) (h : Hdr) (m : Mask), CanChange s h operator → s.u.st = .run →
    (∀ d : BitVec 16, maskVal m < 2 ^ 24 → d ≠ 0 →
      exec (.stream h m d) s = .next (answered { s with stream := if maskVal m &&& 0xFC3FFF = 0
        then { s.stream with mask := 0, div := 0, st := .off, count := Vector.replicate 24 0 }
        else { s.stream with mask := BitVec.ofNat 24 (maskVal m &&& 0xFC3FFF), div := d.toNat, st := .on, count := Vector.replicate 24 0 } } h stDone [])) ∧
    (∀ f : Byte, maskVal m < 2 ^ 14 → f.toNat ≤ 1 →
      ∃ t : State, exec (.dcfreeze h m f) s = .next (answered t h stDone []) ∧
        (∀ c ∈ maskList 14 (maskVal m), (chainOf t c).frozen = (f == 1)) ∧
        (∀ c : Nat, c ∉ maskList 14 (maskVal m) → chainOf t c = chainOf s c)) ∧
    (s.ty = s.t.up → s.t.up ≠ 0 → exec (.syncnow h) s = .next (answered s h stDone (beBytes 6 s.t.count.toNat))) ∧
    (s.ty ≠ s.t.up → ∃ t : State, exec (.syncnow h) s = .next (answered t h stDone (beBytes 6 s.t.count.toNat)) ∧ t.ty = s.t.up ∧
      t.cfg = s.cfg)

/-- FIRLOAD stores half-coefficients in a set that no running channel uses; FIRSEL gives a stopped channel a response and a set. -/
def Obligations.ResponsesLoadAndSelect : Prop :=
  ∀ (s : State) (h : Hdr), CanChange s h tuner → s.u.st ≠ .vigil →
    (∀ (set : Fin 16) (first : Byte) (co : List (BitVec 24)), 1 ≤ co.length → co.length ≤ 78 →
      first.toNat ≤ (s.usets[set]).length → first.toNat + co.length ≤ 128 → usetInUse s set = false →
      ∃ t : State, exec (.firload h (byteOf set) first co) s = .next (answered t h stDone []) ∧
        t = { s with usets := t.usets, log := t.log } ∧ t.usets[set] = (s.usets[set]).take first.toNat ++ co ∧
        ∀ k : Fin 16, k ≠ set → t.usets[k] = s.usets[k]) ∧
    (∀ (ch : Fin 14) (ix : Fin 8) (set : Fin 16), filtRunning s ch = false → (ix.val = 7 → s.usets[set] ≠ []) →
      (ix.val = 4 → pNat s (idFilt ch 0) = 3) →
      ∃ t : State, exec (.firsel h (byteOf ch) (byteOf ix) (byteOf set)) s = .next (answered t h stDone []) ∧
        t = { s with cfg := t.cfg, log := t.log } ∧ pNat t (idFilt ch 1) = ix ∧ pNat t (idFilt ch 2) = set)

/-- BIAS of a cell in the state asked for, or heading for it, is DONE and changes nothing, and the opposite of a task that still runs
is BUSY; otherwise it is accepted as a task, and a shorted cell takes step 1 of its enabling while an open one ramps its bias to 0 V,
or goes on at once where it is there. -/
def Obligations.BiasCommands : Prop :=
  ∀ (s : State) (h : Hdr) (k : Fin 4), CanChange s h operator → s.u.st = .run →
    (cellOn s k = true → exec (.biasEnable h (byteOf k)) s = .next (answered s h stDone [])) ∧
    (cellOn s k = false → exec (.biasDisable h (byteOf k)) s = .next (answered s h stDone [])) ∧
    (h.bcast = false → (s.cell[k]).task ≠ 0 →
      (cellOn s k = false → exec (.biasEnable h (byteOf k)) s = .next (answered s h stBusy [])) ∧
      (cellOn s k = true → exec (.biasDisable h (byteOf k)) s = .next (answered s h stBusy []))) ∧
    ((s.cell[k]).step = .shorted → (s.cell[k]).task = 0 → s.sched.tasks.length < 16 →
      ∃ t : State, exec (.biasEnable h (byteOf k)) s = .next (answered t h stAccepted [byteOf (nextTaskNum s)]) ∧
        (t.cell[k]).step = .opening 1 ∧ (t.cell[k]).task = nextTaskNum s ∧ biasHanded t k = 8192) ∧
    ((s.cell[k]).step = .open_ → (s.cell[k]).task = 0 → s.sched.tasks.length < 16 → zCell s k = false → isPlaying s (k + 1) = false →
      let v : Rat := if (s.cell[k]).ramping = true ∧ (s.cell[k]).suspended = false then rampAfter s k (s.t.up - (s.cell[k]).rampAt)
        else (s.cell[k]).target
      ∃ t : State, exec (.biasDisable h (byteOf k)) s = .next (answered t h stAccepted [byteOf (nextTaskNum s)]) ∧
        (t.cell[k]).task = nextTaskNum s ∧ cellGoal t k = 0 ∧
        (v ≠ 0 → (t.cell[k]).step = .closing 1 ∧ (t.cell[k]).ramping = true ∧ (t.cell[k]).rampFrom = v ∧
          (t.cell[k]).rampAt = s.t.up) ∧
        (v = 0 → (t.cell[k]).step = .closing 2 ∧ (t.cell[k]).ramping = false))

/-! ### Loads, Tripwire, alarms, outputs -/

/-- HEATSTOP leaves none of the named heaters running; PROFLOAD stores steps of a profile that no heater runs, their
reserved byte as 0. -/
def Obligations.HeaterCommands : Prop :=
  ∀ (s : State) (h : Hdr),
    (CanChange s h operator → ∀ m : Byte, m.toNat < 16 →
      ∃ t : State, exec (.heatstop h m) s = .next (answered t h stDone []) ∧
        (∀ n : Fin 4, bit m.toNat n = true → htrRunning t n = false) ∧ t.cfg = s.cfg) ∧
    (CanChange s h tuner → s.u.st ≠ .vigil → ∀ (p : Fin 16) (first : Byte) (ss : List (BitVec 64)), 1 ≤ ss.length →
      ss.length ≤ 29 → first.toNat ≤ 31 → first.toNat + ss.length ≤ 32 → ss.all stepOk = true → profInUse s p = false →
      ∃ t : State, exec (.profload h (byteOf p) first ss) s = .next (answered t h stDone []) ∧
        t = { s with profiles := t.profiles, log := t.log } ∧
        t.profiles[p] = (s.profiles[p]).take first.toNat ++ ss.map stKept ++ (s.profiles[p]).drop (first.toNat + ss.length) ∧
        ∀ k : Fin 16, k ≠ p → t.profiles[k] = s.profiles[k])

/-- TRIPARM arms exactly the slots of its mask; TRIPDISARM disarms those of its mask, and with none left the Tripwire is DISARMED;
TRIPFORCE takes a trigger of the named slot, and the Tripwire is DEAD. CAPCLEAR discards every record; with the Tripwire DISARMED
capture is EMPTY, otherwise a new segment of the session is RECORDING. -/
def Obligations.TripwireCommands : Prop :=
  ∀ (s : State) (h : Hdr), CanChange s h operator →
    (∀ (m : Byte) (armId : BitVec 16), s.u.st = .run → m ≠ 0 → (∀ i ∈ maskList 8 m.toNat, slotFit s i = true) →
      armBusy s armId = false →
      ∃ t : State, exec (.triparm h m armId) s = .next (answered t h stDone []) ∧ t.trip.st = .armed ∧ t.trip.armed = m ∧
        t.trip.armId = armId) ∧
    (∀ m : Byte,
      ∃ t : State, exec (.tripdisarm h m) s = .next (answered t h stDone []) ∧ t.trip.armed = s.trip.armed &&& ~~~m ∧
        (s.trip.armed ≠ 0 → s.trip.armed &&& ~~~m = 0 → t.trip.st = .disarmed) ∧
        (s.trip.armed &&& ~~~m ≠ 0 → t.trip.st = s.trip.st)) ∧
    (∀ i : Fin 8, s.u.st = .run → s.trip.st = .armed →
      ∃ t : State, exec (.tripforce h (byteOf i)) s = .next (answered t h stDone []) ∧ t.trip.st = .dead ∧
        t.trip.triggers = s.trip.triggers + 1 ∧ t.trip.recogAt = s.t.up ∧ t.trip.missed = 0 ∧ t.trip.armed = s.trip.armed) ∧
    (∃ t : State, exec (.capclear h) s = .next (answered t h stDone []) ∧ t.capt.recs = [] ∧ t.capt.prot = 0 ∧
      (s.trip.st = .disarmed → t.capt.phase = .empty ∧ t.capt.fifo = []) ∧
      (s.trip.st ≠ .disarmed → t.capt.phase = .recording))

/-- ALARMACK clears every LATCHED rule of its mask and no other, and where there is none it changes nothing; TALLYCLEAR empties the window and releases the latch of the named
source, or of all with 0xFF. -/
def Obligations.AlarmAndTallyCommands : Prop :=
  ∀ (s : State) (h : Hdr), CanChange s h operator →
    (∀ m : BitVec 16, ∃ t : State, exec (.alarmack h m) s = .next (answered t h stDone []) ∧
      ∀ r : Fin 16, (t.alarm[r]).st = if bit m.toNat r = true ∧ (s.alarm[r]).st = .latched then .clear else (s.alarm[r]).st) ∧
    (∀ m : BitVec 16, (∀ r : Fin 16, bit m.toNat r = true → (s.alarm[r]).st ≠ .latched) →
      exec (.alarmack h m) s = .next (answered s h stDone [])) ∧
    (∀ i : Fin 24, ∃ t : State, exec (.tallyclear h (byteOf i)) s = .next (answered t h stDone []) ∧
      (t.tally[i]).win = [] ∧ (t.tally[i]).lasting = false ∧ ∀ j : Fin 24, j ≠ i → t.tally[j] = s.tally[j]) ∧
    (∃ t : State, exec (.tallyclear h 0xFF) s = .next (answered t h stDone []) ∧
      ∀ i : Fin 24, (t.tally[i]).win = [] ∧ (t.tally[i]).lasting = false)

/-- AOUTSET stores the code of a static output; AOUTRANGE stores the range of a disabled one and writes it to the field register. WAVELOAD
stores points of a waveform that plays nowhere; WAVEPLAY starts it on a ready target at its first point; WAVESTOP leaves its
target idle. -/
def Obligations.OutputCommands : Prop :=
  ∀ (s : State) (h : Hdr),
    (CanChange s h operator → s.u.st = .run → isPlaying s 0 = false → ∀ c : BitVec 16,
      ∃ t : State, exec (.aoutset h c) s = .next (answered t h stDone []) ∧ t.aout = { s.aout with code := c } ∧
        t = { s with aout := t.aout, log := t.log }) ∧
    (CanChange s h tuner → s.u.st ≠ .vigil → s.aout.enabled = false → ∀ r : Fin 5,
      ∃ t : State, exec (.aoutrange h (byteOf r)) s = .next (answered t h stDone []) ∧ t.aout = { s.aout with range := r } ∧
        (s.aout.range ≠ r →
          t.seam.regQ = s.seam.regQ ++ [regAccess s 0x16 (regField (regWant s 0x16) 3 1 r)])) ∧
    (CanChange s h tuner → s.u.st ≠ .vigil → ∀ (w : Fin 16) (first : BitVec 16) (ps : List (BitVec 16)), 1 ≤ ps.length →
      ps.length ≤ 118 → first.toNat ≤ (s.wave.points[w]).length → first.toNat + ps.length ≤ waveSize s w → waveBusy s w = false →
      ∃ t : State, exec (.waveload h (byteOf w) first ps) s = .next (answered t h stDone []) ∧
        t = { s with wave := t.wave, log := t.log } ∧ t.wave.points[w] = (s.wave.points[w]).take first.toNat ++ ps ∧
        ∀ k : Fin 16, k ≠ w → t.wave.points[k] = s.wave.points[k]) ∧
    (CanChange s h operator → s.u.st = .run → ∀ (w : Fin 16) (g : Fin 5) (period repeats : BitVec 16), playReady s g = true →
      period ≠ 0 → s.wave.points[w] ≠ [] → (g.val ≠ 0 → zCell s (g - 1) = false) →
      ∃ t : State, exec (.waveplay h (byteOf w) (byteOf g) period repeats) s = .next (answered t h stDone []) ∧
        t.wave.play[g] = { st := .playing, wave := w, point := 0, passes := repeats.toNat, period := period.toNat,
                           due := s.t.up + period.toNat }) ∧
    (CanChange s h operator → ∀ g : Fin 5,
      ∃ t : State, exec (.wavestop h (byteOf g)) s = .next (answered t h stDone []) ∧ (t.wave.play[g]).st = .idle)

/-! ### Pairs -/

/-- TWINJOIN of an adjacent partner is accepted as a task, and the pole link becomes active. TWINSPLIT at the lead of a pair sends the
tail its SPLIT and waits for p = 0, where it splits the pair; at a unit in neither a pair nor a join it changes nothing. -/
def Obligations.TwinCommands : Prop :=
  ∀ (s : State) (h : Hdr),
    (∀ (mode partner : Byte), CanChange s h tuner → s.u.st = .idle ∨ s.u.st = .run → s.twin.join = none →
      mode.toNat = 1 ∨ mode.toNat = 2 → partner.toNat = s.ring.peg + 1 ∨ partner.toNat + 1 = s.ring.peg → 1 ≤ partner.toNat →
      partner.toNat ≤ 60 → s.sched.tasks.length < 16 → joinRefused s mode.toNat = false →
      ∃ t : State, exec (.twinjoin h mode partner) s = .next (answered t h stAccepted [byteOf (nextTaskNum s)]) ∧
        t.twin.active = true ∧ t.twin.mode = 0 ∧ t.sched.tasks.length = s.sched.tasks.length + 1 ∧
        ∃ j : Join, t.twin.join = some j ∧ j.mode = mode.toNat ∧ j.task = nextTaskNum s ∧ j.since = s.t.sf ∧
          j.lead = decide (partner.toNat = s.ring.peg + 1)) ∧
    (alive s = true → s.twin.mode = 1 ∨ s.twin.mode = 2 → h.bcast = false → 1 ≤ h.src.toNat → h.src.toNat ≤ 125 →
      repliesFull s = false → (∀ d, aget s.cmd.dups h.src.toNat = some d → d.seq ≠ h.seq) → tuner ≤ roleOf s h.src.toNat →
      stopPolicy s = false →
      (s.cmd.taken = [] → exec (.twinsplit h) s = .next (awaiting (twinSend s 0x0E [0]) h 0x41 [])) ∧
      ∃ t : State, execTaken s { pkt := rowPkt h 0x41 [], verdict := none, fwd := none } = answered t h stDone [] ∧
        t.twin.mode = 0 ∧ t.twin.partner = 0 ∧ t.twin.active = false ∧ t.twin.byRequest = true ∧ t.u = s.u ∧ t.cfg = s.cfg) ∧
    (CanChange s h tuner → s.twin.join = none → exec (.twinsplit h) s = .next (answered s h stDone []))

/-! ### Long requests and NV -/

/-- A long request waits for the Scheduler's first decision: that is its packet's effect. With the decision's grant it is ACCEPTED and
its task stands granted in the table. -/
def Obligations.LongRequestsStartTasks : Prop :=
  ∀ (s : State) (h : Hdr), s.sched.tasks.length < 16 →
    (CanChange s h operator → sealRuns s = false →
      exec (.logseal h) s = .next (awaiting s h 0x0D []) ∧ GrantStarts s h 0x0D [] (.sealLog false)) ∧
    (CanChange s h operator → s.u.st = .idle →
      exec (.stateDormant h) s = .next (awaiting s h 0x05 [0]) ∧ GrantStarts s h 0x05 [0] (.sealLog true)) ∧
    (CanChange s h operator → s.u.st = .run → ∀ (n : Fin 4) (p : Fin 16), (htrOf s n).fault = false →
      stMode (profStep s p 0) ≠ 0 → htrRunning s n = false →
      exec (.heatrun h (byteOf n) (byteOf p)) s = .next (awaiting s h 0x28 [byteOf n, byteOf p]) ∧
      GrantStarts s h 0x28 [byteOf n, byteOf p] (.profile n)) ∧
    (CanChange s h operator → s.u.st = .run → ∀ n : Fin 4, pNat s (idHtr n 0) = 1 → (htrOf s n).fault = false →
      htrRunning s n = false →
      exec (.leadcal h (byteOf n)) s = .next (awaiting s h 0x2B [byteOf n]) ∧ GrantStarts s h 0x2B [byteOf n] (.leadcal n)) ∧
    (CanChange s h operator → s.u.st = .run → ∀ m : Mask, maskVal m ≠ 0 → maskVal m < 2 ^ 14 →
      (∀ c ∈ maskChans (maskVal m), (chainOf s c).started = true) → (∃ c ∈ maskChans (maskVal m), zBusy s c = false) →
      exec (.zcheck h m) s = .next (awaiting s h 0x2C (maskBytes m)) ∧
      GrantStarts s h 0x2C (maskBytes m) (.zcheck (BitVec.ofNat 64 (maskVal m)))) ∧
    (CanChange s h keeper → s.u.st ≠ .vigil → nvTaskRuns s = false → ∀ m : Byte, 1 ≤ m.toNat → m.toNat ≤ 3 →
      (exec (.nvsave h m) s = .next (awaiting s h 0x44 [m]) ∧ GrantStarts s h 0x44 [m] (.nvsave m.toNat)) ∧
      ((bit m.toNat 0 = true → loadLocked s 1 = false) → (bit m.toNat 1 = true → loadLocked s 2 = false) →
        exec (.nvload h m) s = .next (awaiting s h 0x45 [m]) ∧ GrantStarts s h 0x45 [m] (.nvload m.toNat))) ∧
    (CanChange s h keeper → s.u.st ≠ .vigil → ∀ (c : Fin 14) (g o : Word), calOk g (1 / 2) 2 = true →
      calOk o (-1048576) 1048576 = true →
      exec (.calwrite h (byteOf c) g o) s = .next (awaiting s h 0x46 (byteOf c :: (beBytes 4 g.toNat ++ beBytes 4 o.toNat))) ∧
      GrantStarts s h 0x46 (byteOf c :: (beBytes 4 g.toNat ++ beBytes 4 o.toNat)) (.calwrite c (f32Flush g) (f32Flush o)))

/-- An NV write that comes to a good end: NVSAVE stores the images fixed at its start, CALWRITE the channel's calibration, the
rights record the roles, a seal the entries fixed at its start; STATE DORMANT's seal arms the unit. NV_LOAD_APPLY at p = 0: the
copies replace every profile, and a configuration image that holds the present values changes none of them. -/
def Obligations.NvTasksEnd : Prop :=
  (∀ (s : State) (k : TaskRec) (c : CfgImage × CopyImage), s.nv.staged = some c →
    (nvTask s 1 = some k → ∀ m : Nat, k.obj = .nvsave m →
      ∃ t : State, exec (.nvsaveDone false true) s = .next t ∧ t.nv.cfg = .good c.1 ∧ t.nv.nvwConfig = s.nv.nvwConfig + 1 ∧
        t.ring.savedPeg = c.1.peg ∧ t.ring.savedHop = c.1.hop ∧ t.nv.writing = (if bit m 1 then some (2, k.num) else none)) ∧
    (nvTask s 2 = some k → ∀ m : Nat, k.obj = .nvsave m →
      ∃ t : State, exec (.nvsaveDone true true) s = .next t ∧ t.nv.copies = .good c.2 ∧ t.nv.nvwCopies = s.nv.nvwCopies + 1 ∧
        t.nv.writing = none ∧ t.nv.cfg = s.nv.cfg) ∧
    (nvTask s 1 = some k → ∀ (ch : Fin 14) (g o : Word), k.obj = .calwrite ch g o →
      ∃ t : State, exec (.calwriteDone true) s = .next t ∧ (t.chain[ch]).gain = g ∧ (t.chain[ch]).off = o ∧ t.nv.writing = none ∧
        (∀ d : Fin 14, d ≠ ch → t.chain[d] = s.chain[d]) ∧ t.cfg = s.cfg) ∧
    (nvTask s 4 = some k →
      ∃ t : State, exec (.rightsRecordWrite true) s = .next t ∧
        t.nv.rights = .good { roles := s.rights.roles, recoveries := s.rights.recoveries } ∧ t.rights = s.rights ∧
        t.nv.writing = none) ∧
    (nvTask s 3 = some k →
      (k.obj = .sealLog false → ∀ e : Entry, s.nv.sealing.getLast? = some e →
        ∃ (t : State) (d : SealDesc), exec (.logSealTask true) s = .next t ∧ t.nv.sealDesc = .good d ∧ d.seq = e.seq ∧
          t.nv.sealEnts = s.nv.sealing ∧ d.crc = sealCrc t.nv.sealEnts ∧ d.count = t.nv.sealEnts.length ∧ t.u = s.u) ∧
      (k.obj = .sealLog true → k.stage = 0 →
        ∃ t : State, exec (.dormantArm true) s = .next t ∧ t.u = { s.u with armed := true } ∧ t.nv.writing = none))) ∧
  (∀ (s : State) (k : TaskRec) (m : Nat), s.t.p = 0 → k.obj = .nvload m →
    (s.sched.tasks.find? (loadsRegion 2) = some k → loadLocked s 2 = false → ∀ i : CopyImage, s.nv.copies = .good i →
      ∃ t : State, exec (.nvLoadApply true) s = .next t ∧ t.profiles = profilesOf i.profiles ∧ t.cfg = s.cfg ∧ t.nv = s.nv) ∧
    (s.sched.tasks.find? (loadsRegion 1) = some k → loadLocked s 1 = false → ∀ i : CfgImage, s.nv.cfg = .good i →
      loadPairs s i = [] →
      ∃ t : State, exec (.nvLoadApply false) s = .next t ∧ t.cfg = s.cfg ∧ t.nv.imageCrc = cfgCrc i ∧ t.ring.savedPeg = i.peg ∧
        t.ring.savedHop = i.hop ∧ ∀ c : Fin 14, (t.chain[c]).gain = i.gains.getD c 0x3F800000))

/-! ### Boots, time, the clock and VIGIL -/

/-- A boot with a clock and a good ROM ends in IDLE, or in SAFE where step 5 found a fault, with the counter at 0 and the cause of
its reset in RCAUSE; one without a clock ends in DORMANT. -/
def Obligations.BootsAndWakes : Prop :=
  ∀ (s : State) (e : BootEnv),
    (e.cki = true ∨ e.crystal = true → e.romGood = true →
      let st : UState := if e.seamUp = true ∧ e.frev = s.fac.wantFrev then .idle else .safe
      (∃ t : State, exec (.powerOn e) s = .next t ∧ Booted t 0 st) ∧
      (∃ t : State, exec (.brownOut e) s = .next t ∧ Booted t 1 st) ∧
      (s.u.romFail = false → ∃ t : State, exec (.resetPin e) s = .next t ∧ Booted t 2 st) ∧
      (s.u.st = .dormant → (∃ t : State, exec (.wakeCki e) s = .next t ∧ Booted t 5 st) ∧
        ∃ t : State, exec (.wakePin e) s = .next t ∧ Booted t 6 st) ∧
      (∀ mode sf : Nat, alive s = true → s.t.p = 0 → s.u.resetDue = some (mode, sf) → sf < s.t.sf →
        ∃ t : State, exec (.resetStart e) s = .next t ∧ Booted t (if mode = 0 then 3 else 4) st)) ∧
    (e.cki = false → e.crystal = false → ∃ t : State, exec (.powerOn e) s = .next t ∧ t.u.st = .dormant ∧ t.cfg = [] ∧
      t.sched.tasks = []) ∧
    (s.u.armed = true → s.u.st = .idle → s.ring.clk = .backup ∨ s.ring.clk = .crystal ∧ s.t.p = 0 →
      ∃ t : State, exec .dormantEntry s = .next t ∧ t.u.st = .dormant ∧ t.u.armed = false ∧ t.cfg = [] ∧ t.sched.tasks = [])

/-- A tick advances the counter, the phase and, from phase 511, the superframe; the tick after the last count starts a new era. -/
def Obligations.TickAdvances : Prop :=
  ∀ s : State, alive s = true → s.t.fix = none →
    ∃ a : State, a.t.count = s.t.count + 1 ∧ a.t.up = s.t.up + 1 ∧ a.t.p = (if s.t.p = 511 then 0 else s.t.p + 1) ∧
      a.t.sf = (if s.t.p = 511 then s.t.sf + 1 else s.t.sf) ∧
      (s.t.count ≠ BitVec.allOnes 48 → a.t.era = s.t.era) ∧ (s.t.count = BitVec.allOnes 48 → a.t.era = s.t.era + 1) ∧
      exec .tick s = .next (if s.t.p = 511 then superframeBegin a else if tailAskDue a = true then tailAsk a else a) ∧
      (s.t.count = BitVec.allOnes 48 →
        exec .counterWrap s = .next (if s.t.p = 511 then superframeBegin a else if tailAskDue a = true then tailAsk a else a))

/-- The backup oscillator takes over at a missing edge, with the ORPHAN condition, and gives back at the return of the selected
clock; in the ORPHAN condition beacons are originated. -/
def Obligations.ClockLossAndReturn : Prop :=
  ∀ s : State, alive s = true →
    (s.ring.clk ≠ .backup → ∃ t : State, exec .missingEdge s = .next t ∧ t.ring.clk = .backup ∧ t.ring.orphan = true ∧
      t.seam.cut = true ∧ t.seam.switches = s.seam.switches + 1 ∧ (s.ring.orphan = false → t.t.unaligned = true)) ∧
    (s.ring.clk = .backup → ∃ t : State, exec .clockReturn s = .next t ∧ t.ring.clk = s.ring.selected ∧ t.seam.cut = true ∧
      t.seam.switches = s.seam.switches + 1 ∧ (s.ring.selected = .crystal → t.ring.orphan = false)) ∧
    (s.t.p = 0 → s.ring.clk = .backup → s.u.armed = false → ∃ t : State, exec .orphanBeacon s = .next t ∧
      t.out.beacon = beaconOf t ∧ t.ring.beaconing = true ∧
      t.ring.beaconSfn = (if s.ring.beaconing then s.ring.beaconSfn + 1
        else s.ring.lastSfn + BitVec.ofNat 32 (s.t.sf - s.ring.sfnSf))) ∧
    (s.t.p = 0 → s.ring.clk = .cki → s.ring.lock ≠ .locked → s.u.armed = false → s.ring.unlockedAt + 32 * 512 ≤ s.t.up →
      ∃ t : State, exec .dataLossBeacon s = .next t ∧ t.ring.orphan = true ∧ t.ring.dataLoss = true ∧ t.ring.beaconing = true ∧
        t.out.beacon = beaconOf t ∧ t.out.window = List.replicate 512 0 ∧ t.out.region = List.replicate 1472 0 ∧ t.out.lane = none)

/-- The claim hold-off ends, a WAKE in VIGIL waits for p = 0, and a sentinel burst runs from its p = 0 until its last chain has
emitted. -/
def Obligations.VigilAndHoldoffEvents : Prop :=
  ∀ s : State,
    (s.rights.holdEnd = true → exec .claimHoldoffEnd s = .next { s with rights := { s.rights with holdoff := 0, holdEnd := false } }) ∧
    (s.u.st = .vigil → exec .wakeInVigil s = .next { s with vigil.wakeDue := true }) ∧
    (burstDue s = true → s.vigil.burst = none → ∃ t : State, exec .sentinelBurst s = .next t ∧ t.vigil.burst = some s.t.up ∧
      t.vigil.rotation = (s.vigil.rotation + 1) % 6 ∧ t.hk.monitor = s.vigil.rotation ∧ t.u = s.u ∧ t.cfg = s.cfg) ∧
    (∀ u : Nat, burstDue s = true → s.vigil.burst = some u → u ≠ s.t.up →
      exec .sentinelBurst s = .next { s with sched.skipped := s.sched.skipped + 1 }) ∧
    (s.u.st = .vigil → s.vigil.burst.isSome = true → s.vigil.waiting = 0 →
      exec .sentinelBurstEnd s = .next { s with vigil.burst := none })

/-! ### The Seam -/

/-- What the field die does on its own: it loses its registers with VDDA, and its drivers with the Seam clock or after 256 ticks
without a good frame; at p = 0 it applies the drive words received. -/
def Obligations.FieldDieEvents : Prop :=
  ∀ s : State,
    (∃ f : FieldSt, exec .fieldDieReset s = .next { s with fd := f } ∧ f.vdda = false ∧ f.frst = true ∧
      f.regs = Vector.replicate 24 0 ∧ f.htrOn = 0 ∧ f.excOn = 0) ∧
    (s.fd.vdda = false → ∃ f : FieldSt, exec .vddaReturn s = .next { s with fd := f } ∧ f.vdda = true ∧ f.frst = true ∧
      f.regs = Vector.replicate 24 0) ∧
    (∀ b : Bool, exec (.vhtrPresentChange b) s = .next { s with fd.vhtr := b }) ∧
    (∀ b : Bool, exec (.vdrvPresentChange b) s = .next { s with fd.vdrv := b }) ∧
    (256 ≤ s.fd.gap → exec .downFrameTimeout s = .next { s with fd := { s.fd with htrOn := 0, excOn := 0 } }) ∧
    exec .sckLoss s = .next { s with fd := { s.fd with htrOn := 0, excOn := 0 } } ∧
    (s.t.p = 0 → exec .housekeepingStep s = .next { s with
      fd.hkIndex := if (vget s.fd.regs 0x17 0).getLsbD 0 then (s.fd.hkIndex + 1) % 6 else s.fd.hkIndex }) ∧
    (s.t.p = 0 → ∃ t : State, exec .driveWordApply s = .next t ∧ t.fd.copies = Vector.replicate 6 none ∧
      (∀ i : Fin 6, t.fd.drive[i] = (s.fd.copies[i]).getD (s.fd.drive[i])) ∧ t.cfg = s.cfg)

/-- What a frame carries is what its receiver reads: every down frame whose cells and drive pair are in range parses back, with its
AOUT code and a good CRC; an up frame without errors passes its CRC and carries the codes and FLAGS of its decision tick and its
rotation byte. -/
def Obligations.FrameCodecs : Prop :=
  (∀ (a : BitVec 16) (f : DownFrame), frameOk f = true →
    downParse (downWord a f) = f ∧ BitVec.ofNat 16 ((downWord a f).toNat / 2 ^ 48) = a ∧
      crc8 (beBytes 7 ((downWord a f).toNat / 256)) = (downWord a f).toNat % 256) ∧
  (∀ (codes : BitVec 92) (flags : BitVec 8) (stat : Nat), stat < 256 →
    let f := upFrame codes flags.toNat stat 0
    upGood f = true ∧ BitVec.ofNat 92 (f.toNat / 2 ^ 36) = codes ∧ BitVec.ofNat 8 (f.toNat / 2 ^ 28) = flags ∧
      f.toNat / 2 ^ 20 % 256 = stat)

/-- The frames of a tick: the drive words, a register write and a front end's release leave the core die as the rules say; the field
die takes a received drive pair and register write at the next tick; an up frame is taken where its CRC holds, else it fails, and
while the Seam is not up it counts toward its sixteen. -/
def Obligations.SeamFrames : Prop :=
  ∀ s : State, alive s = true →
    (seamRuns s = true → s.seam.up = true → ∀ err : BitVec 64,
      (506 ≤ s.t.p →
        let k := (s.t.p - 506) % 3
        exec (.downFrame err) s =
          .next (sentDown s (.drive k (vget s.seam.drive (2 * k) 0) (vget s.seam.drive (2 * k + 1) 0)) err)) ∧
      (s.t.p % 8 = 3 → s.t.p < 506 → releaseFront s = none →
        ∀ (acc : RegAcc) (rest : List RegAcc), s.seam.regQ = acc :: rest → acc.at_ < s.t.up → acc.read = false → acc.tries = 0 →
          acc.addr.toNat < 24 → ∃ t : State, exec (.downFrame err) s = .next (sentDown t (.reg false acc.addr acc.data) err) ∧
            t = { s with seam := t.seam } ∧ vget t.seam.sent acc.addr.toNat 0 = acc.data ∧
            t.seam.regQ.head? = some { acc with read := true, tries := 1, alts := [] }) ∧
      (s.t.p % 8 = 3 → s.t.p < 506 → ∀ n : Nat, releaseFront s = some n →
        ∃ t : State, exec (.downFrame err) s = .next (sentDown t (.reg false (byteOf (ctlAddr n))
            (freeWord (regWant s (ctlAddr n)) n (frontOf s n).range)) err) ∧
          (frontOf t n).relSent = true ∧ (frontOf t n).range = (frontOf s n).range)) ∧
    (s.t.p < 511 → s.t.count ≠ BitVec.allOnes 48 → s.twin.mode ≠ 3 → s.seam.cut = false → ∀ (c : BitVec 16) (f : DownFrame),
      frameOk f = true → s.fd.inbox = .good (downWord c f) →
      ∃ t : State, exec .tick s = .next t ∧ t.fd.gap = 0 ∧ t.fd.aout = c ∧ t.fd.inbox = .none ∧
        (∀ (k : Nat) (lo hi : BitVec 16), k < 3 → f = .drive k lo hi →
          vget t.fd.copies (2 * k) none = some (driveTaken k lo) ∧ vget t.fd.copies (2 * k + 1) none = some (driveTaken k hi)) ∧
        (∀ (a : Byte) (d : BitVec 16), a.toNat < 24 → f = .reg false a d → vget t.fd.regs a.toNat 0 = d)) ∧
    (∀ (u : UpIn) (x : UpTx), s.fd.tx = some x → 2 ≤ s.t.up →
      let d := s.t.up - 2
      let s1 := { s with fd := { s.fd with tx := none, clamps := s.fd.clamps ||| u.pins } }
      let f := upFrame (sentCodes s1 u d ((x.p + 511) % 512)) (flagsOf u).toNat (statByte s1 u x) u.err
      (x.good = true → x.cut = false → upGood f = true → exec (.upFrame u) s =
        .next (if s.seam.up then upTake (fieldSent s1 (x.p % 16)) f d x.p else bringUp (fieldSent s1 (x.p % 16)) f d (x.p % 16))) ∧
      (x.good = false ∨ x.cut = true ∨ upGood f = false → exec (.upFrame u) s =
        .next (if s.seam.up then upFail s1 d x.p x.cut else bringFail s1 (x.p % 16)))) ∧
    (s.fd.tx = none → ∀ u : UpIn, exec (.upFrame u) s = .next s)

/-! ### The ring -/

/-- A header at a unit on CKI. Locked: a good one is taken, a poisoned one counted, one without its syncword missed, and the fourth
missed in a row unlocks. Unlocked: a syncword is held, and a good header exactly 16 384 bits after one locks; a shift moves the
grid so that this is tick 16 of it. -/
def Obligations.HeaderPasses : Prop :=
  ∀ (s : State) (h : BitVec 512) (shift : Word), alive s = true → s.ring.clk = .cki →
    (s.ring.lock = .locked → shift = 0 → syncOk h = true →
      (syndrome h = 0 → hGet h 408 8 = 0 → ∃ t : State, exec (.superframeHeader h shift) s = .next t ∧ t.ring.hdr = .good ∧
        t.ring.missedRun = 0 ∧ t.ring.ration = BitVec.ofNat 16 (hGet h 128 16) ∧ t.ring.motion = hFlag h 15 ∧
        t.ring.timeset = hFlag h 9 ∧ t.ring.orphan = false ∧ t.ring.lastSfn = BitVec.ofNat 32 (hGet h 32 32)) ∧
      (syndrome h ≠ 0 → ∃ t : State, exec (.superframeHeader h shift) s = .next t ∧ t.ring.hdr = .poisoned ∧
        t.ring.poisoned = s.ring.poisoned + 1 ∧ t.ring.missedRun = 0 ∧ t.t = s.t ∧ t.arms = s.arms ∧ t.syncs = s.syncs)) ∧
    (s.ring.lock = .locked → (shift ≠ 0 ∨ syncOk h = false) → ∃ t : State, exec (.superframeHeader h shift) s = .next t ∧
      t.ring.hdr = .missed ∧ t.ring.missed = s.ring.missed + 1 ∧ t.out.header = h ∧
      (s.ring.missedRun = 3 → t.ring.lock = .unlocked ∧ t.ring.unlockedAt = s.t.up) ∧
      (s.ring.missedRun < 3 → t.ring.lock = .locked) ∧ t.t = s.t) ∧
    (s.ring.lock = .unlocked → exec (.superframeHeader h shift) s = .next { s with
      ring.lock := .acquiring (if syncOk h then [bitZero s shift] else []), out.header := h }) ∧
    (∀ cands : List Int, s.ring.lock = .acquiring cands →
      (syncOk h = true → syndrome h = 0 → bitZero s shift - 32768 ∈ cands →
        ∃ t : State, exec (.superframeHeader h shift) s = .next t ∧ t.ring.lock = .locked ∧ t.ring.missedRun = 0 ∧
          t.t.p = (if shift = 0 then s.t.p else 16) ∧
          t.ring.realigns = (if shift = 0 then s.ring.realigns else s.ring.realigns + 1) ∧
          t.ring.hdr = (if hGet h 408 8 = 0 then .good else .beacon) ∧ t.ring.orphan = decide (hGet h 408 8 ≠ 0)) ∧
      (syncOk h = false ∨ syndrome h ≠ 0 ∨ bitZero s shift - 32768 ∉ cands →
        ∃ kept : List Int, kept.Sublist cands ∧ exec (.superframeHeader h shift) s = .next { s with
          ring.lock := .acquiring (if syncOk h then kept ++ [bitZero s shift] else kept), out.header := h }))

/-- Rows of one field of a good header at a locked unit: arms, SYNC, beacons and grants of the bulk lane; a peg lost to a lasting
clash goes at tick 16. -/
def Obligations.HeaderFieldRows : Prop :=
  ∀ s : State,
    (ringLive s = true → isPitched s = true → ∀ armId : BitVec 16,
      exec (.headerArm armId) s = .next { s with arms := s.arms ++ [{ arm := true, armId := armId }] } ∧
      exec (.headerDisarm armId) s = .next { s with arms := s.arms ++ [{ arm := false, armId := armId }] }) ∧
    (ringLive s = true → s.t.fix = none → s.t.p < 512 → ∀ syncAt : BitVec 16,
      ∃ c : BitVec 48, exec (.headerSync syncAt) s = .next { s with
          syncs := { up := 0, count := some c, order := 0, origin := orgHdr } :: s.syncs.filter (fun x => x.order != 0) } ∧
        c.setWidth 16 = syncAt ∧ (c - (s.t.count + BitVec.ofNat 48 (512 - s.t.p))).toNat < 65536) ∧
    (ringLive s = true → ∀ h : BitVec 512, hGet h 408 8 ≠ 0 → syndrome h = 0 → ∃ t : State, exec (.beaconHeader h) s = .next t ∧
      t.ring.orphan = true ∧ t.ring.hdr = .beacon ∧ t.ring.missedRun = 0 ∧ t.arms = s.arms ∧ t.syncs = s.syncs) ∧
    (ringLive s = true → isPitched s = true → ∀ (len : BitVec 16) (b : Bulk), 13 ≤ len.toNat → len.toNat ≤ 448 →
      s.cmd.bulk = some b → s.ring.peg < 256 →
      exec (.bulkGrant (byteOf s.ring.peg) len) s = .next (bulkFrame s b len.toNat)) ∧
    (alive s = true → s.ring.pegDrop = true → s.t.p = 16 → ∃ t : State, exec .pegClashRelease s = .next t ∧ t.ring.peg = 0 ∧
      t.ring.hop = s.ring.hop ∧ t.ring.pegDrop = false)

/-- The six PITCH modes: what NEXT_PEG leaves as, and the peg and hop count committed from the value received. -/
def Obligations.PitchRows : Prop :=
  ∀ (s : State) (f : Byte), ringLive s = true →
    let v := rev8 f.toNat
    let sent (n : Nat) : BitVec 512 := hPut s.out.header 184 8 n
    let fit : Nat := if 1 ≤ v ∧ v ≤ 60 then v else 0
    (∃ t : State, exec (.pitchAll f) s = .next t ∧ t.ring.peg = fit ∧ t.ring.hop = v ∧ t.out.header = sent (addOne f.toNat)) ∧
    exec (.pitchCount f) s = .next { s with out.header := sent (if isPitched s then f.toNat else addOne f.toNat) } ∧
    (isPitched s = true → exec (.pitchFill f) s = .next { s with out.header := sent f.toNat }) ∧
    (isPitched s = false → ∃ t : State, exec (.pitchFill f) s = .next t ∧ t.ring.peg = fit ∧ t.ring.hop = s.ring.hop ∧
      t.out.header = sent (addOne f.toNat)) ∧
    (∃ t : State, exec (.pitchSticky f) s = .next t ∧ t.ring.hop = v ∧ t.out.header = sent (addOne f.toNat) ∧
      t.ring.peg = (if isPitched s = false ∧ 1 ≤ s.ring.savedPeg ∧ s.ring.savedPeg ≤ 60 ∧ 1 ≤ v ∧ s.ring.savedHop = v
        then s.ring.savedPeg else s.ring.peg)) ∧
    (isPitched s = true → s.twin.mode = 0 → s.ring.peg = v → ∃ t : State, exec (.pitchDrop f) s = .next t ∧ t.ring.peg = 0 ∧
      t.ring.hop = s.ring.hop ∧ t.out.header = sent f.toNat) ∧
    (∃ t : State, exec (.pitchMeasure f) s = .next t ∧ t.ring.peg = s.ring.peg ∧ t.ring.hop = v ∧
      t.out.header = sent (addOne f.toNat))

/-- The three passes of a fire: the smaller key goes on, the standing writes FIRE_PEG, and the confirmed peg is recorded; each unit
learns the ring's fire time. -/
def Obligations.FirePasses : Prop :=
  ∀ (s : State) (key : BitVec 56), ringLive s = true → isPitched s = true →
    (∀ k : BitVec 56, fireDue s = some k → ∃ t : State, exec (.firePass key) s = .next t ∧
      t.out.header = hPut s.out.header 216 56 (min k.toNat key.toNat) ∧
      t.ring.standing = some (if k.toNat < key.toNat then .lead else if k = key then .tie else .lose) ∧ t.cfg = s.cfg) ∧
    (fireDue s = none → ∃ t : State, exec (.firePass key) s = .next t ∧ t.out.header = hPut s.out.header 216 56 key.toNat ∧
      t.ring.standing = none ∧ t.cfg = s.cfg) ∧
    (∀ peg : Byte, ∃ t : State, exec (.resolvePass peg key) s = .next t ∧ t.ring.ringKey = some key ∧
      t.ring.fire = (match s.ring.fire with
        | some k => if key.toNat ≤ k.toNat then none else some k
        | none => none) ∧
      (s.ring.standing = some .lead → peg.toNat ≠ s.ring.peg → t.out.header = hPut s.out.header 208 8 s.ring.peg) ∧
      (s.ring.standing = some .tie → s.ring.peg < peg.toNat → t.out.header = hPut s.out.header 208 8 s.ring.peg) ∧
      (s.ring.standing = some .tie → peg.toNat ≤ s.ring.peg → t.out.header = s.out.header) ∧
      (s.ring.standing = some .lose ∨ s.ring.standing = none → t.out.header = s.out.header) ∧ t.cfg = s.cfg) ∧
    (∀ peg : Byte, ∃ t : State, exec (.confirmPass peg key) s = .next t ∧ t.ring.ringKey = some key ∧ t.ring.standing = none ∧
      t.capt.firePeg = (if peg.toNat ≤ 60 then peg.toNat else 0) ∧ t.out = s.out ∧ t.cfg = s.cfg)

/-- The slots and the window pass. A unit's slot takes its content or, found filled, the CLASH flag, and every other byte of the region
leaves as it came; where it writes no slot the region leaves whole, and from a unit that sends beacons nothing of it leaves. A window
leaves as it came; its first packet is taken by the unit it names and, of a broadcast, by each; one for another peg is not, and one that
is corrupt counts. Lost events are told once there is room. -/
def Obligations.SlotWindowAndEvents : Prop :=
  ∀ s : State,
    (∀ r : List Byte, r.length = 1472 → s.ring.beaconing = false →
      (slotDue s = true → bit (r.getD (slotAt s.ring.peg) 0).toNat 7 = false →
        exec (.slotWrite r) s = .next { (slotContent s).2 with
          out.slot := (slotContent s).1, out.region := slotOver s r (slotContent s).1 }) ∧
      (slotDue s = true → bit (r.getD (slotAt s.ring.peg) 0).toNat 7 = true →
        ∃ t : State, exec (.slotWrite r) s = .next t ∧ t.ring.clashes = (slotContent s).2.ring.clashes + 1 ∧
          t.out.slot.head? = some (r.getD (slotAt s.ring.peg) 0 ||| 0x40) ∧ t.out.region = slotOver s r t.out.slot) ∧
      (relays s = true → slotDue s = false → exec (.slotWrite r) s = .next { s with out.region := r })) ∧
    (s.ring.beaconing = true → ∀ r : List Byte, exec (.slotWrite r) s = .next s) ∧
    (ringPart s = true → s.ring.beaconing = false →
      (∀ p : Packet, p.payload.length ≤ 240 →
        (let w := packetBytes (if p.bcast then 0xFF else byteOf s.ring.peg) p
         exec (.commandWindow w) s = .next (packetTake { s with out.window := windowOut s (windowFill w) } p) ∧
         (isLead s = false → exec (.commandWindow w) s = .next { s with
           out.window := windowOut s (windowFill w),
           cmd.taken := s.cmd.taken ++ [{ pkt := p, verdict := none, fwd := none }] })) ∧
        ∀ d : Byte, 1 ≤ d.toNat → d.toNat ≤ 60 → d.toNat ≠ s.ring.peg →
          exec (.commandWindow (packetBytes d p)) s = .next { s with out.window := windowOut s (windowFill (packetBytes d p)) }) ∧
      (∀ w : List Byte, w.headD 0 ≠ 0 → (w.headD 0).toNat < 0x3D ∨ w.headD 0 = 0xFF → packetAt (windowFill w) = none →
        ∃ t : State, exec (.commandWindow w) s = .next t ∧ t.ring.cmdBad = s.ring.cmdBad + 1 ∧ t.cmd.taken = s.cmd.taken ∧
          t.out.window = windowOut s (windowFill w))) ∧
    (relays s = true → ringPart s = false → s.ring.beaconing = false → ∀ w : List Byte,
      exec (.commandWindow w) s = .next { s with out.window := windowOut s (windowFill w) }) ∧
    (s.cmd.lost ≠ 0 → s.cmd.events.length < 16 → ∃ e : Event, exec .eventLost s = .next { s with
        cmd := { s.cmd with lost := 0, events := s.cmd.events ++ [e], eseq := s.cmd.eseq + 1 } } ∧
      e.code = 0x07 ∧ e.eseq = s.cmd.eseq ∧ e.data = beBytes 2 (min s.cmd.lost 65535))

/-! ### Signals, cells, outputs, capture -/

/-- A sample word carries the value, the quality and the channel of its sample; the two words of R570's examples. -/
def Obligations.SampleWordFields : Prop :=
  ∀ x : Sample, x.qual < 8 → x.ch < 32 → -8388608 ≤ x.value → x.value ≤ 8388607 →
    (wordOf x).toNat / 256 = (BitVec.ofInt 24 x.value).toNat ∧ (BitVec.ofNat 24 ((wordOf x).toNat / 256)).toInt = x.value ∧
    (wordOf x).toNat / 32 % 8 = x.qual ∧ (wordOf x).toNat % 32 = x.ch ∧
    (x.ch = 2 → x.qual = 0 → x.value = 0x333333 → wordOf x = 0x33333302) ∧
    (x.ch = 2 → x.qual = 2 → x.value = 0x7FFFFF → wordOf x = 0x7FFFFF42)

/-- Samples and resets: the oldest output of a chain is formed three ticks after its tag, under the settings of the run that ended where
a CHSTOP lies between, so is a monitor's; channels 14–17 form
theirs in HEATER_MEASUREMENT. A conversion boundary clears the chain from this tick, a SYNC edge names a reset two ticks on, and the
resets due by now clear every started chain as one. A held front end whose release has applied leaves its hold. -/
def Obligations.SignalEvents : Prop :=
  ∀ s : State,
    (∀ (c : Fin 14) (o : ChainOut) (rest : List ChainOut), (s.chain[c]).outs = o :: rest → o.tag + 3 ≤ s.t.up →
      ((∀ p : PastRun, (s.chain[c]).past = some p → p.cut ≤ o.tag) → exec (.sampleOutput (c.castLE (by omega))) s =
        .next (sampleMain (modChain s c (fun ch => { ch with outs := rest })) c o)) ∧
      (∀ p : PastRun, (s.chain[c]).past = some p → o.tag < p.cut → exec (.sampleOutput (c.castLE (by omega))) s =
        .next (inPast (modChain s c (fun ch => { ch with outs := rest })) c p (fun s => sampleMain s c o)))) ∧
    (∀ c : Fin 24, 14 ≤ c.val → c.val < 18 → exec (.sampleOutput c) s = .next s) ∧
    (∀ (c : Fin 24) (o : HkOut), 18 ≤ c.val → s.hk.out = some o → o.ch = c.val → o.tag + 3 ≤ s.t.up →
      ∃ (t : State) (x : Sample), x = hkSample s o ∧ t.hk.out = none ∧ t.cfg = s.cfg ∧
        exec (.sampleOutput c) s = .next (if x.qual = 7 then passSample t { prim := x, blk := none, tone := false } none
          else monitorLimits (passSample t { prim := x, blk := none, tone := false } none) c (sampleVal s x))) ∧
    (∀ c : Fin 14, (s.chain[c]).started = true → (s.chain[c]).conv = none → pOn s (idFilt c 5) = true → s.u.st ≠ .vigil →
      chainPscs s c ≠ 0 → ((s.t.up : Int) - baseNow (s.chain[c])) % (chainPscs s c : Int) = 0 →
      (s.t.up, baseNow (s.chain[c]), true) ∉ (s.chain[c]).due →
      ∃ t : State, exec (.scsBoundary c) s = .next t ∧ t = { s with chain := t.chain } ∧
        t.chain[c] = { s.chain[c] with due := (s.chain[c]).due ++ [(s.t.up, baseNow (s.chain[c]), true)] } ∧
        ∀ d : Fin 14, d ≠ c → t.chain[d] = s.chain[d]) ∧
    (alive s = true → s.u.st ≠ .vigil → exec .syncPin s =
      .next { s with syncs := { up := s.t.up + 2, count := none, order := 2, origin := orgPin } :: s.syncs }) ∧
    (alive s = true →
      ((∃ d ∈ s.syncs, d.due s = true) → ∃ t : State, exec .syncReset s = .next t ∧ t.ty = s.t.up ∧
        t.syncs = s.syncs.filter (fun d => !d.due s) ∧ t.cfg = s.cfg ∧
        ∀ c : Fin 14, (s.chain[c]).started = true ∨ (s.chain[c]).isSnap = true →
          (t.chain[c]).due = (s.chain[c]).due ++ [(s.t.up, (s.t.up : Int) + (pNat s (idFilt c 6) : Int), true)]) ∧
      ((∀ d ∈ s.syncs, d.due s = false) → exec .syncReset s = .next s)) ∧
    (∀ n : Fin 8,
      (∀ e : Nat, (frontOf s n).freeAt = some e → ∃ t : State, exec (.rangeChangeRelease n) s = .next t ∧
        Released s t n e) ∧
      ((frontOf s n).freeAt = none → exec (.rangeChangeRelease n) s = .next s)) ∧
    (∀ n : Fin 4,
      (∀ e : Nat, (frontOf s (8 + n)).freeAt = some e → ∃ t : State, exec (.decadeChangeRelease n) s = .next t ∧
        Released s t (8 + n) e) ∧
      ((frontOf s (8 + n)).freeAt = none → exec (.decadeChangeRelease n) s = .next s))

/-- The four steps of enabling a cell, each at its tick and with the writes before it read back, and the four of disabling it, the
last once the field die has shorted the cell; a ramp's target and code are those of its law, and it ends at its goal. -/
def Obligations.CellSequences : Prop :=
  ∀ (s : State) (k : Fin 4),
    ((s.cell[k]).stuck = false → cellBusy s k = false →
      ((s.cell[k]).step = .opening 1 → (s.cell[k]).rampAt + 64 ≤ s.t.up →
        ∃ t : State, exec (.cellEnableStep k) s = .next t ∧ (t.cell[k]).step = .opening 2 ∧
          t.seam.regQ = s.seam.regQ ++ [regAccess s (byteOf (8 + k)) (regField (regWant s (8 + k)) 0 0 1)]) ∧
      ((s.cell[k]).step = .opening 2 → (s.cell[k]).rampAt + 320 ≤ s.t.up →
        ∃ t : State, exec (.cellEnableStep k) s = .next t ∧ (t.cell[k]).step = .opening 3 ∧
          t.seam.regQ = s.seam.regQ ++ [regAccess s (byteOf (8 + k)) (regField (regWant s (8 + k)) 1 1 1)]) ∧
      ((s.cell[k]).step = .opening 3 → (s.cell[k]).rampAt + 336 ≤ s.t.up →
        ∃ t : State, exec (.cellEnableStep k) s = .next t ∧ (t.cell[k]).step = .opening 4 ∧ (t.cell[k]).rampAt = s.t.up) ∧
      ((s.cell[k]).step = .opening 4 → s.t.p = 0 → (s.cell[k]).rampAt < s.t.up → (s.cell[k]).suspended = false →
        ∃ t : State, exec (.cellEnableStep k) s = .next t ∧ (t.cell[k]).step = .open_ ∧
          ((t.cell[k]).ramping = true ↔ (s.cell[k]).target ≠ biasVolt (biasCode (pVal s (idCell k 0)))) ∧
          (t.cell[k]).rampAt = s.t.up ∧ t.seam = s.seam)) ∧
    ((s.cell[k]).step = .closing 1 → (s.cell[k]).ramping = false →
      ∃ t : State, exec (.cellDisableStep k) s = .next t ∧ (t.cell[k]).step = .closing 2 ∧
        (frontOf t (2 * k)).closed = true ∧ (frontOf t (2 * k + 1)).closed = true) ∧
    ((s.cell[k]).step = .closing 2 →
      ∃ t : State, exec (.cellDisableStep k) s = .next t ∧ (t.cell[k]).step = .closing 3 ∧ (t.cell[k]).rampAt = s.t.up ∧
        t.seam.regQ = s.seam.regQ ++ [regAccess s (byteOf (8 + k)) (regField (regWant s (8 + k)) 1 1 0)]) ∧
    ((s.cell[k]).step = .closing 3 → (s.cell[k]).rampAt + 64 ≤ s.t.up →
      ∃ t : State, exec (.cellDisableStep k) s = .next t ∧ (t.cell[k]).step = .closing 4 ∧
        t.seam.regQ = s.seam.regQ ++ [regAccess s (byteOf (8 + k)) (regField (regWant s (8 + k)) 0 0 0)]) ∧
    ((s.cell[k]).step = .closing 4 → cellDark s k = true →
      ∃ t : State, exec (.cellDisableStep k) s = .next t ∧ t.cell[k] = Cell0 ∧ (frontOf t (2 * k)).on = false ∧
        (frontOf t (2 * k + 1)).on = false ∧ biasHanded t k = 8192) ∧
    ((s.cell[k]).ramping = true → (s.cell[k]).suspended = false →
      let g := rampAfter s k (s.t.up - (s.cell[k]).rampAt)
      ∃ t : State, exec (.biasRampStep k) s = .next t ∧ (t.cell[k]).target = g ∧ biasHanded t k = biasCode g ∧
        ((t.cell[k]).ramping = false ↔ g = cellGoal s k) ∧ (t.cell[k]).step = (s.cell[k]).step)

/-- A point of a waveform follows after its period, the first again after the last while passes are left, and playback ends after
the last pass. A sample of CLR_N is noted, and a new level is taken with one entry where the sample of the tick before agrees. -/
def Obligations.WaveformAndClearEvents : Prop :=
  ∀ s : State, alive s = true →
    (∀ g : Fin 5, (s.wave.play[g]).st = .playing → (s.wave.play[g]).due ≤ s.t.up →
      ((s.wave.play[g]).point + 1 < (wavePts s (s.wave.play[g]).wave).length →
        ∃ t : State, exec (.wavePoint g) s = .next t ∧ t.wave.play[g] = { s.wave.play[g] with
            point := (s.wave.play[g]).point + 1, due := (s.wave.play[g]).due + (s.wave.play[g]).period } ∧ t.log = s.log) ∧
      ((wavePts s (s.wave.play[g]).wave).length ≤ (s.wave.play[g]).point + 1 → (s.wave.play[g]).passes ≠ 1 →
        ∃ t : State, exec (.wavePoint g) s = .next t ∧ t.wave.play[g] = { s.wave.play[g] with
            point := 0, passes := (s.wave.play[g]).passes - 1, due := (s.wave.play[g]).due + (s.wave.play[g]).period } ∧
          t.log = s.log) ∧
      ((wavePts s (s.wave.play[g]).wave).length ≤ (s.wave.play[g]).point + 1 → (s.wave.play[g]).passes = 1 →
        ∃ t : State, exec (.wavePoint g) s = .next t ∧ (t.wave.play[g]).st = .idle ∧
          (g.val = 0 → t.aout.code = pointOf s 0))) ∧
    (∀ high : Bool,
      (s.aout.clrWas = high → s.aout.clrLow = high → ∃ t : State, exec (.clrNLevel high) s = .next t ∧
        t = { s with aout := t.aout, log := t.log } ∧
        t.aout = { s.aout with clrNow := high, clrLow := !high, clrCount := s.aout.clrCount + (if high then 0 else 1) }) ∧
      (s.aout.clrWas ≠ high ∨ s.aout.clrLow ≠ high → exec (.clrNLevel high) s = .next { s with aout.clrNow := high }))

/-- The capture memory's own steps: an automatic re-arm ends a dead interval; the next segment opens; the oldest record leaves the FIFO with
its number and SEQCHK, one a tick, those outside the FIFO behind it; the pre-ring gives up its oldest records until the rest is young and
few enough; and once the FIFO has drained an overflow writes its OVERFLOW event and CLOSE, and the segment closes OVERFLOW. -/
def Obligations.CaptureEvents : Prop :=
  ∀ s : State,
    (pOn s 0x3080 = true → s.trip.recogAt + pNat s 0x3081 ≤ s.t.up → s.capt.phase = .recording → s.trip.st = .dead →
      ∃ t : State, exec .tripwireAutoRearm s = .next t ∧ t = { s with trip := t.trip, log := t.log } ∧ t.trip.st = .armed ∧
        t.trip.deadTicks = min 0xFFFFFFFF (s.t.up - s.trip.recogAt) ∧ t.trip.carry = some (t.trip.deadTicks, s.trip.missed) ∧
        t.trip.armed = s.trip.armed ∧ t.trip.armId = s.trip.armId) ∧
    (s.capt.nextDue = true → lastMade s.capt < s.t.up →
      ∃ t : State, exec .nextSegment s = .next t ∧ t.capt.phase = .recording ∧ t.capt.nextDue = false ∧
        t.capt.armId = s.capt.armId ∧ t.capt.gotFire = false ∧ t.capt.placed = false ∧ t.capt.recs = s.capt.recs ∧
        t.capt.prot = s.capt.prot ∧ t.log = s.log) ∧
    (∀ (r : FifoRec) (rest : List FifoRec), s.capt.fifo = r :: rest → s.capt.wroteAt ≠ some s.t.up → s.capt.recs.length < 32768 →
      rest.takeWhile FifoRec.outside = [] → s.capt.stopping = false →
      exec .fifoWrite s = .next { s with capt := { s.capt with
        fifo := rest, wroteAt := some s.t.up, nextRec := (s.capt.nextRec + 1) % 2 ^ 32,
        recs := s.capt.recs ++ [{ num := s.capt.nextRec, word := seqChk r.word s.capt.nextRec, at_ := r.at_ }] } }) ∧
    (∀ (r : FifoRec) (rest : List FifoRec), s.capt.fifo = r :: rest → s.capt.wroteAt ≠ some s.t.up → s.capt.recs.length < 32768 →
      ∃ (t : State) (more : List Rec), exec .fifoWrite s = .next t ∧ t.capt.wroteAt = some s.t.up ∧
        t.capt.recs = s.capt.recs ++ { num := s.capt.nextRec, word := seqChk r.word s.capt.nextRec, at_ := r.at_ } :: more) ∧
    (s.capt.fifo = [] ∨ s.capt.wroteAt = some s.t.up → exec .fifoWrite s = .next s) ∧
    (s.capt.phase = .recording → s.capt.stopping = false → s.capt.lostAt = none →
      ∃ (t : State) (j : Nat), exec .preRingDiscard s = .next t ∧ t = { s with capt := t.capt } ∧ t.capt.fifo = s.capt.fifo ∧
        t.capt.recs = s.capt.recs.take s.capt.prot ++ (s.capt.recs.drop s.capt.prot).drop j ∧
        ∀ r : Rec, (t.capt.recs.drop s.capt.prot).head? = some r → s.t.count.toNat ≤ (tagOf s r.at_).1.toNat + captN s 2 ∧
          t.capt.recs.length + s.capt.fifo.length + captN s 3 + 64 ≤ 32768) ∧
    (∀ u : Nat, s.capt.lostAt = some u → s.capt.fifo = [] → capRunning s = true →
      ∃ t : State, exec .overflowEvent s = .next t ∧ t.capt.phase = .closed ∧ t.capt.close = 3 ∧ t.capt.lostAt = none ∧
        t.capt.prot = s.capt.prot ∧
        (s.capt.recs.length + 2 ≤ 32768 → ∃ c : Rec, t.capt.recs = s.capt.recs ++
          [{ num := s.capt.nextRec, word := seqChk (evWord 0x05 (tagOf s u).1.toNat) s.capt.nextRec, at_ := s.t.up }, c]))

/-! ### Loads, energy and checks -/

/-- Heaters: one computation of the loop, in each mode of a step that goes on, at the end of a profile, and with none; the measurement of a
superframe; the switch of LEADCAL and its end; and an abort at p = 0, before which it waits. Bridges: the code and the energy the loop asks
for. -/
def Obligations.HeaterAndBridgeEvents : Prop :=
  ∀ s : State,
    (∀ (n : Fin 4) (p : Nat), (s.htr[n]).prof = some p → (s.htr[n]).done < stDur (profStep s p (s.htr[n]).step) →
      (stMode (profStep s p (s.htr[n]).step) = 1 → ∃ t : State, exec (.heaterLoop n) s = .next t ∧ (t.htr[n]).next = 0 ∧
        (t.htr[n]).boundNext = false ∧ t = { s with htr := t.htr }) ∧
      (stMode (profStep s p (s.htr[n]).step) = 2 → stRamp (profStep s p (s.htr[n]).step) = false →
        0 < ionNow s n * ionNow s n * rhNow s n →
        let want := min 2048 (roundAway (2048 * ((stSet (profStep s p (s.htr[n]).step) : Rat) / 10000) /
          (ionNow s n * ionNow s n * rhNow s n))).toNat
        ∃ t : State, exec (.heaterLoop n) s = .next t ∧ t = { s with htr := t.htr } ∧
          (t.htr[n]).next = min want (dutyBound s n) ∧ (t.htr[n]).boundNext = decide (dutyBound s n < want))) ∧
    (∀ (n : Fin 4) (p : Nat), (s.htr[n]).prof = some p → (s.htr[n]).done < stDur (profStep s p (s.htr[n]).step) →
      let mode := stMode (profStep s p (s.htr[n]).step)
      2 ≤ mode → mode ≤ 4 →
        let pint := if mode = 4 ∧ 0 < ionNow s n * ionNow s n * rhNow s n then pIntNext s n (setNow s n - tempOf s n (rhNow s n))
          else (s.htr[n]).pInt
        let want := (dutyWanted s n pint).getD (s.htr[n]).duty
        ∃ t : State, exec (.heaterLoop n) s = .next t ∧ t = { s with htr := t.htr } ∧ (t.htr[n]).pInt = pint ∧
          (t.htr[n]).next = min want (dutyBound s n) ∧ (t.htr[n]).boundNext = decide (dutyBound s n < want)) ∧
    (∀ n : Fin 4, (s.htr[n]).prof ≠ none → (stepReady s n).2 = true → exec (.heaterLoop n) s = .next (stepReady s n).1) ∧
    (∀ n : Fin 4, (s.htr[n]).prof = none → exec (.heaterLoop n) s = .next s) ∧
    (∀ n : Fin 4, s.t.p = 2 → (s.htr[n]).doneOn = true → 514 ≤ s.t.up →
      ∃ (t : State) (x : Sample), exec (.heaterMeasurement n) s = .next (passSample t { prim := x, blk := none, tone := false } none) ∧
        x.ch = 14 + n ∧ x.tag = s.t.up - 3 ∧ x.span = 512 ∧ x.qual < 8 ∧ (t.htr[n]).last = wordOf x ∧
        (t.htr[n]).doneOn = false ∧ (x.qual = 7 ↔ measValid (s.htr[n]) = false) ∧
        (measValid (s.htr[n]) = true → (s.htr[n]).doneOld = false → (t.htr[n]).meas = some (measOf (s.htr[n])))) ∧
    (∀ (n : Fin 4) (r : LeadRun), (s.htr[n]).lead = some r →
      (s.t.p = 480 → s.twin.mode ≠ 1 → r.idx < 34 →
        ∃ t : State, exec (.leadcalSwitch n) s = .next t ∧ t = { s with seam := t.seam } ∧
          t.seam.regQ = s.seam.regQ ++ [regAccess s (byteOf (0x10 + n)) (htrWord s n (!(decide (2 ≤ r.idx) && r.idx % 2 == 0)))]) ∧
      (35 ≤ r.idx → s.t.p = 2 →
        (r.bad = false → r.good = 32 →
          let q := (r.sumA - r.sumB) / 16
          ∃ t : State, exec (.leadcalDone n) s = .next t ∧ (t.htr[n]).lead = none ∧ (t.htr[n]).leadSrc = true ∧
            param t (idHtr n 3) = f32Of (if q < 0 then 0 else if 20 < q then 20 else q) ∧
            ∀ id : Nat, id ≠ idHtr n 3 → param t id = param s id) ∧
        (r.bad = true ∨ r.good ≠ 32 → ∃ t : State, exec (.leadcalDone n) s = .next t ∧ (t.htr[n]).lead = none ∧
          t.cfg = s.cfg))) ∧
    (∀ (n : Fin 4) (reason : Byte), (s.htr[n]).abort = some reason → htrRunning s n = true → s.t.p = 0 →
      ∃ t : State, exec (.profileAbort n) s = .next t ∧ htrRunning t n = false ∧ (t.htr[n]).abort = none ∧
        vget t.seam.drive n 0 = 0 ∧ t.cfg = s.cfg) ∧
    (∀ n : Fin 4, (s.htr[n]).abort = none ∨ htrRunning s n = true ∧ s.t.p ≠ 0 → exec (.profileAbort n) s = .next s) ∧
    (∀ b : Fin 2, (s.brg[b]).running = true → (s.brg[b]).task ≠ 0 →
      ∃ (t : State) (c : Nat), exec (.bridgeLoop b) s = .next t ∧ t = { s with brg := t.brg } ∧
        (t.brg[b]).ask = some (c, (vH s * (c : Nat) / pVal s (idBrg b 2)).ceil.toNat) ∧ (c = 0 ∨ 500 ≤ c) ∧
        c ≤ min (roundAway (nextTarget s b * 1000)).toNat (codeBound s b))

/-- A decision grants no more than the energy it has: what it grants sums to what it counts as taken, and every request gets one
verdict, in the order served. -/
def Obligations.GrantsStayWithinBudget : Prop :=
  ∀ (st : UState) (avail : Nat) (own far : Caps) (rs : List Req),
    (decideAll st avail own far rs).taken ≤ avail ∧
    sumOf (decideAll st avail own far rs).out (fun _ => true) = (decideAll st avail own far rs).taken ∧
    (decideAll st avail own far rs).out.map Prod.fst = reqSort rs ∧ (reqSort rs).Perm rs

/-- The decision of a superframe is made once, at p = 496; checks fall due at p = 0 as one task; a tone starts at its tick with the
settings read when its check began, and its codes and half-periods follow. -/
def Obligations.DecisionsAndChecks : Prop :=
  ∀ s : State,
    (alive s = true → s.t.p = 496 → s.twin.mode ≠ 1 → s.twin.mode ≠ 3 →
      (s.sched.doneSf ≠ some s.t.sf → exec .schedulerDecision s =
        .next (trialIdle (decideRun s ((trialReqs s).filterMap Prod.snd) [] (capsOf s)).1 (trialReqs s))) ∧
      (s.sched.doneSf = some s.t.sf → exec .schedulerDecision s = .next s)) ∧
    (alive s = true → s.t.p = 0 → periodicOwed s = false → tasksFull s = false → (List.range 14).filter (checkDue s) ≠ [] →
      ∃ (t : State) (k : TaskRec), exec .periodicCheckDue s = .next t ∧ t.sched.tasks = s.sched.tasks ++ [k] ∧
        k.num = nextTaskNum s ∧ k.origin = orgUnit ∧ k.cls = .check ∧ k.obj = .periodic (((List.range 14).filter (checkDue s)).headD 0) ∧
        k.born = s.t.sf) ∧
    (∀ r : ZRun, s.z.run = some r → r.granted = true → r.t0 = none → s.t.p = toneTick r →
      ∃ (t : State) (q : ZRun), exec .toneStart s = .next t ∧ t.z.run = some q ∧ q.t0 = some s.t.up ∧ q.target = r.target ∧
        (r.cycles = 0 → q.inc = toneInc s r ∧ q.cycles = pNat s (idZchk 2 (zHead r)) + 1 ∧ q.ampl = pVal s (idZchk 1 (zHead r))) ∧
        (r.cycles ≠ 0 → q.inc = r.inc ∧ q.cycles = r.cycles ∧ q.ampl = r.ampl) ∧ t.cfg = s.cfg ∧ t.seam = s.seam) ∧
    (∀ (r : ZRun) (k : Fin 4) (t0 : Nat), s.z.run = some r → r.target = .cell k → r.t0 = some t0 → r.granted = true →
      r.tEnd = 0 → s.t.p % 8 = 0 → s.t.up + 1 < toneOver r t0 →
      let c := biasCode ((s.cell[k]).target + r.ampl * sinT (toneTurns r t0 ((s.t.up + 1 : Nat) : Rat)))
      ∃ t : State, exec .toneCode s = .next t ∧ biasHanded t k = c ∧ t.cell = s.cell ∧
        t.z.run = some { r with
          tone := r.ampl * sinT (toneTurns r t0 ((s.t.up + 1 : Nat) : Rat)), pts := r.pts ++ [{ tick := s.t.up + 1, val := biasVolt c }] }) ∧
    (∀ (r : ZRun) (n : Fin 4) (t0 : Nat), s.z.run = some r → r.target = .film n → r.t0 = some t0 → r.granted = true →
      r.tEnd = 0 → s.t.p % 8 = 3 → s.t.up + 1 < toneOver r t0 → r.inc ≠ 0 → (s.t.up + 1 - t0) % r.inc = 0 →
      (frontOf s (8 + n)).range ≠ 0 →
      let v := if (s.t.up + 1 - t0) / r.inc % 2 = 0 then (frontOf s (8 + n)).range - 1 else (frontOf s (8 + n)).range
      ∃ t : State, exec .filmToneToggle s = .next t ∧
        t.seam.regQ = { regAccess s (byteOf (0x0C + n)) (regField (regWant s (0x0C + n)) 9 7 v) with at_ := s.t.up - 1 } :: s.seam.regQ ∧
        t.z.run = some { r with pts := r.pts ++ [{ tick := s.t.up + 1, val := decadeA v }] })

/-! ### The pole link -/

/-- Joining: a HELLO in order is kept and answered by a candidate tail, one out of order ends the join with its code; CONF writes the
lead's values; JOIN is acknowledged; the pair is made at its commit, or a lead without the ACK sends SPLIT and ends the join; a join
times out, or ends by a SPLIT, and a pair is split by one. A word of one side passes the other's check, and none passes on the backup
clock. -/
def Obligations.JoinMessages : Prop :=
  ∀ s : State,
    (∀ (j : Join) (m : Hello), s.twin.join = some j →
      (joinFail s j m = none → ∃ t : State, exec (.twinHello m) s = .next t ∧ t.twin.join = some { j with hello := some m } ∧
        t.twin.msgs = s.twin.msgs ++ (if j.lead then [] else [twinMsg 0x01 (helloBytes (helloOf s j))]) ∧
        t.twin.mode = s.twin.mode ∧ t.cfg = s.cfg) ∧
      (∀ code : Nat, joinFail s j m = some code → ∃ t : State, exec (.twinHello m) s = .next t ∧ t.twin.join = none ∧
        t.twin.joinResult = code ∧ t.twin.mode = s.twin.mode ∧ t.cfg = s.cfg)) ∧
    (∀ (j : Join) (pairs : List (Pid × Word)), s.twin.join = some j → j.mode = 2 → j.lead = false →
      exec (.twinConf pairs) s =
        .next ((pairs.map (fun p => (p.1.toNat, p.2))).foldl (fun s p => writeParam s p.1 orgTwin p.2) s)) ∧
    (∀ (id : Pid) (w : Word), s.twin.join = none → isTail s = true → id.toNat / 256 = 0x31 → captShared (id.toNat % 256) = true →
      ∃ t : State, exec (.twinConf [(id, w)]) s = .next t ∧ aget t.twin.leadCapt id.toNat = some w ∧
        t = { s with twin.leadCapt := t.twin.leadCapt }) ∧
    (∀ (j : Join) (sfn : BitVec 16) (mode : Byte), s.twin.join = some j → j.lead = false → mode.toNat = j.mode →
      ∃ t : State, exec (.twinJoin sfn mode) s = .next t ∧
        t.twin.join = some { j with commit := some (s.t.sf + (sfn - (sfnIn s 0).setWidth 16).toNat) } ∧
        t.twin.msgs = s.twin.msgs ++ [twinMsg 0x05 [0]] ∧ t.twin.mode = s.twin.mode) ∧
    (∀ (j : Join) (c : Nat), s.twin.join = some j → s.t.p = 0 → j.commit = some c → c ≤ s.t.sf →
      (j.lead = false ∨ j.acked = true → ∃ t : State, exec .pairCommit s = .next t ∧ t.twin.join = none ∧
        t.twin.mode = (if j.lead then j.mode else j.mode + 2) ∧ t.twin.partner = j.peg ∧ t.twin.joinResult = 0 ∧ t.cfg = s.cfg) ∧
      (j.lead = true → j.acked = false → ∃ t : State, exec .pairCommit s = .next t ∧ t.twin.join = none ∧
        t.twin.joinResult = 8 ∧ t.twin.mode = s.twin.mode ∧ t.twin.active = true ∧ t.twin.msgs = [twinMsg 0x0E [1]])) ∧
    (∀ j : Join, s.twin.join = some j →
      (j.since + pNat s (idTwin 0x10) ≤ s.t.sf → ∃ t : State, exec .joinTimeout s = .next t ∧ t.twin.join = none ∧
        t.twin.joinResult = 1 ∧ t.twin.active = false ∧ t.twin.mode = s.twin.mode) ∧
      (s.t.sf < j.since + pNat s (idTwin 0x10) → exec .joinTimeout s = .next s)) ∧
    (s.twin.join = none → s.twin.mode ≠ 0 →
      exec (.twinSplitMsg 0) s = .next { s with twin := { s.twin with splitDue := some orgTwin, splitAhead := s.twin.fwdIn.length } } ∧
      ∀ cause : Byte, cause ≠ 0 → ∃ t : State, exec (.twinSplitMsg cause) s = .next t ∧ t.twin.mode = 0 ∧ t.twin.active = false ∧
        t.twin.byLink = true ∧ t.u = s.u ∧ t.cfg = s.cfg) ∧
    (∀ w : BitVec 16, (alive s = true → s.twin.active = true → exec (.poleExchange w) s = .next (exchange s w)) ∧
      (s.twin.active = false → exec (.poleExchange w) s = .next s)) ∧
    (∀ (j : Join) (cause : Byte), s.twin.join = some j → ∃ t : State, exec (.twinSplitMsg cause) s = .next t ∧ t.twin.join = none ∧
      t.twin.joinResult = (if cause = 1 then 8 else 10) ∧ t.twin.mode = s.twin.mode ∧ t.cfg = s.cfg) ∧
    (s.ring.clk = .backup → ∀ w : BitVec 16, wordGood s w = false) ∧
    (∀ (o : State) (num : Nat) (data : Byte), leadSide o = !leadSide s → o.ring.clk ≠ .backup → wordGood o (poleWord s num data) = true ∧
      BitVec.ofNat 8 ((poleWord s num data).toNat / 4) = data)

/-- A packet with a part at the tail: the tail checks its part and answers with a VERDICT, the lead decides at p = 440, COMMIT is
acknowledged, and the tail's answer completes the reply that waits for it. The ACK of a JOIN counts to p = 496 of the superframe
before the commit. -/
def Obligations.ForwardedPackets : Prop :=
  ∀ (s : State) (h : Byte),
    (isTail s = true → ∀ (client seq opc : Byte) (pl : List Byte),
      ∃ (t : State) (f : FwdIn) (st pos : Byte), exec (.twinFwd h client seq opc pl) s = .next t ∧
        t.twin.fwdIn = s.twin.fwdIn ++ [f] ∧ f.handle = h ∧
        f.pkt = { bcast := false, src := client, seq := seq, opc := opc, payload := pl } ∧ f.commit = false ∧
        (f.ok = true ↔ st.toNat < stRefused) ∧ t.twin.msgs = s.twin.msgs ++ [twinMsg 0x03 [h, st, pos]] ∧
        t = { s with twin := t.twin }) ∧
    (isTail s = true → ∀ apply : Byte, exec (.twinCommit h apply) s = .next { s with
      twin.fwdIn := s.twin.fwdIn.map (fun f => if f.handle = h then { f with commit := apply == 1 } else f),
      twin.msgs := s.twin.msgs ++ [twinMsg 0x05 [h]] }) ∧
    (isLead s = true →
      (∀ (f : Fwd) (status pos : Byte), s.t.p ≤ 440 → fwdOf s h = some f → f.commit = none →
        ∃ t : State, exec (.twinVerdict h status pos) s = .next t ∧ t = { s with twin.fwd := t.twin.fwd } ∧
          fwdOf t h = some { f with verdict := some (status, pos) }) ∧
      (∀ f : Fwd, s.t.p ≤ 496 → h ≠ 0 → fwdOf s h = some f →
        ∃ t : State, exec (.twinAck h) s = .next t ∧ t = { s with twin.fwd := t.twin.fwd } ∧
          fwdOf t h = some { f with acked := true }) ∧
      (∀ (k : Taken) (f : Fwd), s.t.p = 440 → s.cmd.taken = [k] → k.fwd = some h → fwdOf s h = some f → f.commit = none →
        ∃ (t : State) (ok : Bool), exec .leadPacketDecide s = .next t ∧ (∃ a : Option Answer, fwdOf t h = some { f with commit := some ok, judged := a }) ∧
          t.twin.msgs = s.twin.msgs ++ [twinMsg 0x04 [h, if ok then 1 else 0]] ∧ (f.verdict = none → ok = false) ∧
          t.cmd = s.cmd) ∧
      (∀ (f : Fwd) (a : Answer) (status : Byte) (data : List Byte), fwdOf s h = some f → f.done = some a → f.data = [] →
        f.pkt.opc ≠ 0x02 → data.length < 256 →
        ∃ t : State, exec (.twinAnswer h status (byteOf data.length) 0 data) s = .next t ∧ fwdOf t h = none ∧
          t.cmd.replies = s.cmd.replies.map (fun r =>
            if r.wait = some h then
              { r with ans := if r.ans.status.toNat = stSeqDup then dupAnswer { status := status, data := data }
                  else { status := status, data := data }, wait := none }
            else r))) ∧
    (∀ (j : Join) (c : Nat), s.twin.join = some j → j.commit = some c →
      (s.t.sf + 1 < c ∨ s.t.sf + 1 = c ∧ s.t.p ≤ 496 →
        exec (.twinAck 0) s = .next { s with twin.join := some { j with acked := true } }) ∧
      (c < s.t.sf + 1 ∨ s.t.sf + 1 = c ∧ 496 < s.t.p → exec (.twinAck 0) s = .next s))

/-- A Span lead keeps its tail's requests, and its decision answers them with one GRANT; a tail applies a GRANT's outcomes, and defers what has
none by p = 506. A RULE message writes the entry of a transition that waits for it, or is kept for its vote. A partner's trigger of the
session in hand is placed unless the unit's own point is not later; a tail keeps a slot handed over. -/
def Obligations.PairEnergyAndRules : Prop :=
  ∀ s : State,
    (s.twin.mode = 1 →
      (∀ (caps : TailCaps) (rs : List TailReq), exec (.twinReq caps rs) s = .next { s with twin.req := some (caps, rs) }) ∧
      (alive s = true → s.t.p = 480 → s.sched.doneSf ≠ some s.t.sf →
        ∃ t : State, exec .pairDecision s = .next t ∧ t.twin.req = none ∧
          ∀ (caps : TailCaps) (r : TailReq) (rs : List TailReq), s.twin.req = some (caps, r :: rs) →
            ∃ out : List (Req × Verdict), t.twin.msgs.getLast? = some (twinMsg 0x08 (grantBytes out))) ∧
      (∀ (r st : Byte) (tick value : Word), farRule s r.toNat = true → st.toNat < 2 → s.twin.ruleWait = [] →
        ((ruleOf s r.toNat).st = .raised ↔ st.toNat ≠ 1) →
        exec (.twinRule r st tick value) s = .next { s with
          twin.ruleGot := (r.toNat, st.toNat == 1, tick, value) :: s.twin.ruleGot.filter (fun g => g.1 != r.toNat) }) ∧
      (∀ (r st : Byte) (tick value : Word) (w : RuleWait), farRule s r.toNat = true → st.toNat < 2 → s.twin.ruleWait = [w] →
        w.rule = r.toNat → (w.next = .raised ↔ st.toNat = 1) → s.log.entries.length < 4096 →
        ∃ (t : State) (e : Entry), exec (.twinRule r st tick value) s = .next t ∧ t.twin.ruleWait = [] ∧
          t.log.entries = s.log.entries ++ [e] ∧ e.event = 0x0070 ∧ e.subject = BitVec.ofNat 16 r.toNat ∧
          e.old = natW (alarmCode w.was) ∧ e.new = natW (alarmCode w.next) ∧ t.cfg = s.cfg)) ∧
    (s.twin.mode = 3 →
      (∀ gs : List (Byte × Byte), s.twin.req = none → exec (.twinGrant gs) s = .next s) ∧
      (∀ (g : Byte × Byte) (c : TailCaps) (ts : List TailReq) (r : Req), s.twin.req = some (c, ts) →
        ts.any (fun t => t.task == g.1) = true → (tailAll s (trialReqs s)).find? (fun r => byteOf r.task == g.1) = some r →
        g.2.toNat % 4 = 0 →
        exec (.twinGrant [g]) s = .next (applyVerdicts { s with twin.req := some (c, ts.filter (fun t => t.task != g.1)) }
          [(r, { status := 1, reason := g.2.toNat / 4 % 32, energy := r.energy, far := true })])) ∧
      (∀ (g : Byte × Byte) (c : TailCaps) (ts : List TailReq) (r : Req), s.twin.req = some (c, ts) →
        ts.any (fun t => t.task == g.1) = true → (tailAll s (trialReqs s)).find? (fun r => byteOf r.task == g.1) = some r →
        g.2.toNat % 4 ≠ 0 →
        let refused : Bool := g.2.toNat % 4 != 1
        exec (.twinGrant [g]) s = .next (applyVerdicts { s with
            twin.req := some (c, ts.filter (fun t => t.task != g.1)),
            sched := { s.sched with deferrals := s.sched.deferrals + b2n (!refused), refusals := s.sched.refusals + b2n refused } }
          [(r, { status := if refused then vRefuse else vDefer, reason := g.2.toNat / 4 % 32, energy := r.energy, far := true })])) ∧
      (∀ (c : TailCaps) (ts : List TailReq), s.t.p = 506 → s.twin.req = some (c, ts) →
        ∃ t : State, exec .tailGrantTimeout s = .next t ∧ t.twin.req = none ∧
          t = { grantTake s (ts.map (fun q => (q.task, 5))) with twin.req := none })) ∧
    (s.twin.mode ≠ 0 → ∀ (tick : BitVec 48) (frac source type : Byte) (armId : BitVec 16), s.trip.st ≠ .disarmed →
      s.trip.armId = armId → s.capt.armId = armId →
      ((pointKey s).any (fun p => decide (p.toNat ≤ (mkKey tick frac).toNat)) = true →
        ∃ t : State, exec (.twinTrig tick frac source type armId) s = .next t ∧ t.capt = { s.capt with ignored := s.capt.ignored + 1 }) ∧
      ((pointKey s).any (fun p => decide (p.toNat ≤ (mkKey tick frac).toNat)) = false →
        ∃ t : State, exec (.twinTrig tick frac source type armId) s = .next t ∧ t.capt.firePeg = s.twin.partner)) ∧
    (s.twin.mode ≠ 0 → ∀ (tick : BitVec 48) (frac source type : Byte) (armId : BitVec 16),
      s.trip.st = .disarmed ∨ s.trip.armId ≠ armId ∨ s.capt.armId ≠ armId →
      ∃ t : State, exec (.twinTrig tick frac source type armId) s = .next t ∧ t.capt = s.capt) ∧
    (isTail s = true → ∀ (flags st sum : Byte) (p : BitVec 144),
      exec (.twinSlot flags st sum p) s = .next { s with
        twin := { s.twin with handed := s.twin.handed ++ [(flags, st, sum, p)], partnerSt := st &&& 7 } })
end

