-- ==== Sys2Proof/Laws/Bytes.lean ====
section
/-! SUPPORT. Payloads read back: the bytes a field was laid out in spell the field again (00 R20). -/

namespace Sys2Proof

theorem beBytes_length (k x : Nat) : (beBytes k x).length = k := by
  induction k with
  | zero => rfl
  | succ k ih => simp [beBytes, ih]

/-- Reading on from an accumulator. -/
theorem beNat_from (bs : List Byte) (a : Nat) :
    bs.foldl (fun acc b => acc * 256 + b.toNat) a = a * 256 ^ bs.length + beNat bs := by
  induction bs generalizing a with
  | nil => simp [beNat]
  | cons b bs ih =>
    simp only [beNat, List.foldl_cons, List.length_cons]
    rw [ih, ih (0 * 256 + b.toNat), Nat.pow_succ, Nat.zero_mul, Nat.zero_add, Nat.add_mul, Nat.mul_assoc,
      Nat.mul_comm 256, Nat.add_assoc]

theorem beNat_cons (b : Byte) (bs : List Byte) : beNat (b :: bs) = b.toNat * 256 ^ bs.length + beNat bs := by
  simp only [beNat, List.foldl_cons]
  rw [beNat_from]
  simp [beNat]

/-- The bytes of a number spell it, as far as they reach. -/
theorem beNat_beBytes (k x : Nat) : beNat (beBytes k x) = x % 256 ^ k := by
  induction k with
  | zero => simp [beBytes, beNat, Nat.mod_one]
  | succ k ih =>
    rw [beBytes, beNat_cons, ih, beBytes_length, BitVec.toNat_ofNat]
    have h8 : (2 : Nat) ^ (8 * k) = 256 ^ k := by rw [Nat.pow_mul]
    rw [h8, show (2 : Nat) ^ 8 = 256 by rfl, Nat.pow_succ, Nat.mod_mul, Nat.add_comm, Nat.mul_comm]

namespace Machine

theorem plByte_zero (b : Byte) (l : List Byte) : plByte (b :: l) 0 = b.toNat := rfl

theorem plByte_succ (b : Byte) (l : List Byte) (i : Nat) : plByte (b :: l) (i + 1) = plByte l i := by
  simp [plByte]

theorem plField_succ (b : Byte) (l : List Byte) (i n : Nat) : plField (b :: l) (i + 1) n = plField l i n := rfl

/-- A field at the front of a payload. -/
theorem plField_front (k x : Nat) (l : List Byte) : plField (beBytes k x ++ l) 0 k = x % 256 ^ k := by
  have h : (beBytes k x ++ l).take k = beBytes k x := by
    rw [List.take_append_of_le_length (by simp [beBytes_length]), List.take_of_length_le (by simp [beBytes_length])]
  simp [plField, h, beNat_beBytes]

/-- The last field of a payload. -/
theorem plField_last (k x : Nat) : plField (beBytes k x) 0 k = x % 256 ^ k := by
  simpa using plField_front k x []

/-- A field behind another one. -/
theorem plField_behind (j x i n : Nat) (l : List Byte) : plField (beBytes j x ++ l) (j + i) n = plField l i n := by
  have h : (beBytes j x ++ l).drop (j + i) = l.drop i := by
    rw [← List.drop_drop, List.drop_left' (beBytes_length j x)]
  simp [plField, h]

/-- A byte behind a field. -/
theorem plByte_behind (j x i : Nat) (l : List Byte) : plByte (beBytes j x ++ l) (j + i) = plByte l i := by
  have h : (beBytes j x ++ l)[j + i]? = l[i]? := by
    rw [List.getElem?_append_right (by rw [beBytes_length]; omega), beBytes_length, Nat.add_sub_cancel_left]
  simp [plByte, h]

theorem beBytes_one (x : Nat) : beBytes 1 x = [BitVec.ofNat 8 x] := by simp [beBytes]

theorem beBytes_two (x : Nat) : beBytes 2 x = [BitVec.ofNat 8 (x / 2 ^ 8), BitVec.ofNat 8 x] := by simp [beBytes]

theorem beBytes_three (x : Nat) :
    beBytes 3 x = [BitVec.ofNat 8 (x / 2 ^ 16), BitVec.ofNat 8 (x / 2 ^ 8), BitVec.ofNat 8 x] := by simp [beBytes]

theorem beBytes_four (x : Nat) :
    beBytes 4 x = [BitVec.ofNat 8 (x / 2 ^ 24), BitVec.ofNat 8 (x / 2 ^ 16), BitVec.ofNat 8 (x / 2 ^ 8), BitVec.ofNat 8 x] := by
  simp [beBytes]

theorem beBytes_eight (x : Nat) :
    beBytes 8 x = [BitVec.ofNat 8 (x / 2 ^ 56), BitVec.ofNat 8 (x / 2 ^ 48), BitVec.ofNat 8 (x / 2 ^ 40),
      BitVec.ofNat 8 (x / 2 ^ 32), BitVec.ofNat 8 (x / 2 ^ 24), BitVec.ofNat 8 (x / 2 ^ 16), BitVec.ofNat 8 (x / 2 ^ 8),
      BitVec.ofNat 8 x] := by
  simp [beBytes]

/-- The pairs of a SETP read back. -/
theorem plPairs_pairBytes (ps : List (Pid × Word)) : plPairs (pairBytes ps) = ps.map (fun p => (p.1.toNat, p.2)) := by
  induction ps with
  | nil => rfl
  | cons p ps ih =>
    have h : pairBytes (p :: ps) = beBytes 2 p.1.toNat ++ beBytes 4 p.2.toNat ++ pairBytes ps := by simp [pairBytes]
    have h2 := beNat_beBytes 2 p.1.toNat
    have h4 := beNat_beBytes 4 p.2.toNat
    have b2 := p.1.isLt
    have b4 := p.2.isLt
    rw [beBytes_two] at h2
    rw [beBytes_four] at h4
    rw [h, beBytes_two, beBytes_four]
    simp only [List.cons_append, List.nil_append, plPairs, List.map_cons, ih, h2, h4]
    rw [Nat.mod_eq_of_lt (by simpa using b2), Nat.mod_eq_of_lt (by simpa using b4)]
    simp [natW]

/-- The IDs of a GETP read back. -/
theorem plIds_bytes (ids : List Pid) : plIds ((ids.map (fun i => beBytes 2 i.toNat)).flatten) = ids.map BitVec.toNat := by
  induction ids with
  | nil => rfl
  | cons i ids ih =>
    have h2 := beNat_beBytes 2 i.toNat
    have b2 := i.isLt
    rw [beBytes_two] at h2
    rw [List.map_cons, List.flatten_cons, beBytes_two]
    simp only [List.cons_append, List.nil_append, plIds, List.map_cons, ih, h2]
    rw [Nat.mod_eq_of_lt (by simpa using b2)]

/-- The coefficients of a FIRLOAD read back. -/
theorem plCoeffs_bytes (cs : List (BitVec 24)) : plCoeffs ((cs.map (fun c => beBytes 3 c.toNat)).flatten) = cs := by
  induction cs with
  | nil => rfl
  | cons c cs ih =>
    have h3 := beNat_beBytes 3 c.toNat
    have b3 := c.isLt
    rw [beBytes_three] at h3
    rw [List.map_cons, List.flatten_cons, beBytes_three]
    simp only [List.cons_append, List.nil_append, plCoeffs, ih, h3]
    rw [Nat.mod_eq_of_lt (by simpa using b3)]
    simp

/-- The points of a WAVELOAD read back. -/
theorem plPoints_bytes (ps : List (BitVec 16)) : plPoints ((ps.map (fun p => beBytes 2 p.toNat)).flatten) = ps := by
  induction ps with
  | nil => rfl
  | cons p ps ih =>
    have h2 := beNat_beBytes 2 p.toNat
    have b2 := p.isLt
    rw [beBytes_two] at h2
    rw [List.map_cons, List.flatten_cons, beBytes_two]
    simp only [List.cons_append, List.nil_append, plPoints, ih, h2]
    rw [Nat.mod_eq_of_lt (by simpa using b2)]
    simp

/-- The steps of a PROFLOAD read back. -/
theorem plSteps_bytes (ss : List (BitVec 64)) : plSteps ((ss.map (fun w => beBytes 8 w.toNat)).flatten) = ss := by
  induction ss with
  | nil => rfl
  | cons w ss ih =>
    have h8 := beNat_beBytes 8 w.toNat
    have b8 := w.isLt
    rw [beBytes_eight] at h8
    rw [List.map_cons, List.flatten_cons, beBytes_eight]
    simp only [List.cons_append, List.nil_append, plSteps, ih, h8]
    rw [Nat.mod_eq_of_lt (by simpa using b8)]
    simp

end Machine

end Sys2Proof
end

