-- ==== Sys2Proof/Laws/State.lean ====
section
/-! SUPPORT. What each named operation leaves as it was: one lemma per field. -/

namespace Sys2Proof.Machine

variable (s : State)

/-! ### setParam writes only `cfg` -/

@[simp] theorem setParam_u (id : Nat) (w : Word) : (setParam s id w).u = s.u := rfl
@[simp] theorem setParam_t (id : Nat) (w : Word) : (setParam s id w).t = s.t := rfl
@[simp] theorem setParam_ring (id : Nat) (w : Word) : (setParam s id w).ring = s.ring := rfl
@[simp] theorem setParam_out (id : Nat) (w : Word) : (setParam s id w).out = s.out := rfl
@[simp] theorem setParam_cmd (id : Nat) (w : Word) : (setParam s id w).cmd = s.cmd := rfl
@[simp] theorem setParam_rights (id : Nat) (w : Word) : (setParam s id w).rights = s.rights := rfl
@[simp] theorem setParam_log (id : Nat) (w : Word) : (setParam s id w).log = s.log := rfl
@[simp] theorem setParam_nv (id : Nat) (w : Word) : (setParam s id w).nv = s.nv := rfl
@[simp] theorem setParam_fac (id : Nat) (w : Word) : (setParam s id w).fac = s.fac := rfl
@[simp] theorem setParam_fd (id : Nat) (w : Word) : (setParam s id w).fd = s.fd := rfl
@[simp] theorem setParam_seam (id : Nat) (w : Word) : (setParam s id w).seam = s.seam := rfl
@[simp] theorem setParam_tally (id : Nat) (w : Word) : (setParam s id w).tally = s.tally := rfl
@[simp] theorem setParam_alarm (id : Nat) (w : Word) : (setParam s id w).alarm = s.alarm := rfl
@[simp] theorem setParam_sched (id : Nat) (w : Word) : (setParam s id w).sched = s.sched := rfl
@[simp] theorem setParam_chain (id : Nat) (w : Word) : (setParam s id w).chain = s.chain := rfl
@[simp] theorem setParam_gmarks (id : Nat) (w : Word) : (setParam s id w).gmarks = s.gmarks := rfl
@[simp] theorem setParam_front (id : Nat) (w : Word) : (setParam s id w).front = s.front := rfl
@[simp] theorem setParam_cell (id : Nat) (w : Word) : (setParam s id w).cell = s.cell := rfl
@[simp] theorem setParam_mox (id : Nat) (w : Word) : (setParam s id w).mox = s.mox := rfl
@[simp] theorem setParam_htr (id : Nat) (w : Word) : (setParam s id w).htr = s.htr := rfl
@[simp] theorem setParam_brg (id : Nat) (w : Word) : (setParam s id w).brg = s.brg := rfl
@[simp] theorem setParam_hk (id : Nat) (w : Word) : (setParam s id w).hk = s.hk := rfl
@[simp] theorem setParam_usets (id : Nat) (w : Word) : (setParam s id w).usets = s.usets := rfl
@[simp] theorem setParam_profiles (id : Nat) (w : Word) : (setParam s id w).profiles = s.profiles := rfl
@[simp] theorem setParam_ty (id : Nat) (w : Word) : (setParam s id w).ty = s.ty := rfl
@[simp] theorem setParam_syncs (id : Nat) (w : Word) : (setParam s id w).syncs = s.syncs := rfl
@[simp] theorem setParam_arms (id : Nat) (w : Word) : (setParam s id w).arms = s.arms := rfl
@[simp] theorem setParam_z (id : Nat) (w : Word) : (setParam s id w).z = s.z := rfl
@[simp] theorem setParam_trip (id : Nat) (w : Word) : (setParam s id w).trip = s.trip := rfl
@[simp] theorem setParam_capt (id : Nat) (w : Word) : (setParam s id w).capt = s.capt := rfl
@[simp] theorem setParam_stream (id : Nat) (w : Word) : (setParam s id w).stream = s.stream := rfl
@[simp] theorem setParam_aout (id : Nat) (w : Word) : (setParam s id w).aout = s.aout := rfl
@[simp] theorem setParam_wave (id : Nat) (w : Word) : (setParam s id w).wave = s.wave := rfl
@[simp] theorem setParam_twin (id : Nat) (w : Word) : (setParam s id w).twin = s.twin := rfl
@[simp] theorem setParam_vigil (id : Nat) (w : Word) : (setParam s id w).vigil = s.vigil := rfl
@[simp] theorem setParam_counted (id : Nat) (w : Word) : (setParam s id w).counted = s.counted := rfl
@[simp] theorem setParam_pending (id : Nat) (w : Word) : (setParam s id w).pending = s.pending := rfl

/-! ### logTag writes only `log` -/

@[simp] theorem logTag_u (tg : BitVec 48 × BitVec 16) (o : BitVec 16) (ev sub : Nat) (old new : Word) : (logTag s tg o ev sub old new).u = s.u := rfl
@[simp] theorem logTag_t (tg : BitVec 48 × BitVec 16) (o : BitVec 16) (ev sub : Nat) (old new : Word) : (logTag s tg o ev sub old new).t = s.t := rfl
@[simp] theorem logTag_ring (tg : BitVec 48 × BitVec 16) (o : BitVec 16) (ev sub : Nat) (old new : Word) : (logTag s tg o ev sub old new).ring = s.ring := rfl
@[simp] theorem logTag_out (tg : BitVec 48 × BitVec 16) (o : BitVec 16) (ev sub : Nat) (old new : Word) : (logTag s tg o ev sub old new).out = s.out := rfl
@[simp] theorem logTag_cmd (tg : BitVec 48 × BitVec 16) (o : BitVec 16) (ev sub : Nat) (old new : Word) : (logTag s tg o ev sub old new).cmd = s.cmd := rfl
@[simp] theorem logTag_rights (tg : BitVec 48 × BitVec 16) (o : BitVec 16) (ev sub : Nat) (old new : Word) : (logTag s tg o ev sub old new).rights = s.rights := rfl
@[simp] theorem logTag_nv (tg : BitVec 48 × BitVec 16) (o : BitVec 16) (ev sub : Nat) (old new : Word) : (logTag s tg o ev sub old new).nv = s.nv := rfl
@[simp] theorem logTag_fac (tg : BitVec 48 × BitVec 16) (o : BitVec 16) (ev sub : Nat) (old new : Word) : (logTag s tg o ev sub old new).fac = s.fac := rfl
@[simp] theorem logTag_cfg (tg : BitVec 48 × BitVec 16) (o : BitVec 16) (ev sub : Nat) (old new : Word) : (logTag s tg o ev sub old new).cfg = s.cfg := rfl
@[simp] theorem logTag_fd (tg : BitVec 48 × BitVec 16) (o : BitVec 16) (ev sub : Nat) (old new : Word) : (logTag s tg o ev sub old new).fd = s.fd := rfl
@[simp] theorem logTag_seam (tg : BitVec 48 × BitVec 16) (o : BitVec 16) (ev sub : Nat) (old new : Word) : (logTag s tg o ev sub old new).seam = s.seam := rfl
@[simp] theorem logTag_tally (tg : BitVec 48 × BitVec 16) (o : BitVec 16) (ev sub : Nat) (old new : Word) : (logTag s tg o ev sub old new).tally = s.tally := rfl
@[simp] theorem logTag_alarm (tg : BitVec 48 × BitVec 16) (o : BitVec 16) (ev sub : Nat) (old new : Word) : (logTag s tg o ev sub old new).alarm = s.alarm := rfl
@[simp] theorem logTag_sched (tg : BitVec 48 × BitVec 16) (o : BitVec 16) (ev sub : Nat) (old new : Word) : (logTag s tg o ev sub old new).sched = s.sched := rfl
@[simp] theorem logTag_chain (tg : BitVec 48 × BitVec 16) (o : BitVec 16) (ev sub : Nat) (old new : Word) : (logTag s tg o ev sub old new).chain = s.chain := rfl
@[simp] theorem logTag_gmarks (tg : BitVec 48 × BitVec 16) (o : BitVec 16) (ev sub : Nat) (old new : Word) : (logTag s tg o ev sub old new).gmarks = s.gmarks := rfl
@[simp] theorem logTag_front (tg : BitVec 48 × BitVec 16) (o : BitVec 16) (ev sub : Nat) (old new : Word) : (logTag s tg o ev sub old new).front = s.front := rfl
@[simp] theorem logTag_cell (tg : BitVec 48 × BitVec 16) (o : BitVec 16) (ev sub : Nat) (old new : Word) : (logTag s tg o ev sub old new).cell = s.cell := rfl
@[simp] theorem logTag_mox (tg : BitVec 48 × BitVec 16) (o : BitVec 16) (ev sub : Nat) (old new : Word) : (logTag s tg o ev sub old new).mox = s.mox := rfl
@[simp] theorem logTag_htr (tg : BitVec 48 × BitVec 16) (o : BitVec 16) (ev sub : Nat) (old new : Word) : (logTag s tg o ev sub old new).htr = s.htr := rfl
@[simp] theorem logTag_brg (tg : BitVec 48 × BitVec 16) (o : BitVec 16) (ev sub : Nat) (old new : Word) : (logTag s tg o ev sub old new).brg = s.brg := rfl
@[simp] theorem logTag_hk (tg : BitVec 48 × BitVec 16) (o : BitVec 16) (ev sub : Nat) (old new : Word) : (logTag s tg o ev sub old new).hk = s.hk := rfl
@[simp] theorem logTag_usets (tg : BitVec 48 × BitVec 16) (o : BitVec 16) (ev sub : Nat) (old new : Word) : (logTag s tg o ev sub old new).usets = s.usets := rfl
@[simp] theorem logTag_profiles (tg : BitVec 48 × BitVec 16) (o : BitVec 16) (ev sub : Nat) (old new : Word) : (logTag s tg o ev sub old new).profiles = s.profiles := rfl
@[simp] theorem logTag_ty (tg : BitVec 48 × BitVec 16) (o : BitVec 16) (ev sub : Nat) (old new : Word) : (logTag s tg o ev sub old new).ty = s.ty := rfl
@[simp] theorem logTag_syncs (tg : BitVec 48 × BitVec 16) (o : BitVec 16) (ev sub : Nat) (old new : Word) : (logTag s tg o ev sub old new).syncs = s.syncs := rfl
@[simp] theorem logTag_arms (tg : BitVec 48 × BitVec 16) (o : BitVec 16) (ev sub : Nat) (old new : Word) : (logTag s tg o ev sub old new).arms = s.arms := rfl
@[simp] theorem logTag_z (tg : BitVec 48 × BitVec 16) (o : BitVec 16) (ev sub : Nat) (old new : Word) : (logTag s tg o ev sub old new).z = s.z := rfl
@[simp] theorem logTag_trip (tg : BitVec 48 × BitVec 16) (o : BitVec 16) (ev sub : Nat) (old new : Word) : (logTag s tg o ev sub old new).trip = s.trip := rfl
@[simp] theorem logTag_capt (tg : BitVec 48 × BitVec 16) (o : BitVec 16) (ev sub : Nat) (old new : Word) : (logTag s tg o ev sub old new).capt = s.capt := rfl
@[simp] theorem logTag_stream (tg : BitVec 48 × BitVec 16) (o : BitVec 16) (ev sub : Nat) (old new : Word) : (logTag s tg o ev sub old new).stream = s.stream := rfl
@[simp] theorem logTag_aout (tg : BitVec 48 × BitVec 16) (o : BitVec 16) (ev sub : Nat) (old new : Word) : (logTag s tg o ev sub old new).aout = s.aout := rfl
@[simp] theorem logTag_wave (tg : BitVec 48 × BitVec 16) (o : BitVec 16) (ev sub : Nat) (old new : Word) : (logTag s tg o ev sub old new).wave = s.wave := rfl
@[simp] theorem logTag_twin (tg : BitVec 48 × BitVec 16) (o : BitVec 16) (ev sub : Nat) (old new : Word) : (logTag s tg o ev sub old new).twin = s.twin := rfl
@[simp] theorem logTag_vigil (tg : BitVec 48 × BitVec 16) (o : BitVec 16) (ev sub : Nat) (old new : Word) : (logTag s tg o ev sub old new).vigil = s.vigil := rfl
@[simp] theorem logTag_counted (tg : BitVec 48 × BitVec 16) (o : BitVec 16) (ev sub : Nat) (old new : Word) : (logTag s tg o ev sub old new).counted = s.counted := rfl
@[simp] theorem logTag_pending (tg : BitVec 48 × BitVec 16) (o : BitVec 16) (ev sub : Nat) (old new : Word) : (logTag s tg o ev sub old new).pending = s.pending := rfl

/-! ### logAt writes only `log` -/

@[simp] theorem logAt_u (u : Nat) (o : BitVec 16) (ev sub : Nat) (old new : Word) : (logAt s u o ev sub old new).u = s.u := rfl
@[simp] theorem logAt_t (u : Nat) (o : BitVec 16) (ev sub : Nat) (old new : Word) : (logAt s u o ev sub old new).t = s.t := rfl
@[simp] theorem logAt_ring (u : Nat) (o : BitVec 16) (ev sub : Nat) (old new : Word) : (logAt s u o ev sub old new).ring = s.ring := rfl
@[simp] theorem logAt_out (u : Nat) (o : BitVec 16) (ev sub : Nat) (old new : Word) : (logAt s u o ev sub old new).out = s.out := rfl
@[simp] theorem logAt_cmd (u : Nat) (o : BitVec 16) (ev sub : Nat) (old new : Word) : (logAt s u o ev sub old new).cmd = s.cmd := rfl
@[simp] theorem logAt_rights (u : Nat) (o : BitVec 16) (ev sub : Nat) (old new : Word) : (logAt s u o ev sub old new).rights = s.rights := rfl
@[simp] theorem logAt_nv (u : Nat) (o : BitVec 16) (ev sub : Nat) (old new : Word) : (logAt s u o ev sub old new).nv = s.nv := rfl
@[simp] theorem logAt_fac (u : Nat) (o : BitVec 16) (ev sub : Nat) (old new : Word) : (logAt s u o ev sub old new).fac = s.fac := rfl
@[simp] theorem logAt_cfg (u : Nat) (o : BitVec 16) (ev sub : Nat) (old new : Word) : (logAt s u o ev sub old new).cfg = s.cfg := rfl
@[simp] theorem logAt_fd (u : Nat) (o : BitVec 16) (ev sub : Nat) (old new : Word) : (logAt s u o ev sub old new).fd = s.fd := rfl
@[simp] theorem logAt_seam (u : Nat) (o : BitVec 16) (ev sub : Nat) (old new : Word) : (logAt s u o ev sub old new).seam = s.seam := rfl
@[simp] theorem logAt_tally (u : Nat) (o : BitVec 16) (ev sub : Nat) (old new : Word) : (logAt s u o ev sub old new).tally = s.tally := rfl
@[simp] theorem logAt_alarm (u : Nat) (o : BitVec 16) (ev sub : Nat) (old new : Word) : (logAt s u o ev sub old new).alarm = s.alarm := rfl
@[simp] theorem logAt_sched (u : Nat) (o : BitVec 16) (ev sub : Nat) (old new : Word) : (logAt s u o ev sub old new).sched = s.sched := rfl
@[simp] theorem logAt_chain (u : Nat) (o : BitVec 16) (ev sub : Nat) (old new : Word) : (logAt s u o ev sub old new).chain = s.chain := rfl
@[simp] theorem logAt_gmarks (u : Nat) (o : BitVec 16) (ev sub : Nat) (old new : Word) : (logAt s u o ev sub old new).gmarks = s.gmarks := rfl
@[simp] theorem logAt_front (u : Nat) (o : BitVec 16) (ev sub : Nat) (old new : Word) : (logAt s u o ev sub old new).front = s.front := rfl
@[simp] theorem logAt_cell (u : Nat) (o : BitVec 16) (ev sub : Nat) (old new : Word) : (logAt s u o ev sub old new).cell = s.cell := rfl
@[simp] theorem logAt_mox (u : Nat) (o : BitVec 16) (ev sub : Nat) (old new : Word) : (logAt s u o ev sub old new).mox = s.mox := rfl
@[simp] theorem logAt_htr (u : Nat) (o : BitVec 16) (ev sub : Nat) (old new : Word) : (logAt s u o ev sub old new).htr = s.htr := rfl
@[simp] theorem logAt_brg (u : Nat) (o : BitVec 16) (ev sub : Nat) (old new : Word) : (logAt s u o ev sub old new).brg = s.brg := rfl
@[simp] theorem logAt_hk (u : Nat) (o : BitVec 16) (ev sub : Nat) (old new : Word) : (logAt s u o ev sub old new).hk = s.hk := rfl
@[simp] theorem logAt_usets (u : Nat) (o : BitVec 16) (ev sub : Nat) (old new : Word) : (logAt s u o ev sub old new).usets = s.usets := rfl
@[simp] theorem logAt_profiles (u : Nat) (o : BitVec 16) (ev sub : Nat) (old new : Word) : (logAt s u o ev sub old new).profiles = s.profiles := rfl
@[simp] theorem logAt_ty (u : Nat) (o : BitVec 16) (ev sub : Nat) (old new : Word) : (logAt s u o ev sub old new).ty = s.ty := rfl
@[simp] theorem logAt_syncs (u : Nat) (o : BitVec 16) (ev sub : Nat) (old new : Word) : (logAt s u o ev sub old new).syncs = s.syncs := rfl
@[simp] theorem logAt_arms (u : Nat) (o : BitVec 16) (ev sub : Nat) (old new : Word) : (logAt s u o ev sub old new).arms = s.arms := rfl
@[simp] theorem logAt_z (u : Nat) (o : BitVec 16) (ev sub : Nat) (old new : Word) : (logAt s u o ev sub old new).z = s.z := rfl
@[simp] theorem logAt_trip (u : Nat) (o : BitVec 16) (ev sub : Nat) (old new : Word) : (logAt s u o ev sub old new).trip = s.trip := rfl
@[simp] theorem logAt_capt (u : Nat) (o : BitVec 16) (ev sub : Nat) (old new : Word) : (logAt s u o ev sub old new).capt = s.capt := rfl
@[simp] theorem logAt_stream (u : Nat) (o : BitVec 16) (ev sub : Nat) (old new : Word) : (logAt s u o ev sub old new).stream = s.stream := rfl
@[simp] theorem logAt_aout (u : Nat) (o : BitVec 16) (ev sub : Nat) (old new : Word) : (logAt s u o ev sub old new).aout = s.aout := rfl
@[simp] theorem logAt_wave (u : Nat) (o : BitVec 16) (ev sub : Nat) (old new : Word) : (logAt s u o ev sub old new).wave = s.wave := rfl
@[simp] theorem logAt_twin (u : Nat) (o : BitVec 16) (ev sub : Nat) (old new : Word) : (logAt s u o ev sub old new).twin = s.twin := rfl
@[simp] theorem logAt_vigil (u : Nat) (o : BitVec 16) (ev sub : Nat) (old new : Word) : (logAt s u o ev sub old new).vigil = s.vigil := rfl
@[simp] theorem logAt_counted (u : Nat) (o : BitVec 16) (ev sub : Nat) (old new : Word) : (logAt s u o ev sub old new).counted = s.counted := rfl
@[simp] theorem logAt_pending (u : Nat) (o : BitVec 16) (ev sub : Nat) (old new : Word) : (logAt s u o ev sub old new).pending = s.pending := rfl

/-! ### logE writes only `log` -/

@[simp] theorem logE_u (o : BitVec 16) (ev sub : Nat) (old new : Word) : (logE s o ev sub old new).u = s.u := rfl
@[simp] theorem logE_t (o : BitVec 16) (ev sub : Nat) (old new : Word) : (logE s o ev sub old new).t = s.t := rfl
@[simp] theorem logE_ring (o : BitVec 16) (ev sub : Nat) (old new : Word) : (logE s o ev sub old new).ring = s.ring := rfl
@[simp] theorem logE_out (o : BitVec 16) (ev sub : Nat) (old new : Word) : (logE s o ev sub old new).out = s.out := rfl
@[simp] theorem logE_cmd (o : BitVec 16) (ev sub : Nat) (old new : Word) : (logE s o ev sub old new).cmd = s.cmd := rfl
@[simp] theorem logE_rights (o : BitVec 16) (ev sub : Nat) (old new : Word) : (logE s o ev sub old new).rights = s.rights := rfl
@[simp] theorem logE_nv (o : BitVec 16) (ev sub : Nat) (old new : Word) : (logE s o ev sub old new).nv = s.nv := rfl
@[simp] theorem logE_fac (o : BitVec 16) (ev sub : Nat) (old new : Word) : (logE s o ev sub old new).fac = s.fac := rfl
@[simp] theorem logE_cfg (o : BitVec 16) (ev sub : Nat) (old new : Word) : (logE s o ev sub old new).cfg = s.cfg := rfl
@[simp] theorem logE_fd (o : BitVec 16) (ev sub : Nat) (old new : Word) : (logE s o ev sub old new).fd = s.fd := rfl
@[simp] theorem logE_seam (o : BitVec 16) (ev sub : Nat) (old new : Word) : (logE s o ev sub old new).seam = s.seam := rfl
@[simp] theorem logE_tally (o : BitVec 16) (ev sub : Nat) (old new : Word) : (logE s o ev sub old new).tally = s.tally := rfl
@[simp] theorem logE_alarm (o : BitVec 16) (ev sub : Nat) (old new : Word) : (logE s o ev sub old new).alarm = s.alarm := rfl
@[simp] theorem logE_sched (o : BitVec 16) (ev sub : Nat) (old new : Word) : (logE s o ev sub old new).sched = s.sched := rfl
@[simp] theorem logE_chain (o : BitVec 16) (ev sub : Nat) (old new : Word) : (logE s o ev sub old new).chain = s.chain := rfl
@[simp] theorem logE_gmarks (o : BitVec 16) (ev sub : Nat) (old new : Word) : (logE s o ev sub old new).gmarks = s.gmarks := rfl
@[simp] theorem logE_front (o : BitVec 16) (ev sub : Nat) (old new : Word) : (logE s o ev sub old new).front = s.front := rfl
@[simp] theorem logE_cell (o : BitVec 16) (ev sub : Nat) (old new : Word) : (logE s o ev sub old new).cell = s.cell := rfl
@[simp] theorem logE_mox (o : BitVec 16) (ev sub : Nat) (old new : Word) : (logE s o ev sub old new).mox = s.mox := rfl
@[simp] theorem logE_htr (o : BitVec 16) (ev sub : Nat) (old new : Word) : (logE s o ev sub old new).htr = s.htr := rfl
@[simp] theorem logE_brg (o : BitVec 16) (ev sub : Nat) (old new : Word) : (logE s o ev sub old new).brg = s.brg := rfl
@[simp] theorem logE_hk (o : BitVec 16) (ev sub : Nat) (old new : Word) : (logE s o ev sub old new).hk = s.hk := rfl
@[simp] theorem logE_usets (o : BitVec 16) (ev sub : Nat) (old new : Word) : (logE s o ev sub old new).usets = s.usets := rfl
@[simp] theorem logE_profiles (o : BitVec 16) (ev sub : Nat) (old new : Word) : (logE s o ev sub old new).profiles = s.profiles := rfl
@[simp] theorem logE_ty (o : BitVec 16) (ev sub : Nat) (old new : Word) : (logE s o ev sub old new).ty = s.ty := rfl
@[simp] theorem logE_syncs (o : BitVec 16) (ev sub : Nat) (old new : Word) : (logE s o ev sub old new).syncs = s.syncs := rfl
@[simp] theorem logE_arms (o : BitVec 16) (ev sub : Nat) (old new : Word) : (logE s o ev sub old new).arms = s.arms := rfl
@[simp] theorem logE_z (o : BitVec 16) (ev sub : Nat) (old new : Word) : (logE s o ev sub old new).z = s.z := rfl
@[simp] theorem logE_trip (o : BitVec 16) (ev sub : Nat) (old new : Word) : (logE s o ev sub old new).trip = s.trip := rfl
@[simp] theorem logE_capt (o : BitVec 16) (ev sub : Nat) (old new : Word) : (logE s o ev sub old new).capt = s.capt := rfl
@[simp] theorem logE_stream (o : BitVec 16) (ev sub : Nat) (old new : Word) : (logE s o ev sub old new).stream = s.stream := rfl
@[simp] theorem logE_aout (o : BitVec 16) (ev sub : Nat) (old new : Word) : (logE s o ev sub old new).aout = s.aout := rfl
@[simp] theorem logE_wave (o : BitVec 16) (ev sub : Nat) (old new : Word) : (logE s o ev sub old new).wave = s.wave := rfl
@[simp] theorem logE_twin (o : BitVec 16) (ev sub : Nat) (old new : Word) : (logE s o ev sub old new).twin = s.twin := rfl
@[simp] theorem logE_vigil (o : BitVec 16) (ev sub : Nat) (old new : Word) : (logE s o ev sub old new).vigil = s.vigil := rfl
@[simp] theorem logE_counted (o : BitVec 16) (ev sub : Nat) (old new : Word) : (logE s o ev sub old new).counted = s.counted := rfl
@[simp] theorem logE_pending (o : BitVec 16) (ev sub : Nat) (old new : Word) : (logE s o ev sub old new).pending = s.pending := rfl

/-! ### queueEvent writes only `cmd` -/

@[simp] theorem queueEvent_u (code : Nat) (data : List Byte) : (queueEvent s code data).u = s.u := by unfold queueEvent; split <;> rfl
@[simp] theorem queueEvent_t (code : Nat) (data : List Byte) : (queueEvent s code data).t = s.t := by unfold queueEvent; split <;> rfl
@[simp] theorem queueEvent_ring (code : Nat) (data : List Byte) : (queueEvent s code data).ring = s.ring := by unfold queueEvent; split <;> rfl
@[simp] theorem queueEvent_out (code : Nat) (data : List Byte) : (queueEvent s code data).out = s.out := by unfold queueEvent; split <;> rfl
@[simp] theorem queueEvent_rights (code : Nat) (data : List Byte) : (queueEvent s code data).rights = s.rights := by unfold queueEvent; split <;> rfl
@[simp] theorem queueEvent_log (code : Nat) (data : List Byte) : (queueEvent s code data).log = s.log := by unfold queueEvent; split <;> rfl
@[simp] theorem queueEvent_nv (code : Nat) (data : List Byte) : (queueEvent s code data).nv = s.nv := by unfold queueEvent; split <;> rfl
@[simp] theorem queueEvent_fac (code : Nat) (data : List Byte) : (queueEvent s code data).fac = s.fac := by unfold queueEvent; split <;> rfl
@[simp] theorem queueEvent_cfg (code : Nat) (data : List Byte) : (queueEvent s code data).cfg = s.cfg := by unfold queueEvent; split <;> rfl
@[simp] theorem queueEvent_fd (code : Nat) (data : List Byte) : (queueEvent s code data).fd = s.fd := by unfold queueEvent; split <;> rfl
@[simp] theorem queueEvent_seam (code : Nat) (data : List Byte) : (queueEvent s code data).seam = s.seam := by unfold queueEvent; split <;> rfl
@[simp] theorem queueEvent_tally (code : Nat) (data : List Byte) : (queueEvent s code data).tally = s.tally := by unfold queueEvent; split <;> rfl
@[simp] theorem queueEvent_alarm (code : Nat) (data : List Byte) : (queueEvent s code data).alarm = s.alarm := by unfold queueEvent; split <;> rfl
@[simp] theorem queueEvent_sched (code : Nat) (data : List Byte) : (queueEvent s code data).sched = s.sched := by unfold queueEvent; split <;> rfl
@[simp] theorem queueEvent_chain (code : Nat) (data : List Byte) : (queueEvent s code data).chain = s.chain := by unfold queueEvent; split <;> rfl
@[simp] theorem queueEvent_gmarks (code : Nat) (data : List Byte) : (queueEvent s code data).gmarks = s.gmarks := by unfold queueEvent; split <;> rfl
@[simp] theorem queueEvent_front (code : Nat) (data : List Byte) : (queueEvent s code data).front = s.front := by unfold queueEvent; split <;> rfl
@[simp] theorem queueEvent_cell (code : Nat) (data : List Byte) : (queueEvent s code data).cell = s.cell := by unfold queueEvent; split <;> rfl
@[simp] theorem queueEvent_mox (code : Nat) (data : List Byte) : (queueEvent s code data).mox = s.mox := by unfold queueEvent; split <;> rfl
@[simp] theorem queueEvent_htr (code : Nat) (data : List Byte) : (queueEvent s code data).htr = s.htr := by unfold queueEvent; split <;> rfl
@[simp] theorem queueEvent_brg (code : Nat) (data : List Byte) : (queueEvent s code data).brg = s.brg := by unfold queueEvent; split <;> rfl
@[simp] theorem queueEvent_hk (code : Nat) (data : List Byte) : (queueEvent s code data).hk = s.hk := by unfold queueEvent; split <;> rfl
@[simp] theorem queueEvent_usets (code : Nat) (data : List Byte) : (queueEvent s code data).usets = s.usets := by unfold queueEvent; split <;> rfl
@[simp] theorem queueEvent_profiles (code : Nat) (data : List Byte) : (queueEvent s code data).profiles = s.profiles := by unfold queueEvent; split <;> rfl
@[simp] theorem queueEvent_ty (code : Nat) (data : List Byte) : (queueEvent s code data).ty = s.ty := by unfold queueEvent; split <;> rfl
@[simp] theorem queueEvent_syncs (code : Nat) (data : List Byte) : (queueEvent s code data).syncs = s.syncs := by unfold queueEvent; split <;> rfl
@[simp] theorem queueEvent_arms (code : Nat) (data : List Byte) : (queueEvent s code data).arms = s.arms := by unfold queueEvent; split <;> rfl
@[simp] theorem queueEvent_z (code : Nat) (data : List Byte) : (queueEvent s code data).z = s.z := by unfold queueEvent; split <;> rfl
@[simp] theorem queueEvent_trip (code : Nat) (data : List Byte) : (queueEvent s code data).trip = s.trip := by unfold queueEvent; split <;> rfl
@[simp] theorem queueEvent_capt (code : Nat) (data : List Byte) : (queueEvent s code data).capt = s.capt := by unfold queueEvent; split <;> rfl
@[simp] theorem queueEvent_stream (code : Nat) (data : List Byte) : (queueEvent s code data).stream = s.stream := by unfold queueEvent; split <;> rfl
@[simp] theorem queueEvent_aout (code : Nat) (data : List Byte) : (queueEvent s code data).aout = s.aout := by unfold queueEvent; split <;> rfl
@[simp] theorem queueEvent_wave (code : Nat) (data : List Byte) : (queueEvent s code data).wave = s.wave := by unfold queueEvent; split <;> rfl
@[simp] theorem queueEvent_twin (code : Nat) (data : List Byte) : (queueEvent s code data).twin = s.twin := by unfold queueEvent; split <;> rfl
@[simp] theorem queueEvent_vigil (code : Nat) (data : List Byte) : (queueEvent s code data).vigil = s.vigil := by unfold queueEvent; split <;> rfl
@[simp] theorem queueEvent_counted (code : Nat) (data : List Byte) : (queueEvent s code data).counted = s.counted := by unfold queueEvent; split <;> rfl
@[simp] theorem queueEvent_pending (code : Nat) (data : List Byte) : (queueEvent s code data).pending = s.pending := by unfold queueEvent; split <;> rfl

/-! ### regWrite writes only `seam` -/

@[simp] theorem regWrite_u (a : Nat) (d : BitVec 16) : (regWrite s a d).u = s.u := rfl
@[simp] theorem regWrite_t (a : Nat) (d : BitVec 16) : (regWrite s a d).t = s.t := rfl
@[simp] theorem regWrite_ring (a : Nat) (d : BitVec 16) : (regWrite s a d).ring = s.ring := rfl
@[simp] theorem regWrite_out (a : Nat) (d : BitVec 16) : (regWrite s a d).out = s.out := rfl
@[simp] theorem regWrite_cmd (a : Nat) (d : BitVec 16) : (regWrite s a d).cmd = s.cmd := rfl
@[simp] theorem regWrite_rights (a : Nat) (d : BitVec 16) : (regWrite s a d).rights = s.rights := rfl
@[simp] theorem regWrite_log (a : Nat) (d : BitVec 16) : (regWrite s a d).log = s.log := rfl
@[simp] theorem regWrite_nv (a : Nat) (d : BitVec 16) : (regWrite s a d).nv = s.nv := rfl
@[simp] theorem regWrite_fac (a : Nat) (d : BitVec 16) : (regWrite s a d).fac = s.fac := rfl
@[simp] theorem regWrite_cfg (a : Nat) (d : BitVec 16) : (regWrite s a d).cfg = s.cfg := rfl
@[simp] theorem regWrite_fd (a : Nat) (d : BitVec 16) : (regWrite s a d).fd = s.fd := rfl
@[simp] theorem regWrite_tally (a : Nat) (d : BitVec 16) : (regWrite s a d).tally = s.tally := rfl
@[simp] theorem regWrite_alarm (a : Nat) (d : BitVec 16) : (regWrite s a d).alarm = s.alarm := rfl
@[simp] theorem regWrite_sched (a : Nat) (d : BitVec 16) : (regWrite s a d).sched = s.sched := rfl
@[simp] theorem regWrite_chain (a : Nat) (d : BitVec 16) : (regWrite s a d).chain = s.chain := rfl
@[simp] theorem regWrite_gmarks (a : Nat) (d : BitVec 16) : (regWrite s a d).gmarks = s.gmarks := rfl
@[simp] theorem regWrite_front (a : Nat) (d : BitVec 16) : (regWrite s a d).front = s.front := rfl
@[simp] theorem regWrite_cell (a : Nat) (d : BitVec 16) : (regWrite s a d).cell = s.cell := rfl
@[simp] theorem regWrite_mox (a : Nat) (d : BitVec 16) : (regWrite s a d).mox = s.mox := rfl
@[simp] theorem regWrite_htr (a : Nat) (d : BitVec 16) : (regWrite s a d).htr = s.htr := rfl
@[simp] theorem regWrite_brg (a : Nat) (d : BitVec 16) : (regWrite s a d).brg = s.brg := rfl
@[simp] theorem regWrite_hk (a : Nat) (d : BitVec 16) : (regWrite s a d).hk = s.hk := rfl
@[simp] theorem regWrite_usets (a : Nat) (d : BitVec 16) : (regWrite s a d).usets = s.usets := rfl
@[simp] theorem regWrite_profiles (a : Nat) (d : BitVec 16) : (regWrite s a d).profiles = s.profiles := rfl
@[simp] theorem regWrite_ty (a : Nat) (d : BitVec 16) : (regWrite s a d).ty = s.ty := rfl
@[simp] theorem regWrite_syncs (a : Nat) (d : BitVec 16) : (regWrite s a d).syncs = s.syncs := rfl
@[simp] theorem regWrite_arms (a : Nat) (d : BitVec 16) : (regWrite s a d).arms = s.arms := rfl
@[simp] theorem regWrite_z (a : Nat) (d : BitVec 16) : (regWrite s a d).z = s.z := rfl
@[simp] theorem regWrite_trip (a : Nat) (d : BitVec 16) : (regWrite s a d).trip = s.trip := rfl
@[simp] theorem regWrite_capt (a : Nat) (d : BitVec 16) : (regWrite s a d).capt = s.capt := rfl
@[simp] theorem regWrite_stream (a : Nat) (d : BitVec 16) : (regWrite s a d).stream = s.stream := rfl
@[simp] theorem regWrite_aout (a : Nat) (d : BitVec 16) : (regWrite s a d).aout = s.aout := rfl
@[simp] theorem regWrite_wave (a : Nat) (d : BitVec 16) : (regWrite s a d).wave = s.wave := rfl
@[simp] theorem regWrite_twin (a : Nat) (d : BitVec 16) : (regWrite s a d).twin = s.twin := rfl
@[simp] theorem regWrite_vigil (a : Nat) (d : BitVec 16) : (regWrite s a d).vigil = s.vigil := rfl
@[simp] theorem regWrite_counted (a : Nat) (d : BitVec 16) : (regWrite s a d).counted = s.counted := rfl
@[simp] theorem regWrite_pending (a : Nat) (d : BitVec 16) : (regWrite s a d).pending = s.pending := rfl

/-! ### regSet writes only `seam` -/

@[simp] theorem regSet_u (a hi lo v : Nat) : (regSet s a hi lo v).u = s.u := rfl
@[simp] theorem regSet_t (a hi lo v : Nat) : (regSet s a hi lo v).t = s.t := rfl
@[simp] theorem regSet_ring (a hi lo v : Nat) : (regSet s a hi lo v).ring = s.ring := rfl
@[simp] theorem regSet_out (a hi lo v : Nat) : (regSet s a hi lo v).out = s.out := rfl
@[simp] theorem regSet_cmd (a hi lo v : Nat) : (regSet s a hi lo v).cmd = s.cmd := rfl
@[simp] theorem regSet_rights (a hi lo v : Nat) : (regSet s a hi lo v).rights = s.rights := rfl
@[simp] theorem regSet_log (a hi lo v : Nat) : (regSet s a hi lo v).log = s.log := rfl
@[simp] theorem regSet_nv (a hi lo v : Nat) : (regSet s a hi lo v).nv = s.nv := rfl
@[simp] theorem regSet_fac (a hi lo v : Nat) : (regSet s a hi lo v).fac = s.fac := rfl
@[simp] theorem regSet_cfg (a hi lo v : Nat) : (regSet s a hi lo v).cfg = s.cfg := rfl
@[simp] theorem regSet_fd (a hi lo v : Nat) : (regSet s a hi lo v).fd = s.fd := rfl
@[simp] theorem regSet_tally (a hi lo v : Nat) : (regSet s a hi lo v).tally = s.tally := rfl
@[simp] theorem regSet_alarm (a hi lo v : Nat) : (regSet s a hi lo v).alarm = s.alarm := rfl
@[simp] theorem regSet_sched (a hi lo v : Nat) : (regSet s a hi lo v).sched = s.sched := rfl
@[simp] theorem regSet_chain (a hi lo v : Nat) : (regSet s a hi lo v).chain = s.chain := rfl
@[simp] theorem regSet_gmarks (a hi lo v : Nat) : (regSet s a hi lo v).gmarks = s.gmarks := rfl
@[simp] theorem regSet_front (a hi lo v : Nat) : (regSet s a hi lo v).front = s.front := rfl
@[simp] theorem regSet_cell (a hi lo v : Nat) : (regSet s a hi lo v).cell = s.cell := rfl
@[simp] theorem regSet_mox (a hi lo v : Nat) : (regSet s a hi lo v).mox = s.mox := rfl
@[simp] theorem regSet_htr (a hi lo v : Nat) : (regSet s a hi lo v).htr = s.htr := rfl
@[simp] theorem regSet_brg (a hi lo v : Nat) : (regSet s a hi lo v).brg = s.brg := rfl
@[simp] theorem regSet_hk (a hi lo v : Nat) : (regSet s a hi lo v).hk = s.hk := rfl
@[simp] theorem regSet_usets (a hi lo v : Nat) : (regSet s a hi lo v).usets = s.usets := rfl
@[simp] theorem regSet_profiles (a hi lo v : Nat) : (regSet s a hi lo v).profiles = s.profiles := rfl
@[simp] theorem regSet_ty (a hi lo v : Nat) : (regSet s a hi lo v).ty = s.ty := rfl
@[simp] theorem regSet_syncs (a hi lo v : Nat) : (regSet s a hi lo v).syncs = s.syncs := rfl
@[simp] theorem regSet_arms (a hi lo v : Nat) : (regSet s a hi lo v).arms = s.arms := rfl
@[simp] theorem regSet_z (a hi lo v : Nat) : (regSet s a hi lo v).z = s.z := rfl
@[simp] theorem regSet_trip (a hi lo v : Nat) : (regSet s a hi lo v).trip = s.trip := rfl
@[simp] theorem regSet_capt (a hi lo v : Nat) : (regSet s a hi lo v).capt = s.capt := rfl
@[simp] theorem regSet_stream (a hi lo v : Nat) : (regSet s a hi lo v).stream = s.stream := rfl
@[simp] theorem regSet_aout (a hi lo v : Nat) : (regSet s a hi lo v).aout = s.aout := rfl
@[simp] theorem regSet_wave (a hi lo v : Nat) : (regSet s a hi lo v).wave = s.wave := rfl
@[simp] theorem regSet_twin (a hi lo v : Nat) : (regSet s a hi lo v).twin = s.twin := rfl
@[simp] theorem regSet_vigil (a hi lo v : Nat) : (regSet s a hi lo v).vigil = s.vigil := rfl
@[simp] theorem regSet_counted (a hi lo v : Nat) : (regSet s a hi lo v).counted = s.counted := rfl
@[simp] theorem regSet_pending (a hi lo v : Nat) : (regSet s a hi lo v).pending = s.pending := rfl

/-! ### biasSend writes only `seam` -/

@[simp] theorem biasSend_u (k : Nat) (c : BitVec 14) : (biasSend s k c).u = s.u := rfl
@[simp] theorem biasSend_t (k : Nat) (c : BitVec 14) : (biasSend s k c).t = s.t := rfl
@[simp] theorem biasSend_ring (k : Nat) (c : BitVec 14) : (biasSend s k c).ring = s.ring := rfl
@[simp] theorem biasSend_out (k : Nat) (c : BitVec 14) : (biasSend s k c).out = s.out := rfl
@[simp] theorem biasSend_cmd (k : Nat) (c : BitVec 14) : (biasSend s k c).cmd = s.cmd := rfl
@[simp] theorem biasSend_rights (k : Nat) (c : BitVec 14) : (biasSend s k c).rights = s.rights := rfl
@[simp] theorem biasSend_log (k : Nat) (c : BitVec 14) : (biasSend s k c).log = s.log := rfl
@[simp] theorem biasSend_nv (k : Nat) (c : BitVec 14) : (biasSend s k c).nv = s.nv := rfl
@[simp] theorem biasSend_fac (k : Nat) (c : BitVec 14) : (biasSend s k c).fac = s.fac := rfl
@[simp] theorem biasSend_cfg (k : Nat) (c : BitVec 14) : (biasSend s k c).cfg = s.cfg := rfl
@[simp] theorem biasSend_fd (k : Nat) (c : BitVec 14) : (biasSend s k c).fd = s.fd := rfl
@[simp] theorem biasSend_tally (k : Nat) (c : BitVec 14) : (biasSend s k c).tally = s.tally := rfl
@[simp] theorem biasSend_alarm (k : Nat) (c : BitVec 14) : (biasSend s k c).alarm = s.alarm := rfl
@[simp] theorem biasSend_sched (k : Nat) (c : BitVec 14) : (biasSend s k c).sched = s.sched := rfl
@[simp] theorem biasSend_chain (k : Nat) (c : BitVec 14) : (biasSend s k c).chain = s.chain := rfl
@[simp] theorem biasSend_gmarks (k : Nat) (c : BitVec 14) : (biasSend s k c).gmarks = s.gmarks := rfl
@[simp] theorem biasSend_front (k : Nat) (c : BitVec 14) : (biasSend s k c).front = s.front := rfl
@[simp] theorem biasSend_cell (k : Nat) (c : BitVec 14) : (biasSend s k c).cell = s.cell := rfl
@[simp] theorem biasSend_mox (k : Nat) (c : BitVec 14) : (biasSend s k c).mox = s.mox := rfl
@[simp] theorem biasSend_htr (k : Nat) (c : BitVec 14) : (biasSend s k c).htr = s.htr := rfl
@[simp] theorem biasSend_brg (k : Nat) (c : BitVec 14) : (biasSend s k c).brg = s.brg := rfl
@[simp] theorem biasSend_hk (k : Nat) (c : BitVec 14) : (biasSend s k c).hk = s.hk := rfl
@[simp] theorem biasSend_usets (k : Nat) (c : BitVec 14) : (biasSend s k c).usets = s.usets := rfl
@[simp] theorem biasSend_profiles (k : Nat) (c : BitVec 14) : (biasSend s k c).profiles = s.profiles := rfl
@[simp] theorem biasSend_ty (k : Nat) (c : BitVec 14) : (biasSend s k c).ty = s.ty := rfl
@[simp] theorem biasSend_syncs (k : Nat) (c : BitVec 14) : (biasSend s k c).syncs = s.syncs := rfl
@[simp] theorem biasSend_arms (k : Nat) (c : BitVec 14) : (biasSend s k c).arms = s.arms := rfl
@[simp] theorem biasSend_z (k : Nat) (c : BitVec 14) : (biasSend s k c).z = s.z := rfl
@[simp] theorem biasSend_trip (k : Nat) (c : BitVec 14) : (biasSend s k c).trip = s.trip := rfl
@[simp] theorem biasSend_capt (k : Nat) (c : BitVec 14) : (biasSend s k c).capt = s.capt := rfl
@[simp] theorem biasSend_stream (k : Nat) (c : BitVec 14) : (biasSend s k c).stream = s.stream := rfl
@[simp] theorem biasSend_aout (k : Nat) (c : BitVec 14) : (biasSend s k c).aout = s.aout := rfl
@[simp] theorem biasSend_wave (k : Nat) (c : BitVec 14) : (biasSend s k c).wave = s.wave := rfl
@[simp] theorem biasSend_twin (k : Nat) (c : BitVec 14) : (biasSend s k c).twin = s.twin := rfl
@[simp] theorem biasSend_vigil (k : Nat) (c : BitVec 14) : (biasSend s k c).vigil = s.vigil := rfl
@[simp] theorem biasSend_counted (k : Nat) (c : BitVec 14) : (biasSend s k c).counted = s.counted := rfl
@[simp] theorem biasSend_pending (k : Nat) (c : BitVec 14) : (biasSend s k c).pending = s.pending := rfl

/-! ### modChain writes only `chain` -/

@[simp] theorem modChain_u (c : Nat) (f : Chain → Chain) : (modChain s c f).u = s.u := rfl
@[simp] theorem modChain_t (c : Nat) (f : Chain → Chain) : (modChain s c f).t = s.t := rfl
@[simp] theorem modChain_ring (c : Nat) (f : Chain → Chain) : (modChain s c f).ring = s.ring := rfl
@[simp] theorem modChain_out (c : Nat) (f : Chain → Chain) : (modChain s c f).out = s.out := rfl
@[simp] theorem modChain_cmd (c : Nat) (f : Chain → Chain) : (modChain s c f).cmd = s.cmd := rfl
@[simp] theorem modChain_rights (c : Nat) (f : Chain → Chain) : (modChain s c f).rights = s.rights := rfl
@[simp] theorem modChain_log (c : Nat) (f : Chain → Chain) : (modChain s c f).log = s.log := rfl
@[simp] theorem modChain_nv (c : Nat) (f : Chain → Chain) : (modChain s c f).nv = s.nv := rfl
@[simp] theorem modChain_fac (c : Nat) (f : Chain → Chain) : (modChain s c f).fac = s.fac := rfl
@[simp] theorem modChain_cfg (c : Nat) (f : Chain → Chain) : (modChain s c f).cfg = s.cfg := rfl
@[simp] theorem modChain_fd (c : Nat) (f : Chain → Chain) : (modChain s c f).fd = s.fd := rfl
@[simp] theorem modChain_seam (c : Nat) (f : Chain → Chain) : (modChain s c f).seam = s.seam := rfl
@[simp] theorem modChain_tally (c : Nat) (f : Chain → Chain) : (modChain s c f).tally = s.tally := rfl
@[simp] theorem modChain_alarm (c : Nat) (f : Chain → Chain) : (modChain s c f).alarm = s.alarm := rfl
@[simp] theorem modChain_sched (c : Nat) (f : Chain → Chain) : (modChain s c f).sched = s.sched := rfl
@[simp] theorem modChain_gmarks (c : Nat) (f : Chain → Chain) : (modChain s c f).gmarks = s.gmarks := rfl
@[simp] theorem modChain_front (c : Nat) (f : Chain → Chain) : (modChain s c f).front = s.front := rfl
@[simp] theorem modChain_cell (c : Nat) (f : Chain → Chain) : (modChain s c f).cell = s.cell := rfl
@[simp] theorem modChain_mox (c : Nat) (f : Chain → Chain) : (modChain s c f).mox = s.mox := rfl
@[simp] theorem modChain_htr (c : Nat) (f : Chain → Chain) : (modChain s c f).htr = s.htr := rfl
@[simp] theorem modChain_brg (c : Nat) (f : Chain → Chain) : (modChain s c f).brg = s.brg := rfl
@[simp] theorem modChain_hk (c : Nat) (f : Chain → Chain) : (modChain s c f).hk = s.hk := rfl
@[simp] theorem modChain_usets (c : Nat) (f : Chain → Chain) : (modChain s c f).usets = s.usets := rfl
@[simp] theorem modChain_profiles (c : Nat) (f : Chain → Chain) : (modChain s c f).profiles = s.profiles := rfl
@[simp] theorem modChain_ty (c : Nat) (f : Chain → Chain) : (modChain s c f).ty = s.ty := rfl
@[simp] theorem modChain_syncs (c : Nat) (f : Chain → Chain) : (modChain s c f).syncs = s.syncs := rfl
@[simp] theorem modChain_arms (c : Nat) (f : Chain → Chain) : (modChain s c f).arms = s.arms := rfl
@[simp] theorem modChain_z (c : Nat) (f : Chain → Chain) : (modChain s c f).z = s.z := rfl
@[simp] theorem modChain_trip (c : Nat) (f : Chain → Chain) : (modChain s c f).trip = s.trip := rfl
@[simp] theorem modChain_capt (c : Nat) (f : Chain → Chain) : (modChain s c f).capt = s.capt := rfl
@[simp] theorem modChain_stream (c : Nat) (f : Chain → Chain) : (modChain s c f).stream = s.stream := rfl
@[simp] theorem modChain_aout (c : Nat) (f : Chain → Chain) : (modChain s c f).aout = s.aout := rfl
@[simp] theorem modChain_wave (c : Nat) (f : Chain → Chain) : (modChain s c f).wave = s.wave := rfl
@[simp] theorem modChain_twin (c : Nat) (f : Chain → Chain) : (modChain s c f).twin = s.twin := rfl
@[simp] theorem modChain_vigil (c : Nat) (f : Chain → Chain) : (modChain s c f).vigil = s.vigil := rfl
@[simp] theorem modChain_counted (c : Nat) (f : Chain → Chain) : (modChain s c f).counted = s.counted := rfl
@[simp] theorem modChain_pending (c : Nat) (f : Chain → Chain) : (modChain s c f).pending = s.pending := rfl

/-! ### modFront writes only `front` -/

@[simp] theorem modFront_u (n : Nat) (f : Front → Front) : (modFront s n f).u = s.u := rfl
@[simp] theorem modFront_t (n : Nat) (f : Front → Front) : (modFront s n f).t = s.t := rfl
@[simp] theorem modFront_ring (n : Nat) (f : Front → Front) : (modFront s n f).ring = s.ring := rfl
@[simp] theorem modFront_out (n : Nat) (f : Front → Front) : (modFront s n f).out = s.out := rfl
@[simp] theorem modFront_cmd (n : Nat) (f : Front → Front) : (modFront s n f).cmd = s.cmd := rfl
@[simp] theorem modFront_rights (n : Nat) (f : Front → Front) : (modFront s n f).rights = s.rights := rfl
@[simp] theorem modFront_log (n : Nat) (f : Front → Front) : (modFront s n f).log = s.log := rfl
@[simp] theorem modFront_nv (n : Nat) (f : Front → Front) : (modFront s n f).nv = s.nv := rfl
@[simp] theorem modFront_fac (n : Nat) (f : Front → Front) : (modFront s n f).fac = s.fac := rfl
@[simp] theorem modFront_cfg (n : Nat) (f : Front → Front) : (modFront s n f).cfg = s.cfg := rfl
@[simp] theorem modFront_fd (n : Nat) (f : Front → Front) : (modFront s n f).fd = s.fd := rfl
@[simp] theorem modFront_seam (n : Nat) (f : Front → Front) : (modFront s n f).seam = s.seam := rfl
@[simp] theorem modFront_tally (n : Nat) (f : Front → Front) : (modFront s n f).tally = s.tally := rfl
@[simp] theorem modFront_alarm (n : Nat) (f : Front → Front) : (modFront s n f).alarm = s.alarm := rfl
@[simp] theorem modFront_sched (n : Nat) (f : Front → Front) : (modFront s n f).sched = s.sched := rfl
@[simp] theorem modFront_chain (n : Nat) (f : Front → Front) : (modFront s n f).chain = s.chain := rfl
@[simp] theorem modFront_gmarks (n : Nat) (f : Front → Front) : (modFront s n f).gmarks = s.gmarks := rfl
@[simp] theorem modFront_cell (n : Nat) (f : Front → Front) : (modFront s n f).cell = s.cell := rfl
@[simp] theorem modFront_mox (n : Nat) (f : Front → Front) : (modFront s n f).mox = s.mox := rfl
@[simp] theorem modFront_htr (n : Nat) (f : Front → Front) : (modFront s n f).htr = s.htr := rfl
@[simp] theorem modFront_brg (n : Nat) (f : Front → Front) : (modFront s n f).brg = s.brg := rfl
@[simp] theorem modFront_hk (n : Nat) (f : Front → Front) : (modFront s n f).hk = s.hk := rfl
@[simp] theorem modFront_usets (n : Nat) (f : Front → Front) : (modFront s n f).usets = s.usets := rfl
@[simp] theorem modFront_profiles (n : Nat) (f : Front → Front) : (modFront s n f).profiles = s.profiles := rfl
@[simp] theorem modFront_ty (n : Nat) (f : Front → Front) : (modFront s n f).ty = s.ty := rfl
@[simp] theorem modFront_syncs (n : Nat) (f : Front → Front) : (modFront s n f).syncs = s.syncs := rfl
@[simp] theorem modFront_arms (n : Nat) (f : Front → Front) : (modFront s n f).arms = s.arms := rfl
@[simp] theorem modFront_z (n : Nat) (f : Front → Front) : (modFront s n f).z = s.z := rfl
@[simp] theorem modFront_trip (n : Nat) (f : Front → Front) : (modFront s n f).trip = s.trip := rfl
@[simp] theorem modFront_capt (n : Nat) (f : Front → Front) : (modFront s n f).capt = s.capt := rfl
@[simp] theorem modFront_stream (n : Nat) (f : Front → Front) : (modFront s n f).stream = s.stream := rfl
@[simp] theorem modFront_aout (n : Nat) (f : Front → Front) : (modFront s n f).aout = s.aout := rfl
@[simp] theorem modFront_wave (n : Nat) (f : Front → Front) : (modFront s n f).wave = s.wave := rfl
@[simp] theorem modFront_twin (n : Nat) (f : Front → Front) : (modFront s n f).twin = s.twin := rfl
@[simp] theorem modFront_vigil (n : Nat) (f : Front → Front) : (modFront s n f).vigil = s.vigil := rfl
@[simp] theorem modFront_counted (n : Nat) (f : Front → Front) : (modFront s n f).counted = s.counted := rfl
@[simp] theorem modFront_pending (n : Nat) (f : Front → Front) : (modFront s n f).pending = s.pending := rfl

/-! ### modCell writes only `cell` -/

@[simp] theorem modCell_u (k : Nat) (f : Cell → Cell) : (modCell s k f).u = s.u := rfl
@[simp] theorem modCell_t (k : Nat) (f : Cell → Cell) : (modCell s k f).t = s.t := rfl
@[simp] theorem modCell_ring (k : Nat) (f : Cell → Cell) : (modCell s k f).ring = s.ring := rfl
@[simp] theorem modCell_out (k : Nat) (f : Cell → Cell) : (modCell s k f).out = s.out := rfl
@[simp] theorem modCell_cmd (k : Nat) (f : Cell → Cell) : (modCell s k f).cmd = s.cmd := rfl
@[simp] theorem modCell_rights (k : Nat) (f : Cell → Cell) : (modCell s k f).rights = s.rights := rfl
@[simp] theorem modCell_log (k : Nat) (f : Cell → Cell) : (modCell s k f).log = s.log := rfl
@[simp] theorem modCell_nv (k : Nat) (f : Cell → Cell) : (modCell s k f).nv = s.nv := rfl
@[simp] theorem modCell_fac (k : Nat) (f : Cell → Cell) : (modCell s k f).fac = s.fac := rfl
@[simp] theorem modCell_cfg (k : Nat) (f : Cell → Cell) : (modCell s k f).cfg = s.cfg := rfl
@[simp] theorem modCell_fd (k : Nat) (f : Cell → Cell) : (modCell s k f).fd = s.fd := rfl
@[simp] theorem modCell_seam (k : Nat) (f : Cell → Cell) : (modCell s k f).seam = s.seam := rfl
@[simp] theorem modCell_tally (k : Nat) (f : Cell → Cell) : (modCell s k f).tally = s.tally := rfl
@[simp] theorem modCell_alarm (k : Nat) (f : Cell → Cell) : (modCell s k f).alarm = s.alarm := rfl
@[simp] theorem modCell_sched (k : Nat) (f : Cell → Cell) : (modCell s k f).sched = s.sched := rfl
@[simp] theorem modCell_chain (k : Nat) (f : Cell → Cell) : (modCell s k f).chain = s.chain := rfl
@[simp] theorem modCell_gmarks (k : Nat) (f : Cell → Cell) : (modCell s k f).gmarks = s.gmarks := rfl
@[simp] theorem modCell_front (k : Nat) (f : Cell → Cell) : (modCell s k f).front = s.front := rfl
@[simp] theorem modCell_mox (k : Nat) (f : Cell → Cell) : (modCell s k f).mox = s.mox := rfl
@[simp] theorem modCell_htr (k : Nat) (f : Cell → Cell) : (modCell s k f).htr = s.htr := rfl
@[simp] theorem modCell_brg (k : Nat) (f : Cell → Cell) : (modCell s k f).brg = s.brg := rfl
@[simp] theorem modCell_hk (k : Nat) (f : Cell → Cell) : (modCell s k f).hk = s.hk := rfl
@[simp] theorem modCell_usets (k : Nat) (f : Cell → Cell) : (modCell s k f).usets = s.usets := rfl
@[simp] theorem modCell_profiles (k : Nat) (f : Cell → Cell) : (modCell s k f).profiles = s.profiles := rfl
@[simp] theorem modCell_ty (k : Nat) (f : Cell → Cell) : (modCell s k f).ty = s.ty := rfl
@[simp] theorem modCell_syncs (k : Nat) (f : Cell → Cell) : (modCell s k f).syncs = s.syncs := rfl
@[simp] theorem modCell_arms (k : Nat) (f : Cell → Cell) : (modCell s k f).arms = s.arms := rfl
@[simp] theorem modCell_z (k : Nat) (f : Cell → Cell) : (modCell s k f).z = s.z := rfl
@[simp] theorem modCell_trip (k : Nat) (f : Cell → Cell) : (modCell s k f).trip = s.trip := rfl
@[simp] theorem modCell_capt (k : Nat) (f : Cell → Cell) : (modCell s k f).capt = s.capt := rfl
@[simp] theorem modCell_stream (k : Nat) (f : Cell → Cell) : (modCell s k f).stream = s.stream := rfl
@[simp] theorem modCell_aout (k : Nat) (f : Cell → Cell) : (modCell s k f).aout = s.aout := rfl
@[simp] theorem modCell_wave (k : Nat) (f : Cell → Cell) : (modCell s k f).wave = s.wave := rfl
@[simp] theorem modCell_twin (k : Nat) (f : Cell → Cell) : (modCell s k f).twin = s.twin := rfl
@[simp] theorem modCell_vigil (k : Nat) (f : Cell → Cell) : (modCell s k f).vigil = s.vigil := rfl
@[simp] theorem modCell_counted (k : Nat) (f : Cell → Cell) : (modCell s k f).counted = s.counted := rfl
@[simp] theorem modCell_pending (k : Nat) (f : Cell → Cell) : (modCell s k f).pending = s.pending := rfl

/-! ### modMox writes only `mox` -/

@[simp] theorem modMox_u (n : Nat) (f : MoxSt → MoxSt) : (modMox s n f).u = s.u := rfl
@[simp] theorem modMox_t (n : Nat) (f : MoxSt → MoxSt) : (modMox s n f).t = s.t := rfl
@[simp] theorem modMox_ring (n : Nat) (f : MoxSt → MoxSt) : (modMox s n f).ring = s.ring := rfl
@[simp] theorem modMox_out (n : Nat) (f : MoxSt → MoxSt) : (modMox s n f).out = s.out := rfl
@[simp] theorem modMox_cmd (n : Nat) (f : MoxSt → MoxSt) : (modMox s n f).cmd = s.cmd := rfl
@[simp] theorem modMox_rights (n : Nat) (f : MoxSt → MoxSt) : (modMox s n f).rights = s.rights := rfl
@[simp] theorem modMox_log (n : Nat) (f : MoxSt → MoxSt) : (modMox s n f).log = s.log := rfl
@[simp] theorem modMox_nv (n : Nat) (f : MoxSt → MoxSt) : (modMox s n f).nv = s.nv := rfl
@[simp] theorem modMox_fac (n : Nat) (f : MoxSt → MoxSt) : (modMox s n f).fac = s.fac := rfl
@[simp] theorem modMox_cfg (n : Nat) (f : MoxSt → MoxSt) : (modMox s n f).cfg = s.cfg := rfl
@[simp] theorem modMox_fd (n : Nat) (f : MoxSt → MoxSt) : (modMox s n f).fd = s.fd := rfl
@[simp] theorem modMox_seam (n : Nat) (f : MoxSt → MoxSt) : (modMox s n f).seam = s.seam := rfl
@[simp] theorem modMox_tally (n : Nat) (f : MoxSt → MoxSt) : (modMox s n f).tally = s.tally := rfl
@[simp] theorem modMox_alarm (n : Nat) (f : MoxSt → MoxSt) : (modMox s n f).alarm = s.alarm := rfl
@[simp] theorem modMox_sched (n : Nat) (f : MoxSt → MoxSt) : (modMox s n f).sched = s.sched := rfl
@[simp] theorem modMox_chain (n : Nat) (f : MoxSt → MoxSt) : (modMox s n f).chain = s.chain := rfl
@[simp] theorem modMox_gmarks (n : Nat) (f : MoxSt → MoxSt) : (modMox s n f).gmarks = s.gmarks := rfl
@[simp] theorem modMox_front (n : Nat) (f : MoxSt → MoxSt) : (modMox s n f).front = s.front := rfl
@[simp] theorem modMox_cell (n : Nat) (f : MoxSt → MoxSt) : (modMox s n f).cell = s.cell := rfl
@[simp] theorem modMox_htr (n : Nat) (f : MoxSt → MoxSt) : (modMox s n f).htr = s.htr := rfl
@[simp] theorem modMox_brg (n : Nat) (f : MoxSt → MoxSt) : (modMox s n f).brg = s.brg := rfl
@[simp] theorem modMox_hk (n : Nat) (f : MoxSt → MoxSt) : (modMox s n f).hk = s.hk := rfl
@[simp] theorem modMox_usets (n : Nat) (f : MoxSt → MoxSt) : (modMox s n f).usets = s.usets := rfl
@[simp] theorem modMox_profiles (n : Nat) (f : MoxSt → MoxSt) : (modMox s n f).profiles = s.profiles := rfl
@[simp] theorem modMox_ty (n : Nat) (f : MoxSt → MoxSt) : (modMox s n f).ty = s.ty := rfl
@[simp] theorem modMox_syncs (n : Nat) (f : MoxSt → MoxSt) : (modMox s n f).syncs = s.syncs := rfl
@[simp] theorem modMox_arms (n : Nat) (f : MoxSt → MoxSt) : (modMox s n f).arms = s.arms := rfl
@[simp] theorem modMox_z (n : Nat) (f : MoxSt → MoxSt) : (modMox s n f).z = s.z := rfl
@[simp] theorem modMox_trip (n : Nat) (f : MoxSt → MoxSt) : (modMox s n f).trip = s.trip := rfl
@[simp] theorem modMox_capt (n : Nat) (f : MoxSt → MoxSt) : (modMox s n f).capt = s.capt := rfl
@[simp] theorem modMox_stream (n : Nat) (f : MoxSt → MoxSt) : (modMox s n f).stream = s.stream := rfl
@[simp] theorem modMox_aout (n : Nat) (f : MoxSt → MoxSt) : (modMox s n f).aout = s.aout := rfl
@[simp] theorem modMox_wave (n : Nat) (f : MoxSt → MoxSt) : (modMox s n f).wave = s.wave := rfl
@[simp] theorem modMox_twin (n : Nat) (f : MoxSt → MoxSt) : (modMox s n f).twin = s.twin := rfl
@[simp] theorem modMox_vigil (n : Nat) (f : MoxSt → MoxSt) : (modMox s n f).vigil = s.vigil := rfl
@[simp] theorem modMox_counted (n : Nat) (f : MoxSt → MoxSt) : (modMox s n f).counted = s.counted := rfl
@[simp] theorem modMox_pending (n : Nat) (f : MoxSt → MoxSt) : (modMox s n f).pending = s.pending := rfl

/-! ### modHtr writes only `htr` -/

@[simp] theorem modHtr_u (n : Nat) (f : Heater → Heater) : (modHtr s n f).u = s.u := rfl
@[simp] theorem modHtr_t (n : Nat) (f : Heater → Heater) : (modHtr s n f).t = s.t := rfl
@[simp] theorem modHtr_ring (n : Nat) (f : Heater → Heater) : (modHtr s n f).ring = s.ring := rfl
@[simp] theorem modHtr_out (n : Nat) (f : Heater → Heater) : (modHtr s n f).out = s.out := rfl
@[simp] theorem modHtr_cmd (n : Nat) (f : Heater → Heater) : (modHtr s n f).cmd = s.cmd := rfl
@[simp] theorem modHtr_rights (n : Nat) (f : Heater → Heater) : (modHtr s n f).rights = s.rights := rfl
@[simp] theorem modHtr_log (n : Nat) (f : Heater → Heater) : (modHtr s n f).log = s.log := rfl
@[simp] theorem modHtr_nv (n : Nat) (f : Heater → Heater) : (modHtr s n f).nv = s.nv := rfl
@[simp] theorem modHtr_fac (n : Nat) (f : Heater → Heater) : (modHtr s n f).fac = s.fac := rfl
@[simp] theorem modHtr_cfg (n : Nat) (f : Heater → Heater) : (modHtr s n f).cfg = s.cfg := rfl
@[simp] theorem modHtr_fd (n : Nat) (f : Heater → Heater) : (modHtr s n f).fd = s.fd := rfl
@[simp] theorem modHtr_seam (n : Nat) (f : Heater → Heater) : (modHtr s n f).seam = s.seam := rfl
@[simp] theorem modHtr_tally (n : Nat) (f : Heater → Heater) : (modHtr s n f).tally = s.tally := rfl
@[simp] theorem modHtr_alarm (n : Nat) (f : Heater → Heater) : (modHtr s n f).alarm = s.alarm := rfl
@[simp] theorem modHtr_sched (n : Nat) (f : Heater → Heater) : (modHtr s n f).sched = s.sched := rfl
@[simp] theorem modHtr_chain (n : Nat) (f : Heater → Heater) : (modHtr s n f).chain = s.chain := rfl
@[simp] theorem modHtr_gmarks (n : Nat) (f : Heater → Heater) : (modHtr s n f).gmarks = s.gmarks := rfl
@[simp] theorem modHtr_front (n : Nat) (f : Heater → Heater) : (modHtr s n f).front = s.front := rfl
@[simp] theorem modHtr_cell (n : Nat) (f : Heater → Heater) : (modHtr s n f).cell = s.cell := rfl
@[simp] theorem modHtr_mox (n : Nat) (f : Heater → Heater) : (modHtr s n f).mox = s.mox := rfl
@[simp] theorem modHtr_brg (n : Nat) (f : Heater → Heater) : (modHtr s n f).brg = s.brg := rfl
@[simp] theorem modHtr_hk (n : Nat) (f : Heater → Heater) : (modHtr s n f).hk = s.hk := rfl
@[simp] theorem modHtr_usets (n : Nat) (f : Heater → Heater) : (modHtr s n f).usets = s.usets := rfl
@[simp] theorem modHtr_profiles (n : Nat) (f : Heater → Heater) : (modHtr s n f).profiles = s.profiles := rfl
@[simp] theorem modHtr_ty (n : Nat) (f : Heater → Heater) : (modHtr s n f).ty = s.ty := rfl
@[simp] theorem modHtr_syncs (n : Nat) (f : Heater → Heater) : (modHtr s n f).syncs = s.syncs := rfl
@[simp] theorem modHtr_arms (n : Nat) (f : Heater → Heater) : (modHtr s n f).arms = s.arms := rfl
@[simp] theorem modHtr_z (n : Nat) (f : Heater → Heater) : (modHtr s n f).z = s.z := rfl
@[simp] theorem modHtr_trip (n : Nat) (f : Heater → Heater) : (modHtr s n f).trip = s.trip := rfl
@[simp] theorem modHtr_capt (n : Nat) (f : Heater → Heater) : (modHtr s n f).capt = s.capt := rfl
@[simp] theorem modHtr_stream (n : Nat) (f : Heater → Heater) : (modHtr s n f).stream = s.stream := rfl
@[simp] theorem modHtr_aout (n : Nat) (f : Heater → Heater) : (modHtr s n f).aout = s.aout := rfl
@[simp] theorem modHtr_wave (n : Nat) (f : Heater → Heater) : (modHtr s n f).wave = s.wave := rfl
@[simp] theorem modHtr_twin (n : Nat) (f : Heater → Heater) : (modHtr s n f).twin = s.twin := rfl
@[simp] theorem modHtr_vigil (n : Nat) (f : Heater → Heater) : (modHtr s n f).vigil = s.vigil := rfl
@[simp] theorem modHtr_counted (n : Nat) (f : Heater → Heater) : (modHtr s n f).counted = s.counted := rfl
@[simp] theorem modHtr_pending (n : Nat) (f : Heater → Heater) : (modHtr s n f).pending = s.pending := rfl

/-! ### modBrg writes only `brg` -/

@[simp] theorem modBrg_u (b : Nat) (f : Bridge → Bridge) : (modBrg s b f).u = s.u := rfl
@[simp] theorem modBrg_t (b : Nat) (f : Bridge → Bridge) : (modBrg s b f).t = s.t := rfl
@[simp] theorem modBrg_ring (b : Nat) (f : Bridge → Bridge) : (modBrg s b f).ring = s.ring := rfl
@[simp] theorem modBrg_out (b : Nat) (f : Bridge → Bridge) : (modBrg s b f).out = s.out := rfl
@[simp] theorem modBrg_cmd (b : Nat) (f : Bridge → Bridge) : (modBrg s b f).cmd = s.cmd := rfl
@[simp] theorem modBrg_rights (b : Nat) (f : Bridge → Bridge) : (modBrg s b f).rights = s.rights := rfl
@[simp] theorem modBrg_log (b : Nat) (f : Bridge → Bridge) : (modBrg s b f).log = s.log := rfl
@[simp] theorem modBrg_nv (b : Nat) (f : Bridge → Bridge) : (modBrg s b f).nv = s.nv := rfl
@[simp] theorem modBrg_fac (b : Nat) (f : Bridge → Bridge) : (modBrg s b f).fac = s.fac := rfl
@[simp] theorem modBrg_cfg (b : Nat) (f : Bridge → Bridge) : (modBrg s b f).cfg = s.cfg := rfl
@[simp] theorem modBrg_fd (b : Nat) (f : Bridge → Bridge) : (modBrg s b f).fd = s.fd := rfl
@[simp] theorem modBrg_seam (b : Nat) (f : Bridge → Bridge) : (modBrg s b f).seam = s.seam := rfl
@[simp] theorem modBrg_tally (b : Nat) (f : Bridge → Bridge) : (modBrg s b f).tally = s.tally := rfl
@[simp] theorem modBrg_alarm (b : Nat) (f : Bridge → Bridge) : (modBrg s b f).alarm = s.alarm := rfl
@[simp] theorem modBrg_sched (b : Nat) (f : Bridge → Bridge) : (modBrg s b f).sched = s.sched := rfl
@[simp] theorem modBrg_chain (b : Nat) (f : Bridge → Bridge) : (modBrg s b f).chain = s.chain := rfl
@[simp] theorem modBrg_gmarks (b : Nat) (f : Bridge → Bridge) : (modBrg s b f).gmarks = s.gmarks := rfl
@[simp] theorem modBrg_front (b : Nat) (f : Bridge → Bridge) : (modBrg s b f).front = s.front := rfl
@[simp] theorem modBrg_cell (b : Nat) (f : Bridge → Bridge) : (modBrg s b f).cell = s.cell := rfl
@[simp] theorem modBrg_mox (b : Nat) (f : Bridge → Bridge) : (modBrg s b f).mox = s.mox := rfl
@[simp] theorem modBrg_htr (b : Nat) (f : Bridge → Bridge) : (modBrg s b f).htr = s.htr := rfl
@[simp] theorem modBrg_hk (b : Nat) (f : Bridge → Bridge) : (modBrg s b f).hk = s.hk := rfl
@[simp] theorem modBrg_usets (b : Nat) (f : Bridge → Bridge) : (modBrg s b f).usets = s.usets := rfl
@[simp] theorem modBrg_profiles (b : Nat) (f : Bridge → Bridge) : (modBrg s b f).profiles = s.profiles := rfl
@[simp] theorem modBrg_ty (b : Nat) (f : Bridge → Bridge) : (modBrg s b f).ty = s.ty := rfl
@[simp] theorem modBrg_syncs (b : Nat) (f : Bridge → Bridge) : (modBrg s b f).syncs = s.syncs := rfl
@[simp] theorem modBrg_arms (b : Nat) (f : Bridge → Bridge) : (modBrg s b f).arms = s.arms := rfl
@[simp] theorem modBrg_z (b : Nat) (f : Bridge → Bridge) : (modBrg s b f).z = s.z := rfl
@[simp] theorem modBrg_trip (b : Nat) (f : Bridge → Bridge) : (modBrg s b f).trip = s.trip := rfl
@[simp] theorem modBrg_capt (b : Nat) (f : Bridge → Bridge) : (modBrg s b f).capt = s.capt := rfl
@[simp] theorem modBrg_stream (b : Nat) (f : Bridge → Bridge) : (modBrg s b f).stream = s.stream := rfl
@[simp] theorem modBrg_aout (b : Nat) (f : Bridge → Bridge) : (modBrg s b f).aout = s.aout := rfl
@[simp] theorem modBrg_wave (b : Nat) (f : Bridge → Bridge) : (modBrg s b f).wave = s.wave := rfl
@[simp] theorem modBrg_twin (b : Nat) (f : Bridge → Bridge) : (modBrg s b f).twin = s.twin := rfl
@[simp] theorem modBrg_vigil (b : Nat) (f : Bridge → Bridge) : (modBrg s b f).vigil = s.vigil := rfl
@[simp] theorem modBrg_counted (b : Nat) (f : Bridge → Bridge) : (modBrg s b f).counted = s.counted := rfl
@[simp] theorem modBrg_pending (b : Nat) (f : Bridge → Bridge) : (modBrg s b f).pending = s.pending := rfl

/-! ### modRule writes only `alarm` -/

@[simp] theorem modRule_u (r : Nat) (f : AlarmRule → AlarmRule) : (modRule s r f).u = s.u := rfl
@[simp] theorem modRule_t (r : Nat) (f : AlarmRule → AlarmRule) : (modRule s r f).t = s.t := rfl
@[simp] theorem modRule_ring (r : Nat) (f : AlarmRule → AlarmRule) : (modRule s r f).ring = s.ring := rfl
@[simp] theorem modRule_out (r : Nat) (f : AlarmRule → AlarmRule) : (modRule s r f).out = s.out := rfl
@[simp] theorem modRule_cmd (r : Nat) (f : AlarmRule → AlarmRule) : (modRule s r f).cmd = s.cmd := rfl
@[simp] theorem modRule_rights (r : Nat) (f : AlarmRule → AlarmRule) : (modRule s r f).rights = s.rights := rfl
@[simp] theorem modRule_log (r : Nat) (f : AlarmRule → AlarmRule) : (modRule s r f).log = s.log := rfl
@[simp] theorem modRule_nv (r : Nat) (f : AlarmRule → AlarmRule) : (modRule s r f).nv = s.nv := rfl
@[simp] theorem modRule_fac (r : Nat) (f : AlarmRule → AlarmRule) : (modRule s r f).fac = s.fac := rfl
@[simp] theorem modRule_cfg (r : Nat) (f : AlarmRule → AlarmRule) : (modRule s r f).cfg = s.cfg := rfl
@[simp] theorem modRule_fd (r : Nat) (f : AlarmRule → AlarmRule) : (modRule s r f).fd = s.fd := rfl
@[simp] theorem modRule_seam (r : Nat) (f : AlarmRule → AlarmRule) : (modRule s r f).seam = s.seam := rfl
@[simp] theorem modRule_tally (r : Nat) (f : AlarmRule → AlarmRule) : (modRule s r f).tally = s.tally := rfl
@[simp] theorem modRule_sched (r : Nat) (f : AlarmRule → AlarmRule) : (modRule s r f).sched = s.sched := rfl
@[simp] theorem modRule_chain (r : Nat) (f : AlarmRule → AlarmRule) : (modRule s r f).chain = s.chain := rfl
@[simp] theorem modRule_gmarks (r : Nat) (f : AlarmRule → AlarmRule) : (modRule s r f).gmarks = s.gmarks := rfl
@[simp] theorem modRule_front (r : Nat) (f : AlarmRule → AlarmRule) : (modRule s r f).front = s.front := rfl
@[simp] theorem modRule_cell (r : Nat) (f : AlarmRule → AlarmRule) : (modRule s r f).cell = s.cell := rfl
@[simp] theorem modRule_mox (r : Nat) (f : AlarmRule → AlarmRule) : (modRule s r f).mox = s.mox := rfl
@[simp] theorem modRule_htr (r : Nat) (f : AlarmRule → AlarmRule) : (modRule s r f).htr = s.htr := rfl
@[simp] theorem modRule_brg (r : Nat) (f : AlarmRule → AlarmRule) : (modRule s r f).brg = s.brg := rfl
@[simp] theorem modRule_hk (r : Nat) (f : AlarmRule → AlarmRule) : (modRule s r f).hk = s.hk := rfl
@[simp] theorem modRule_usets (r : Nat) (f : AlarmRule → AlarmRule) : (modRule s r f).usets = s.usets := rfl
@[simp] theorem modRule_profiles (r : Nat) (f : AlarmRule → AlarmRule) : (modRule s r f).profiles = s.profiles := rfl
@[simp] theorem modRule_ty (r : Nat) (f : AlarmRule → AlarmRule) : (modRule s r f).ty = s.ty := rfl
@[simp] theorem modRule_syncs (r : Nat) (f : AlarmRule → AlarmRule) : (modRule s r f).syncs = s.syncs := rfl
@[simp] theorem modRule_arms (r : Nat) (f : AlarmRule → AlarmRule) : (modRule s r f).arms = s.arms := rfl
@[simp] theorem modRule_z (r : Nat) (f : AlarmRule → AlarmRule) : (modRule s r f).z = s.z := rfl
@[simp] theorem modRule_trip (r : Nat) (f : AlarmRule → AlarmRule) : (modRule s r f).trip = s.trip := rfl
@[simp] theorem modRule_capt (r : Nat) (f : AlarmRule → AlarmRule) : (modRule s r f).capt = s.capt := rfl
@[simp] theorem modRule_stream (r : Nat) (f : AlarmRule → AlarmRule) : (modRule s r f).stream = s.stream := rfl
@[simp] theorem modRule_aout (r : Nat) (f : AlarmRule → AlarmRule) : (modRule s r f).aout = s.aout := rfl
@[simp] theorem modRule_wave (r : Nat) (f : AlarmRule → AlarmRule) : (modRule s r f).wave = s.wave := rfl
@[simp] theorem modRule_twin (r : Nat) (f : AlarmRule → AlarmRule) : (modRule s r f).twin = s.twin := rfl
@[simp] theorem modRule_vigil (r : Nat) (f : AlarmRule → AlarmRule) : (modRule s r f).vigil = s.vigil := rfl
@[simp] theorem modRule_counted (r : Nat) (f : AlarmRule → AlarmRule) : (modRule s r f).counted = s.counted := rfl
@[simp] theorem modRule_pending (r : Nat) (f : AlarmRule → AlarmRule) : (modRule s r f).pending = s.pending := rfl

/-! ### modPlay writes only `wave` -/

@[simp] theorem modPlay_u (t : Nat) (f : Play → Play) : (modPlay s t f).u = s.u := rfl
@[simp] theorem modPlay_t (t : Nat) (f : Play → Play) : (modPlay s t f).t = s.t := rfl
@[simp] theorem modPlay_ring (t : Nat) (f : Play → Play) : (modPlay s t f).ring = s.ring := rfl
@[simp] theorem modPlay_out (t : Nat) (f : Play → Play) : (modPlay s t f).out = s.out := rfl
@[simp] theorem modPlay_cmd (t : Nat) (f : Play → Play) : (modPlay s t f).cmd = s.cmd := rfl
@[simp] theorem modPlay_rights (t : Nat) (f : Play → Play) : (modPlay s t f).rights = s.rights := rfl
@[simp] theorem modPlay_log (t : Nat) (f : Play → Play) : (modPlay s t f).log = s.log := rfl
@[simp] theorem modPlay_nv (t : Nat) (f : Play → Play) : (modPlay s t f).nv = s.nv := rfl
@[simp] theorem modPlay_fac (t : Nat) (f : Play → Play) : (modPlay s t f).fac = s.fac := rfl
@[simp] theorem modPlay_cfg (t : Nat) (f : Play → Play) : (modPlay s t f).cfg = s.cfg := rfl
@[simp] theorem modPlay_fd (t : Nat) (f : Play → Play) : (modPlay s t f).fd = s.fd := rfl
@[simp] theorem modPlay_seam (t : Nat) (f : Play → Play) : (modPlay s t f).seam = s.seam := rfl
@[simp] theorem modPlay_tally (t : Nat) (f : Play → Play) : (modPlay s t f).tally = s.tally := rfl
@[simp] theorem modPlay_alarm (t : Nat) (f : Play → Play) : (modPlay s t f).alarm = s.alarm := rfl
@[simp] theorem modPlay_sched (t : Nat) (f : Play → Play) : (modPlay s t f).sched = s.sched := rfl
@[simp] theorem modPlay_chain (t : Nat) (f : Play → Play) : (modPlay s t f).chain = s.chain := rfl
@[simp] theorem modPlay_gmarks (t : Nat) (f : Play → Play) : (modPlay s t f).gmarks = s.gmarks := rfl
@[simp] theorem modPlay_front (t : Nat) (f : Play → Play) : (modPlay s t f).front = s.front := rfl
@[simp] theorem modPlay_cell (t : Nat) (f : Play → Play) : (modPlay s t f).cell = s.cell := rfl
@[simp] theorem modPlay_mox (t : Nat) (f : Play → Play) : (modPlay s t f).mox = s.mox := rfl
@[simp] theorem modPlay_htr (t : Nat) (f : Play → Play) : (modPlay s t f).htr = s.htr := rfl
@[simp] theorem modPlay_brg (t : Nat) (f : Play → Play) : (modPlay s t f).brg = s.brg := rfl
@[simp] theorem modPlay_hk (t : Nat) (f : Play → Play) : (modPlay s t f).hk = s.hk := rfl
@[simp] theorem modPlay_usets (t : Nat) (f : Play → Play) : (modPlay s t f).usets = s.usets := rfl
@[simp] theorem modPlay_profiles (t : Nat) (f : Play → Play) : (modPlay s t f).profiles = s.profiles := rfl
@[simp] theorem modPlay_ty (t : Nat) (f : Play → Play) : (modPlay s t f).ty = s.ty := rfl
@[simp] theorem modPlay_syncs (t : Nat) (f : Play → Play) : (modPlay s t f).syncs = s.syncs := rfl
@[simp] theorem modPlay_arms (t : Nat) (f : Play → Play) : (modPlay s t f).arms = s.arms := rfl
@[simp] theorem modPlay_z (t : Nat) (f : Play → Play) : (modPlay s t f).z = s.z := rfl
@[simp] theorem modPlay_trip (t : Nat) (f : Play → Play) : (modPlay s t f).trip = s.trip := rfl
@[simp] theorem modPlay_capt (t : Nat) (f : Play → Play) : (modPlay s t f).capt = s.capt := rfl
@[simp] theorem modPlay_stream (t : Nat) (f : Play → Play) : (modPlay s t f).stream = s.stream := rfl
@[simp] theorem modPlay_aout (t : Nat) (f : Play → Play) : (modPlay s t f).aout = s.aout := rfl
@[simp] theorem modPlay_twin (t : Nat) (f : Play → Play) : (modPlay s t f).twin = s.twin := rfl
@[simp] theorem modPlay_vigil (t : Nat) (f : Play → Play) : (modPlay s t f).vigil = s.vigil := rfl
@[simp] theorem modPlay_counted (t : Nat) (f : Play → Play) : (modPlay s t f).counted = s.counted := rfl
@[simp] theorem modPlay_pending (t : Nat) (f : Play → Play) : (modPlay s t f).pending = s.pending := rfl

/-! ### tallyEmpty writes only `tally` -/

@[simp] theorem tallyEmpty_u (i : Nat) : (tallyEmpty s i).u = s.u := rfl
@[simp] theorem tallyEmpty_t (i : Nat) : (tallyEmpty s i).t = s.t := rfl
@[simp] theorem tallyEmpty_ring (i : Nat) : (tallyEmpty s i).ring = s.ring := rfl
@[simp] theorem tallyEmpty_out (i : Nat) : (tallyEmpty s i).out = s.out := rfl
@[simp] theorem tallyEmpty_cmd (i : Nat) : (tallyEmpty s i).cmd = s.cmd := rfl
@[simp] theorem tallyEmpty_rights (i : Nat) : (tallyEmpty s i).rights = s.rights := rfl
@[simp] theorem tallyEmpty_log (i : Nat) : (tallyEmpty s i).log = s.log := rfl
@[simp] theorem tallyEmpty_nv (i : Nat) : (tallyEmpty s i).nv = s.nv := rfl
@[simp] theorem tallyEmpty_fac (i : Nat) : (tallyEmpty s i).fac = s.fac := rfl
@[simp] theorem tallyEmpty_cfg (i : Nat) : (tallyEmpty s i).cfg = s.cfg := rfl
@[simp] theorem tallyEmpty_fd (i : Nat) : (tallyEmpty s i).fd = s.fd := rfl
@[simp] theorem tallyEmpty_seam (i : Nat) : (tallyEmpty s i).seam = s.seam := rfl
@[simp] theorem tallyEmpty_alarm (i : Nat) : (tallyEmpty s i).alarm = s.alarm := rfl
@[simp] theorem tallyEmpty_sched (i : Nat) : (tallyEmpty s i).sched = s.sched := rfl
@[simp] theorem tallyEmpty_chain (i : Nat) : (tallyEmpty s i).chain = s.chain := rfl
@[simp] theorem tallyEmpty_gmarks (i : Nat) : (tallyEmpty s i).gmarks = s.gmarks := rfl
@[simp] theorem tallyEmpty_front (i : Nat) : (tallyEmpty s i).front = s.front := rfl
@[simp] theorem tallyEmpty_cell (i : Nat) : (tallyEmpty s i).cell = s.cell := rfl
@[simp] theorem tallyEmpty_mox (i : Nat) : (tallyEmpty s i).mox = s.mox := rfl
@[simp] theorem tallyEmpty_htr (i : Nat) : (tallyEmpty s i).htr = s.htr := rfl
@[simp] theorem tallyEmpty_brg (i : Nat) : (tallyEmpty s i).brg = s.brg := rfl
@[simp] theorem tallyEmpty_hk (i : Nat) : (tallyEmpty s i).hk = s.hk := rfl
@[simp] theorem tallyEmpty_usets (i : Nat) : (tallyEmpty s i).usets = s.usets := rfl
@[simp] theorem tallyEmpty_profiles (i : Nat) : (tallyEmpty s i).profiles = s.profiles := rfl
@[simp] theorem tallyEmpty_ty (i : Nat) : (tallyEmpty s i).ty = s.ty := rfl
@[simp] theorem tallyEmpty_syncs (i : Nat) : (tallyEmpty s i).syncs = s.syncs := rfl
@[simp] theorem tallyEmpty_arms (i : Nat) : (tallyEmpty s i).arms = s.arms := rfl
@[simp] theorem tallyEmpty_z (i : Nat) : (tallyEmpty s i).z = s.z := rfl
@[simp] theorem tallyEmpty_trip (i : Nat) : (tallyEmpty s i).trip = s.trip := rfl
@[simp] theorem tallyEmpty_capt (i : Nat) : (tallyEmpty s i).capt = s.capt := rfl
@[simp] theorem tallyEmpty_stream (i : Nat) : (tallyEmpty s i).stream = s.stream := rfl
@[simp] theorem tallyEmpty_aout (i : Nat) : (tallyEmpty s i).aout = s.aout := rfl
@[simp] theorem tallyEmpty_wave (i : Nat) : (tallyEmpty s i).wave = s.wave := rfl
@[simp] theorem tallyEmpty_twin (i : Nat) : (tallyEmpty s i).twin = s.twin := rfl
@[simp] theorem tallyEmpty_vigil (i : Nat) : (tallyEmpty s i).vigil = s.vigil := rfl
@[simp] theorem tallyEmpty_counted (i : Nat) : (tallyEmpty s i).counted = s.counted := rfl
@[simp] theorem tallyEmpty_pending (i : Nat) : (tallyEmpty s i).pending = s.pending := rfl

/-! ### taskAdd writes only `sched` -/

@[simp] theorem taskAdd_u (t : TaskRec) : (taskAdd s t).u = s.u := rfl
@[simp] theorem taskAdd_t (t : TaskRec) : (taskAdd s t).t = s.t := rfl
@[simp] theorem taskAdd_ring (t : TaskRec) : (taskAdd s t).ring = s.ring := rfl
@[simp] theorem taskAdd_out (t : TaskRec) : (taskAdd s t).out = s.out := rfl
@[simp] theorem taskAdd_cmd (t : TaskRec) : (taskAdd s t).cmd = s.cmd := rfl
@[simp] theorem taskAdd_rights (t : TaskRec) : (taskAdd s t).rights = s.rights := rfl
@[simp] theorem taskAdd_log (t : TaskRec) : (taskAdd s t).log = s.log := rfl
@[simp] theorem taskAdd_nv (t : TaskRec) : (taskAdd s t).nv = s.nv := rfl
@[simp] theorem taskAdd_fac (t : TaskRec) : (taskAdd s t).fac = s.fac := rfl
@[simp] theorem taskAdd_cfg (t : TaskRec) : (taskAdd s t).cfg = s.cfg := rfl
@[simp] theorem taskAdd_fd (t : TaskRec) : (taskAdd s t).fd = s.fd := rfl
@[simp] theorem taskAdd_seam (t : TaskRec) : (taskAdd s t).seam = s.seam := rfl
@[simp] theorem taskAdd_tally (t : TaskRec) : (taskAdd s t).tally = s.tally := rfl
@[simp] theorem taskAdd_alarm (t : TaskRec) : (taskAdd s t).alarm = s.alarm := rfl
@[simp] theorem taskAdd_chain (t : TaskRec) : (taskAdd s t).chain = s.chain := rfl
@[simp] theorem taskAdd_gmarks (t : TaskRec) : (taskAdd s t).gmarks = s.gmarks := rfl
@[simp] theorem taskAdd_front (t : TaskRec) : (taskAdd s t).front = s.front := rfl
@[simp] theorem taskAdd_cell (t : TaskRec) : (taskAdd s t).cell = s.cell := rfl
@[simp] theorem taskAdd_mox (t : TaskRec) : (taskAdd s t).mox = s.mox := rfl
@[simp] theorem taskAdd_htr (t : TaskRec) : (taskAdd s t).htr = s.htr := rfl
@[simp] theorem taskAdd_brg (t : TaskRec) : (taskAdd s t).brg = s.brg := rfl
@[simp] theorem taskAdd_hk (t : TaskRec) : (taskAdd s t).hk = s.hk := rfl
@[simp] theorem taskAdd_usets (t : TaskRec) : (taskAdd s t).usets = s.usets := rfl
@[simp] theorem taskAdd_profiles (t : TaskRec) : (taskAdd s t).profiles = s.profiles := rfl
@[simp] theorem taskAdd_ty (t : TaskRec) : (taskAdd s t).ty = s.ty := rfl
@[simp] theorem taskAdd_syncs (t : TaskRec) : (taskAdd s t).syncs = s.syncs := rfl
@[simp] theorem taskAdd_arms (t : TaskRec) : (taskAdd s t).arms = s.arms := rfl
@[simp] theorem taskAdd_z (t : TaskRec) : (taskAdd s t).z = s.z := rfl
@[simp] theorem taskAdd_trip (t : TaskRec) : (taskAdd s t).trip = s.trip := rfl
@[simp] theorem taskAdd_capt (t : TaskRec) : (taskAdd s t).capt = s.capt := rfl
@[simp] theorem taskAdd_stream (t : TaskRec) : (taskAdd s t).stream = s.stream := rfl
@[simp] theorem taskAdd_aout (t : TaskRec) : (taskAdd s t).aout = s.aout := rfl
@[simp] theorem taskAdd_wave (t : TaskRec) : (taskAdd s t).wave = s.wave := rfl
@[simp] theorem taskAdd_twin (t : TaskRec) : (taskAdd s t).twin = s.twin := rfl
@[simp] theorem taskAdd_vigil (t : TaskRec) : (taskAdd s t).vigil = s.vigil := rfl
@[simp] theorem taskAdd_counted (t : TaskRec) : (taskAdd s t).counted = s.counted := rfl
@[simp] theorem taskAdd_pending (t : TaskRec) : (taskAdd s t).pending = s.pending := rfl

/-! ### taskNew writes only `sched` -/

@[simp] theorem taskNew_u (opc : Nat) (cls : TaskClass) (cl : BitVec 16) (obj : TaskObj) : (taskNew s opc cls cl obj).u = s.u := rfl
@[simp] theorem taskNew_t (opc : Nat) (cls : TaskClass) (cl : BitVec 16) (obj : TaskObj) : (taskNew s opc cls cl obj).t = s.t := rfl
@[simp] theorem taskNew_ring (opc : Nat) (cls : TaskClass) (cl : BitVec 16) (obj : TaskObj) : (taskNew s opc cls cl obj).ring = s.ring := rfl
@[simp] theorem taskNew_out (opc : Nat) (cls : TaskClass) (cl : BitVec 16) (obj : TaskObj) : (taskNew s opc cls cl obj).out = s.out := rfl
@[simp] theorem taskNew_cmd (opc : Nat) (cls : TaskClass) (cl : BitVec 16) (obj : TaskObj) : (taskNew s opc cls cl obj).cmd = s.cmd := rfl
@[simp] theorem taskNew_rights (opc : Nat) (cls : TaskClass) (cl : BitVec 16) (obj : TaskObj) : (taskNew s opc cls cl obj).rights = s.rights := rfl
@[simp] theorem taskNew_log (opc : Nat) (cls : TaskClass) (cl : BitVec 16) (obj : TaskObj) : (taskNew s opc cls cl obj).log = s.log := rfl
@[simp] theorem taskNew_nv (opc : Nat) (cls : TaskClass) (cl : BitVec 16) (obj : TaskObj) : (taskNew s opc cls cl obj).nv = s.nv := rfl
@[simp] theorem taskNew_fac (opc : Nat) (cls : TaskClass) (cl : BitVec 16) (obj : TaskObj) : (taskNew s opc cls cl obj).fac = s.fac := rfl
@[simp] theorem taskNew_cfg (opc : Nat) (cls : TaskClass) (cl : BitVec 16) (obj : TaskObj) : (taskNew s opc cls cl obj).cfg = s.cfg := rfl
@[simp] theorem taskNew_fd (opc : Nat) (cls : TaskClass) (cl : BitVec 16) (obj : TaskObj) : (taskNew s opc cls cl obj).fd = s.fd := rfl
@[simp] theorem taskNew_seam (opc : Nat) (cls : TaskClass) (cl : BitVec 16) (obj : TaskObj) : (taskNew s opc cls cl obj).seam = s.seam := rfl
@[simp] theorem taskNew_tally (opc : Nat) (cls : TaskClass) (cl : BitVec 16) (obj : TaskObj) : (taskNew s opc cls cl obj).tally = s.tally := rfl
@[simp] theorem taskNew_alarm (opc : Nat) (cls : TaskClass) (cl : BitVec 16) (obj : TaskObj) : (taskNew s opc cls cl obj).alarm = s.alarm := rfl
@[simp] theorem taskNew_chain (opc : Nat) (cls : TaskClass) (cl : BitVec 16) (obj : TaskObj) : (taskNew s opc cls cl obj).chain = s.chain := rfl
@[simp] theorem taskNew_gmarks (opc : Nat) (cls : TaskClass) (cl : BitVec 16) (obj : TaskObj) : (taskNew s opc cls cl obj).gmarks = s.gmarks := rfl
@[simp] theorem taskNew_front (opc : Nat) (cls : TaskClass) (cl : BitVec 16) (obj : TaskObj) : (taskNew s opc cls cl obj).front = s.front := rfl
@[simp] theorem taskNew_cell (opc : Nat) (cls : TaskClass) (cl : BitVec 16) (obj : TaskObj) : (taskNew s opc cls cl obj).cell = s.cell := rfl
@[simp] theorem taskNew_mox (opc : Nat) (cls : TaskClass) (cl : BitVec 16) (obj : TaskObj) : (taskNew s opc cls cl obj).mox = s.mox := rfl
@[simp] theorem taskNew_htr (opc : Nat) (cls : TaskClass) (cl : BitVec 16) (obj : TaskObj) : (taskNew s opc cls cl obj).htr = s.htr := rfl
@[simp] theorem taskNew_brg (opc : Nat) (cls : TaskClass) (cl : BitVec 16) (obj : TaskObj) : (taskNew s opc cls cl obj).brg = s.brg := rfl
@[simp] theorem taskNew_hk (opc : Nat) (cls : TaskClass) (cl : BitVec 16) (obj : TaskObj) : (taskNew s opc cls cl obj).hk = s.hk := rfl
@[simp] theorem taskNew_usets (opc : Nat) (cls : TaskClass) (cl : BitVec 16) (obj : TaskObj) : (taskNew s opc cls cl obj).usets = s.usets := rfl
@[simp] theorem taskNew_profiles (opc : Nat) (cls : TaskClass) (cl : BitVec 16) (obj : TaskObj) : (taskNew s opc cls cl obj).profiles = s.profiles := rfl
@[simp] theorem taskNew_ty (opc : Nat) (cls : TaskClass) (cl : BitVec 16) (obj : TaskObj) : (taskNew s opc cls cl obj).ty = s.ty := rfl
@[simp] theorem taskNew_syncs (opc : Nat) (cls : TaskClass) (cl : BitVec 16) (obj : TaskObj) : (taskNew s opc cls cl obj).syncs = s.syncs := rfl
@[simp] theorem taskNew_arms (opc : Nat) (cls : TaskClass) (cl : BitVec 16) (obj : TaskObj) : (taskNew s opc cls cl obj).arms = s.arms := rfl
@[simp] theorem taskNew_z (opc : Nat) (cls : TaskClass) (cl : BitVec 16) (obj : TaskObj) : (taskNew s opc cls cl obj).z = s.z := rfl
@[simp] theorem taskNew_trip (opc : Nat) (cls : TaskClass) (cl : BitVec 16) (obj : TaskObj) : (taskNew s opc cls cl obj).trip = s.trip := rfl
@[simp] theorem taskNew_capt (opc : Nat) (cls : TaskClass) (cl : BitVec 16) (obj : TaskObj) : (taskNew s opc cls cl obj).capt = s.capt := rfl
@[simp] theorem taskNew_stream (opc : Nat) (cls : TaskClass) (cl : BitVec 16) (obj : TaskObj) : (taskNew s opc cls cl obj).stream = s.stream := rfl
@[simp] theorem taskNew_aout (opc : Nat) (cls : TaskClass) (cl : BitVec 16) (obj : TaskObj) : (taskNew s opc cls cl obj).aout = s.aout := rfl
@[simp] theorem taskNew_wave (opc : Nat) (cls : TaskClass) (cl : BitVec 16) (obj : TaskObj) : (taskNew s opc cls cl obj).wave = s.wave := rfl
@[simp] theorem taskNew_twin (opc : Nat) (cls : TaskClass) (cl : BitVec 16) (obj : TaskObj) : (taskNew s opc cls cl obj).twin = s.twin := rfl
@[simp] theorem taskNew_vigil (opc : Nat) (cls : TaskClass) (cl : BitVec 16) (obj : TaskObj) : (taskNew s opc cls cl obj).vigil = s.vigil := rfl
@[simp] theorem taskNew_counted (opc : Nat) (cls : TaskClass) (cl : BitVec 16) (obj : TaskObj) : (taskNew s opc cls cl obj).counted = s.counted := rfl
@[simp] theorem taskNew_pending (opc : Nat) (cls : TaskClass) (cl : BitVec 16) (obj : TaskObj) : (taskNew s opc cls cl obj).pending = s.pending := rfl

/-! ### taskMod writes only `sched` -/

@[simp] theorem taskMod_u (n : Nat) (f : TaskRec → TaskRec) : (taskMod s n f).u = s.u := rfl
@[simp] theorem taskMod_t (n : Nat) (f : TaskRec → TaskRec) : (taskMod s n f).t = s.t := rfl
@[simp] theorem taskMod_ring (n : Nat) (f : TaskRec → TaskRec) : (taskMod s n f).ring = s.ring := rfl
@[simp] theorem taskMod_out (n : Nat) (f : TaskRec → TaskRec) : (taskMod s n f).out = s.out := rfl
@[simp] theorem taskMod_cmd (n : Nat) (f : TaskRec → TaskRec) : (taskMod s n f).cmd = s.cmd := rfl
@[simp] theorem taskMod_rights (n : Nat) (f : TaskRec → TaskRec) : (taskMod s n f).rights = s.rights := rfl
@[simp] theorem taskMod_log (n : Nat) (f : TaskRec → TaskRec) : (taskMod s n f).log = s.log := rfl
@[simp] theorem taskMod_nv (n : Nat) (f : TaskRec → TaskRec) : (taskMod s n f).nv = s.nv := rfl
@[simp] theorem taskMod_fac (n : Nat) (f : TaskRec → TaskRec) : (taskMod s n f).fac = s.fac := rfl
@[simp] theorem taskMod_cfg (n : Nat) (f : TaskRec → TaskRec) : (taskMod s n f).cfg = s.cfg := rfl
@[simp] theorem taskMod_fd (n : Nat) (f : TaskRec → TaskRec) : (taskMod s n f).fd = s.fd := rfl
@[simp] theorem taskMod_seam (n : Nat) (f : TaskRec → TaskRec) : (taskMod s n f).seam = s.seam := rfl
@[simp] theorem taskMod_tally (n : Nat) (f : TaskRec → TaskRec) : (taskMod s n f).tally = s.tally := rfl
@[simp] theorem taskMod_alarm (n : Nat) (f : TaskRec → TaskRec) : (taskMod s n f).alarm = s.alarm := rfl
@[simp] theorem taskMod_chain (n : Nat) (f : TaskRec → TaskRec) : (taskMod s n f).chain = s.chain := rfl
@[simp] theorem taskMod_gmarks (n : Nat) (f : TaskRec → TaskRec) : (taskMod s n f).gmarks = s.gmarks := rfl
@[simp] theorem taskMod_front (n : Nat) (f : TaskRec → TaskRec) : (taskMod s n f).front = s.front := rfl
@[simp] theorem taskMod_cell (n : Nat) (f : TaskRec → TaskRec) : (taskMod s n f).cell = s.cell := rfl
@[simp] theorem taskMod_mox (n : Nat) (f : TaskRec → TaskRec) : (taskMod s n f).mox = s.mox := rfl
@[simp] theorem taskMod_htr (n : Nat) (f : TaskRec → TaskRec) : (taskMod s n f).htr = s.htr := rfl
@[simp] theorem taskMod_brg (n : Nat) (f : TaskRec → TaskRec) : (taskMod s n f).brg = s.brg := rfl
@[simp] theorem taskMod_hk (n : Nat) (f : TaskRec → TaskRec) : (taskMod s n f).hk = s.hk := rfl
@[simp] theorem taskMod_usets (n : Nat) (f : TaskRec → TaskRec) : (taskMod s n f).usets = s.usets := rfl
@[simp] theorem taskMod_profiles (n : Nat) (f : TaskRec → TaskRec) : (taskMod s n f).profiles = s.profiles := rfl
@[simp] theorem taskMod_ty (n : Nat) (f : TaskRec → TaskRec) : (taskMod s n f).ty = s.ty := rfl
@[simp] theorem taskMod_syncs (n : Nat) (f : TaskRec → TaskRec) : (taskMod s n f).syncs = s.syncs := rfl
@[simp] theorem taskMod_arms (n : Nat) (f : TaskRec → TaskRec) : (taskMod s n f).arms = s.arms := rfl
@[simp] theorem taskMod_z (n : Nat) (f : TaskRec → TaskRec) : (taskMod s n f).z = s.z := rfl
@[simp] theorem taskMod_trip (n : Nat) (f : TaskRec → TaskRec) : (taskMod s n f).trip = s.trip := rfl
@[simp] theorem taskMod_capt (n : Nat) (f : TaskRec → TaskRec) : (taskMod s n f).capt = s.capt := rfl
@[simp] theorem taskMod_stream (n : Nat) (f : TaskRec → TaskRec) : (taskMod s n f).stream = s.stream := rfl
@[simp] theorem taskMod_aout (n : Nat) (f : TaskRec → TaskRec) : (taskMod s n f).aout = s.aout := rfl
@[simp] theorem taskMod_wave (n : Nat) (f : TaskRec → TaskRec) : (taskMod s n f).wave = s.wave := rfl
@[simp] theorem taskMod_twin (n : Nat) (f : TaskRec → TaskRec) : (taskMod s n f).twin = s.twin := rfl
@[simp] theorem taskMod_vigil (n : Nat) (f : TaskRec → TaskRec) : (taskMod s n f).vigil = s.vigil := rfl
@[simp] theorem taskMod_counted (n : Nat) (f : TaskRec → TaskRec) : (taskMod s n f).counted = s.counted := rfl
@[simp] theorem taskMod_pending (n : Nat) (f : TaskRec → TaskRec) : (taskMod s n f).pending = s.pending := rfl

/-! ### What the plain ones write -/

@[simp] theorem setParam_cfg (id : Nat) (w : Word) : (setParam s id w).cfg = cfgSet s.cfg id w := rfl
@[simp] theorem modChain_chain (c : Nat) (f : Chain → Chain) : (modChain s c f).chain = vmod s.chain c f := rfl
@[simp] theorem modFront_front (n : Nat) (f : Front → Front) : (modFront s n f).front = vmod s.front n f := rfl
@[simp] theorem modCell_cell (k : Nat) (f : Cell → Cell) : (modCell s k f).cell = vmod s.cell k f := rfl
@[simp] theorem modMox_mox (n : Nat) (f : MoxSt → MoxSt) : (modMox s n f).mox = vmod s.mox n f := rfl
@[simp] theorem modHtr_htr (n : Nat) (f : Heater → Heater) : (modHtr s n f).htr = vmod s.htr n f := rfl
@[simp] theorem modBrg_brg (b : Nat) (f : Bridge → Bridge) : (modBrg s b f).brg = vmod s.brg b f := rfl
@[simp] theorem modRule_alarm (r : Nat) (f : AlarmRule → AlarmRule) : (modRule s r f).alarm = vmod s.alarm r f := rfl
@[simp] theorem modPlay_play (t : Nat) (f : Play → Play) : (modPlay s t f).wave.play = vmod s.wave.play t f := rfl

/-- A parameter depends on the configuration list alone. -/
theorem param_congr {s t : State} (h : t.cfg = s.cfg) (id : Nat) : param t id = param s id := by simp only [param, h]

/-- Changing one entry of a fixed array, and reading it. -/
theorem vget_vmod_same {α : Type} {n : Nat} (v : Vector α n) (i : Nat) (f : α → α) (d : α) (h : i < n) :
    vget (vmod v i f) i d = f (vget v i d) := by
  simp [vget, vmod, h]

/-- Changing one entry of a fixed array leaves the others. -/
theorem vget_vmod_other {α : Type} {n : Nat} (v : Vector α n) (i j : Nat) (f : α → α) (d : α) (h : i ≠ j) :
    vget (vmod v i f) j d = vget v j d := by
  unfold vget vmod
  split <;> rename_i hj
  · split
    · exact Vector.getElem_set_ne _ hj h
    · rfl
  · rfl

end Sys2Proof.Machine
end

