-- ==== Sys2Proof/Laws/Params.lean ====
section
/-! SUPPORT. The configuration list: writing a parameter keeps its canonical form, and reading finds what was written (20 R883). -/

namespace Sys2Proof.Machine

/-- Every key of a list is above `k`. -/
def keysAbove (k : Nat) (l : List (Nat × Word)) : Prop := ∀ p ∈ l, k < p.1

theorem idsRise_cons {i : Nat} {w : Word} {l : List (Nat × Word)} :
    idsRise ((i, w) :: l) = true ↔ keysAbove i l ∧ idsRise l = true := by
  induction l generalizing i w with
  | nil => simp [idsRise, keysAbove]
  | cons p l ih =>
    obtain ⟨j, v⟩ := p
    simp only [idsRise, Bool.and_eq_true, decide_eq_true_eq, keysAbove]
    constructor
    · rintro ⟨h, hl⟩
      refine ⟨fun q hq => ?_, hl⟩
      rcases List.mem_cons.mp hq with rfl | hq
      · exact h
      · exact Nat.lt_trans h ((ih.mp hl).1 q hq)
    · rintro ⟨h, hl⟩
      exact ⟨h (j, v) List.mem_cons_self, hl⟩

theorem aget_above {k : Nat} {l : List (Nat × Word)} (h : keysAbove k l) : aget l k = none := by
  induction l with
  | nil => rfl
  | cons p l ih =>
    have hp := h p List.mem_cons_self
    obtain ⟨j, v⟩ := p
    simp only [aget, if_neg (Nat.ne_of_gt hp)]
    exact ih (fun q hq => h q (List.mem_cons_of_mem _ hq))

theorem aset_mem {k : Nat} {w : Word} {l : List (Nat × Word)} {p : Nat × Word} (h : p ∈ aset l k w) : p = (k, w) ∨ p ∈ l := by
  induction l with
  | nil => simpa [aset] using h
  | cons q l ih =>
    obtain ⟨j, v⟩ := q
    simp only [aset] at h
    split at h
    · simpa using h
    · split at h
      · rcases List.mem_cons.mp h with h | h
        · exact .inl h
        · exact .inr (List.mem_cons_of_mem _ h)
      · rcases List.mem_cons.mp h with h | h
        · exact .inr (by rw [h]; exact List.mem_cons_self)
        · rcases ih h with h | h
          · exact .inl h
          · exact .inr (List.mem_cons_of_mem _ h)

theorem adel_mem {k : Nat} {l : List (Nat × Word)} {p : Nat × Word} (h : p ∈ adel l k) : p ∈ l := by
  induction l with
  | nil => exact h
  | cons q l ih =>
    obtain ⟨j, v⟩ := q
    simp only [adel] at h
    split at h
    · exact List.mem_cons_of_mem _ (ih h)
    · rcases List.mem_cons.mp h with h | h
      · rw [h]; exact List.mem_cons_self
      · exact List.mem_cons_of_mem _ (ih h)

/-- A value set under a key is read there, and the other keys read as before. -/
theorem aget_aset {α : Type} (l : List (Nat × α)) (k j : Nat) (w : α) : aget (aset l k w) j = if k = j then some w else aget l j := by
  induction l with
  | nil => rfl
  | cons p l ih =>
    obtain ⟨i, v⟩ := p
    simp only [aset]
    split
    · simp only [aget]
    · split
      · next h => subst h; simp only [aget]; split <;> rfl
      · simp only [aget, ih]
        by_cases hk : k = j
        · subst hk; simp [*]
        · simp [hk]

/-- A key taken out reads as absent, and the other keys as before. -/
theorem aget_adel {α : Type} (l : List (Nat × α)) (k j : Nat) : aget (adel l k) j = if k = j then none else aget l j := by
  induction l with
  | nil => simp [adel, aget]
  | cons p l ih =>
    obtain ⟨i, v⟩ := p
    simp only [adel]
    split
    · next e =>
      subst e
      rw [ih]
      by_cases hk : i = j
      · simp [hk]
      · simp [aget, hk]
    · next e =>
      simp only [aget, ih]
      by_cases hk : k = j
      · subst hk; simp [e]
      · simp [hk]

theorem idsRise_aset {l : List (Nat × Word)} (h : idsRise l = true) (k : Nat) (w : Word) : idsRise (aset l k w) = true := by
  induction l with
  | nil => rfl
  | cons p l ih =>
    obtain ⟨i, v⟩ := p
    obtain ⟨ha, hl⟩ := idsRise_cons.mp h
    simp only [aset]
    split
    · next e =>
      refine idsRise_cons.mpr ⟨fun q hq => ?_, h⟩
      rcases List.mem_cons.mp hq with rfl | hq
      · exact e
      · exact Nat.lt_trans e (ha q hq)
    · split
      · next e => subst e; exact idsRise_cons.mpr ⟨ha, hl⟩
      · next e1 e2 =>
        refine idsRise_cons.mpr ⟨fun q hq => ?_, ih hl⟩
        rcases aset_mem hq with rfl | hq
        · show i < k; omega
        · exact ha q hq

theorem idsRise_adel {l : List (Nat × Word)} (h : idsRise l = true) (k : Nat) : idsRise (adel l k) = true := by
  induction l with
  | nil => rfl
  | cons p l ih =>
    obtain ⟨i, v⟩ := p
    obtain ⟨ha, hl⟩ := idsRise_cons.mp h
    simp only [adel]
    split
    · exact ih hl
    · exact idsRise_cons.mpr ⟨fun q hq => ha q (adel_mem hq), ih hl⟩

/-- Writing a parameter keeps the canonical form. -/
theorem cfgWf_cfgSet {c : List (Nat × Word)} (h : cfgWf c = true) (id : Nat) (w : Word) : cfgWf (cfgSet c id w) = true := by
  simp only [cfgWf, Bool.and_eq_true, List.all_eq_true] at h ⊢
  obtain ⟨hr, ha⟩ := h
  unfold cfgSet
  split
  · exact ⟨idsRise_adel hr id, fun p hp => ha p (adel_mem hp)⟩
  · next hw =>
    refine ⟨idsRise_aset hr id w, fun p hp => ?_⟩
    rcases aset_mem hp with rfl | hp
    · simpa using hw
    · exact ha p hp

/-- Reading after a write. -/
theorem cfgGet_cfgSet (c : List (Nat × Word)) (id j : Nat) (w : Word) :
    cfgGet (cfgSet c id w) j = if id = j then w else cfgGet c j := by
  unfold cfgSet cfgGet
  split
  · next e =>
    rw [aget_adel]
    split
    · next hj => subst hj; simp [e]
    · rfl
  · rw [aget_aset]
    split <;> rfl

/-- A parameter written reads back. -/
theorem param_setParam_same (s : State) (id : Nat) (w : Word) : param (setParam s id w) id = w := by
  simp [param, setParam, cfgGet_cfgSet]

/-- The other parameters keep their values. -/
theorem param_setParam_other (s : State) {id j : Nat} (hj : j ≠ id) (w : Word) :
    param (setParam s id w) j = param s j := by
  simp [param, setParam, cfgGet_cfgSet, Ne.symm hj]

/-- A stored value with its entry: the parameter reads back, and nothing but the list and the Logbook changes. -/
theorem paramPut_shape (s : State) (id : Nat) (o : BitVec 16) (w : Word) :
    paramPut s id o w = { s with cfg := cfgSet s.cfg id w, log := (paramPut s id o w).log } := by
  unfold paramPut paramLog
  split <;> rfl

end Sys2Proof.Machine
end

