-- ==== Sys2Proof/Laws/Keeps.lean ====
section
/-! SUPPORT. What almost every operation leaves alone: the queue of commands, the configuration list, the unit's condition, and the
bounds of the invariant. -/

namespace Sys2Proof.Machine

/-- A property of the configuration list that writing a parameter keeps, and that holds of the empty list. -/
structure CfgClosed (C : List (Nat × Word) → Prop) : Prop where
  set : ∀ c i w, C c → C (cfgSet c i w)
  nil : C []

/-- No property of the unit's condition is asked for. -/
def UFree (U : UnitSt → Prop) : Prop := ∀ u, U u

/-- The queue is `Q`, the configuration list has `C`, the unit's condition has `U`, and with `B` the bounds of the invariant hold. -/
structure Keeps (Q : List Instr) (C : List (Nat × Word) → Prop) (U : UnitSt → Prop) (B : Prop) (s : State) : Prop where
  queue  : s.pending = Q
  config : C s.cfg
  unit   : U s.u
  phase  : B → s.t.p < 512
  log    : B → s.log.entries.length ≤ 4096
  events : B → s.cmd.events.length ≤ 16

variable {Q : List Instr} {C : List (Nat × Word) → Prop} {U : UnitSt → Prop} {B : Prop} {s t : State}

/-- Nothing of it was touched. -/
theorem Keeps.same (h : Keeps Q C U B s) (h1 : t.pending = s.pending) (h2 : t.cfg = s.cfg) (h3 : t.u = s.u)
    (h4 : t.t.p = s.t.p) (h5 : t.log.entries = s.log.entries) (h6 : t.cmd.events = s.cmd.events) : Keeps Q C U B t :=
  ⟨h1 ▸ h.queue, h2 ▸ h.config, h3 ▸ h.unit, h4 ▸ h.phase, h5 ▸ h.log, h6 ▸ h.events⟩

/-- An update that touched nothing of it. -/
theorem Keeps.upd
    {u_ : UnitSt} {t_ : TimeSt} {ring_ : RingSt} {out_ : OutSt} {cmd_ : CmdSt} {rights_ : RightsSt} {log_ : LogSt}
    {nv_ : NvSt} {fac_ : FactorySt} {cfg_ : List (Nat × Word)} {fd_ : FieldSt} {seam_ : SeamSt} {tally_ : Vector
    TallySrc 24} {alarm_ : Vector AlarmRule 16} {sched_ : SchedSt} {chain_ : Vector Chain 14} {gmarks_ : List Mark}
    {front_ : Vector Front 12} {cell_ : Vector Cell 4} {mox_ : Vector MoxSt 4} {htr_ : Vector Heater 4} {brg_ : Vector
    Bridge 2} {hk_ : HkSt} {usets_ : Vector (List (BitVec 24)) 16} {profiles_ : Vector (List (BitVec 64)) 16} {ty_ :
    Nat} {syncs_ : List SyncDue} {arms_ : List ArmDue} {z_ : ZSt} {trip_ : TripSt} {capt_ : CaptSt} {stream_ :
    StreamSt} {aout_ : AoutSt} {wave_ : WaveSt} {twin_ : TwinSt} {vigil_ : VigilSt} {counted_ : BitVec 8} {pending_ :
    List Instr}
    (h : Keeps Q C U B s) (h1 : pending_ = s.pending) (h2 : cfg_ = s.cfg) (h3 : u_ = s.u) (h4 : t_.p = s.t.p)
    (h5 : log_.entries = s.log.entries) (h6 : cmd_.events = s.cmd.events) :
    Keeps Q C U B
      (State.mk u_ t_ ring_ out_ cmd_ rights_ log_ nv_ fac_ cfg_ fd_ seam_ tally_ alarm_ sched_ chain_ gmarks_ front_ cell_
        mox_ htr_ brg_ hk_ usets_ profiles_ ty_ syncs_ arms_ z_ trip_ capt_ stream_ aout_ wave_ twin_ vigil_
        counted_ pending_) :=
  h.same h1 h2 h3 h4 h5 h6

/-- An update that leaves at most sixteen events. -/
theorem Keeps.updEv
    {u_ : UnitSt} {t_ : TimeSt} {ring_ : RingSt} {out_ : OutSt} {cmd_ : CmdSt} {rights_ : RightsSt} {log_ : LogSt}
    {nv_ : NvSt} {fac_ : FactorySt} {cfg_ : List (Nat × Word)} {fd_ : FieldSt} {seam_ : SeamSt} {tally_ : Vector
    TallySrc 24} {alarm_ : Vector AlarmRule 16} {sched_ : SchedSt} {chain_ : Vector Chain 14} {gmarks_ : List Mark}
    {front_ : Vector Front 12} {cell_ : Vector Cell 4} {mox_ : Vector MoxSt 4} {htr_ : Vector Heater 4} {brg_ : Vector
    Bridge 2} {hk_ : HkSt} {usets_ : Vector (List (BitVec 24)) 16} {profiles_ : Vector (List (BitVec 64)) 16} {ty_ :
    Nat} {syncs_ : List SyncDue} {arms_ : List ArmDue} {z_ : ZSt} {trip_ : TripSt} {capt_ : CaptSt} {stream_ :
    StreamSt} {aout_ : AoutSt} {wave_ : WaveSt} {twin_ : TwinSt} {vigil_ : VigilSt} {counted_ : BitVec 8} {pending_ :
    List Instr}
    (h : Keeps Q C U B s) (h1 : pending_ = s.pending) (h2 : cfg_ = s.cfg) (h3 : u_ = s.u) (h4 : t_.p = s.t.p)
    (h5 : log_.entries = s.log.entries) (h6 : cmd_.events.length ≤ 16) :
    Keeps Q C U B
      (State.mk u_ t_ ring_ out_ cmd_ rights_ log_ nv_ fac_ cfg_ fd_ seam_ tally_ alarm_ sched_ chain_ gmarks_ front_ cell_
        mox_ htr_ brg_ hk_ usets_ profiles_ ty_ syncs_ arms_ z_ trip_ capt_ stream_ aout_ wave_ twin_ vigil_
        counted_ pending_) :=
  ⟨h1 ▸ h.queue, h2 ▸ h.config, h3 ▸ h.unit, h4 ▸ h.phase, h5 ▸ h.log, fun _ => h6⟩

/-- An update that moves the phase within the superframe. -/
theorem Keeps.updP
    {u_ : UnitSt} {t_ : TimeSt} {ring_ : RingSt} {out_ : OutSt} {cmd_ : CmdSt} {rights_ : RightsSt} {log_ : LogSt}
    {nv_ : NvSt} {fac_ : FactorySt} {cfg_ : List (Nat × Word)} {fd_ : FieldSt} {seam_ : SeamSt} {tally_ : Vector
    TallySrc 24} {alarm_ : Vector AlarmRule 16} {sched_ : SchedSt} {chain_ : Vector Chain 14} {gmarks_ : List Mark}
    {front_ : Vector Front 12} {cell_ : Vector Cell 4} {mox_ : Vector MoxSt 4} {htr_ : Vector Heater 4} {brg_ : Vector
    Bridge 2} {hk_ : HkSt} {usets_ : Vector (List (BitVec 24)) 16} {profiles_ : Vector (List (BitVec 64)) 16} {ty_ :
    Nat} {syncs_ : List SyncDue} {arms_ : List ArmDue} {z_ : ZSt} {trip_ : TripSt} {capt_ : CaptSt} {stream_ :
    StreamSt} {aout_ : AoutSt} {wave_ : WaveSt} {twin_ : TwinSt} {vigil_ : VigilSt} {counted_ : BitVec 8} {pending_ :
    List Instr}
    (h : Keeps Q C U B s) (h1 : pending_ = s.pending) (h2 : cfg_ = s.cfg) (h3 : u_ = s.u) (h4 : t_.p < 512)
    (h5 : log_.entries = s.log.entries) (h6 : cmd_.events = s.cmd.events) :
    Keeps Q C U B
      (State.mk u_ t_ ring_ out_ cmd_ rights_ log_ nv_ fac_ cfg_ fd_ seam_ tally_ alarm_ sched_ chain_ gmarks_ front_ cell_
        mox_ htr_ brg_ hk_ usets_ profiles_ ty_ syncs_ arms_ z_ trip_ capt_ stream_ aout_ wave_ twin_ vigil_
        counted_ pending_) :=
  ⟨h1 ▸ h.queue, h2 ▸ h.config, h3 ▸ h.unit, fun _ => h4, h5 ▸ h.log, h6 ▸ h.events⟩

/-- An update of the unit's condition, of which nothing is asked. -/
theorem Keeps.updU (hU : UFree U)
    {u_ : UnitSt} {t_ : TimeSt} {ring_ : RingSt} {out_ : OutSt} {cmd_ : CmdSt} {rights_ : RightsSt} {log_ : LogSt}
    {nv_ : NvSt} {fac_ : FactorySt} {cfg_ : List (Nat × Word)} {fd_ : FieldSt} {seam_ : SeamSt} {tally_ : Vector
    TallySrc 24} {alarm_ : Vector AlarmRule 16} {sched_ : SchedSt} {chain_ : Vector Chain 14} {gmarks_ : List Mark}
    {front_ : Vector Front 12} {cell_ : Vector Cell 4} {mox_ : Vector MoxSt 4} {htr_ : Vector Heater 4} {brg_ : Vector
    Bridge 2} {hk_ : HkSt} {usets_ : Vector (List (BitVec 24)) 16} {profiles_ : Vector (List (BitVec 64)) 16} {ty_ :
    Nat} {syncs_ : List SyncDue} {arms_ : List ArmDue} {z_ : ZSt} {trip_ : TripSt} {capt_ : CaptSt} {stream_ :
    StreamSt} {aout_ : AoutSt} {wave_ : WaveSt} {twin_ : TwinSt} {vigil_ : VigilSt} {counted_ : BitVec 8} {pending_ :
    List Instr}
    (h : Keeps Q C U B s) (h1 : pending_ = s.pending) (h2 : cfg_ = s.cfg) (h4 : t_.p = s.t.p)
    (h5 : log_.entries = s.log.entries) (h6 : cmd_.events = s.cmd.events) :
    Keeps Q C U B
      (State.mk u_ t_ ring_ out_ cmd_ rights_ log_ nv_ fac_ cfg_ fd_ seam_ tally_ alarm_ sched_ chain_ gmarks_ front_ cell_
        mox_ htr_ brg_ hk_ usets_ profiles_ ty_ syncs_ arms_ z_ trip_ capt_ stream_ aout_ wave_ twin_ vigil_
        counted_ pending_) :=
  ⟨h1 ▸ h.queue, h2 ▸ h.config, hU _, h4 ▸ h.phase, h5 ▸ h.log, h6 ▸ h.events⟩

theorem Keeps.cut {x : State} {P : Prop} (h : Keeps Q C U B x) (k : Keeps Q C U B x → P) : P := k h

theorem Keeps.ite {c : Prop} [Decidable c] {x y : State} (h : Keeps Q C U B x) (k : Keeps Q C U B x → Keeps Q C U B y) :
    Keeps Q C U B (if c then x else y) := by
  split
  · exact h
  · exact k h

theorem Keeps.ite' {c : Prop} [Decidable c] {x y : State} (h : Keeps Q C U B y) (k : Keeps Q C U B y → Keeps Q C U B x) :
    Keeps Q C U B (if c then x else y) := by
  split
  · exact k h
  · exact h

theorem forEach_keeps {l : List Nat} {f : State → Nat → State} (h : Keeps Q C U B s)
    (hf : ∀ (t : State) (i : Nat), Keeps Q C U B t → Keeps Q C U B (f t i)) : Keeps Q C U B (forEach s l f) := by
  unfold forEach
  induction l generalizing s with
  | nil => exact h
  | cons a l ih => exact ih (hf s a h)

theorem foldl_keeps {α : Type} {l : List α} {f : State → α → State} (h : Keeps Q C U B s)
    (hf : ∀ (t : State) (x : α), Keeps Q C U B t → Keeps Q C U B (f t x)) : Keeps Q C U B (l.foldl f s) := by
  induction l generalizing s with
  | nil => exact h
  | cons a l ih => exact ih (hf s a h)

theorem foldl1_keeps {α β : Type} {l : List α} {f : State × β → α → State × β} {z : State × β} (h : Keeps Q C U B z.1)
    (hf : ∀ (y : State × β) (x : α), Keeps Q C U B y.1 → Keeps Q C U B (f y x).1) : Keeps Q C U B (l.foldl f z).1 := by
  induction l generalizing z with
  | nil => exact h
  | cons a l ih => exact ih (hf z a h)

end Sys2Proof.Machine
end

