-- ==== Sys2Proof/Laws/KeepsUnit.lean ====
section
/-! SUPPORT. What the Logbook, events, tasks, outputs, capture memory, channels, loads and unit states leave alone (Keeps): one lemma per operation. -/

set_option linter.unusedTactic false
set_option linter.unusedVariables false
set_option linter.unreachableTactic false

namespace Sys2Proof.Machine

variable {Q : List Instr} {C : List (Nat × Word) → Prop} {U : UnitSt → Prop} {B : Prop}

theorem setParam_keeps {s : State} {id : Nat} {w : Word} (hC : CfgClosed C) (h : Keeps Q C U B s) :
    Keeps Q C U B (setParam s id w) :=
  ⟨h.queue, hC.set _ _ _ h.config, h.unit, h.phase, h.log, h.events⟩

theorem append_bound {l : LogSt} {e : Entry} (h : l.entries.length ≤ 4096) : (l.append e).entries.length ≤ 4096 := by
  unfold LogSt.append
  dsimp only
  split
  · simp; omega
  · simp; omega

theorem writeWrap_bound {l : LogSt} {e : Entry} (h : l.entries.length ≤ 4096) : (l.writeWrap e).entries.length ≤ 4096 := by
  unfold LogSt.writeWrap
  dsimp only
  split
  · exact append_bound (append_bound h)
  · exact append_bound h

theorem writeStop_bound {l : LogSt} {e : Entry} (h : l.entries.length ≤ 4096) : (l.writeStop e).entries.length ≤ 4096 := by
  unfold LogSt.writeStop
  split
  · exact append_bound h
  · split
    · exact append_bound h
    · exact h

theorem logTag_keeps {s : State} {tg : BitVec 48 × BitVec 16} {origin : BitVec 16} {event subject : Nat} {old new : Word}
    (h : Keeps Q C U B s) : Keeps Q C U B (logTag s tg origin event subject old new) := by
  refine ⟨h.queue, h.config, h.unit, h.phase, fun hb => ?_, h.events⟩
  unfold logTag
  dsimp only
  split
  · exact writeStop_bound (h.log hb)
  · exact writeWrap_bound (h.log hb)

theorem logAt_keeps {s : State} {u : Nat} {origin : BitVec 16} {event : Nat} {subject : Nat} {old : Word} {new : Word}
    (hk : Keeps Q C U B s) :
    Keeps Q C U B (logAt s u origin event subject old new) := by
  unfold logAt
  repeat' first
    | with_reducible assumption
    | with_reducible apply logTag_keeps
    | fail_if_no_progress with_reducible refine Keeps.upd ?_ rfl rfl rfl rfl rfl rfl
    | extract_lets
    | dsimp only

theorem logE_keeps {s : State} {origin : BitVec 16} {event : Nat} {subject : Nat} {old : Word} {new : Word} (hk :
    Keeps Q C U B s) :
    Keeps Q C U B (logE s origin event subject old new) := by
  unfold logE
  repeat' first
    | with_reducible assumption
    | with_reducible apply logAt_keeps
    | fail_if_no_progress with_reducible refine Keeps.upd ?_ rfl rfl rfl rfl rfl rfl
    | extract_lets
    | dsimp only

theorem logFull_keeps {s : State} (h : Keeps Q C U B s) : Keeps Q C U B (logFull s) :=
  ⟨h.queue, h.config, h.unit, h.phase, fun b => append_bound (h.log b), h.events⟩

theorem queueEvent_keeps {s : State} {code : Nat} {data : List Byte} (h : Keeps Q C U B s) :
    Keeps Q C U B (queueEvent s code data) := by
  unfold queueEvent
  split
  · exact Keeps.upd h rfl rfl rfl rfl rfl rfl
  · next hn =>
    refine ⟨h.queue, h.config, h.unit, h.phase, h.log, fun _ => ?_⟩
    simp only [List.length_append, List.length_singleton]
    omega

theorem regWrite_keeps {s : State} {addr : Nat} {data : BitVec 16} (hk : Keeps Q C U B s) :
    Keeps Q C U B (regWrite s addr data) := by
  unfold regWrite
  repeat' first
    | with_reducible assumption
    | fail_if_no_progress with_reducible refine Keeps.upd ?_ rfl rfl rfl rfl rfl rfl
    | extract_lets
    | dsimp +zetaDelta only
    | dsimp only

theorem regSet_keeps {s : State} {addr : Nat} {hi : Nat} {lo : Nat} {v : Nat} (hk : Keeps Q C U B s) :
    Keeps Q C U B (regSet s addr hi lo v) := by
  unfold regSet
  repeat' first
    | with_reducible assumption
    | with_reducible apply regWrite_keeps
    | fail_if_no_progress with_reducible refine Keeps.upd ?_ rfl rfl rfl rfl rfl rfl
    | extract_lets
    | dsimp only

theorem biasSend_keeps {s : State} {k : Nat} {code : BitVec 14} (hk : Keeps Q C U B s) :
    Keeps Q C U B (biasSend s k code) := by
  unfold biasSend
  repeat' first
    | with_reducible assumption
    | with_reducible refine Keeps.ite ?_ (fun _ => ?_)
    | fail_if_no_progress with_reducible refine Keeps.upd ?_ rfl rfl rfl rfl rfl rfl
    | split
    | extract_lets
    | dsimp only

theorem modChain_keeps {s : State} {c : Nat} {f : Chain → Chain} (hk : Keeps Q C U B s) :
    Keeps Q C U B (modChain s c f) := by
  unfold modChain
  repeat' first
    | with_reducible assumption
    | fail_if_no_progress with_reducible refine Keeps.upd ?_ rfl rfl rfl rfl rfl rfl
    | extract_lets
    | dsimp only

theorem modFront_keeps {s : State} {n : Nat} {f : Front → Front} (hk : Keeps Q C U B s) :
    Keeps Q C U B (modFront s n f) := by
  unfold modFront
  repeat' first
    | with_reducible assumption
    | fail_if_no_progress with_reducible refine Keeps.upd ?_ rfl rfl rfl rfl rfl rfl
    | extract_lets
    | dsimp only

theorem modCell_keeps {s : State} {k : Nat} {f : Cell → Cell} (hk : Keeps Q C U B s) :
    Keeps Q C U B (modCell s k f) := by
  unfold modCell
  repeat' first
    | with_reducible assumption
    | fail_if_no_progress with_reducible refine Keeps.upd ?_ rfl rfl rfl rfl rfl rfl
    | extract_lets
    | dsimp only

theorem modMox_keeps {s : State} {n : Nat} {f : MoxSt → MoxSt} (hk : Keeps Q C U B s) :
    Keeps Q C U B (modMox s n f) := by
  unfold modMox
  repeat' first
    | with_reducible assumption
    | fail_if_no_progress with_reducible refine Keeps.upd ?_ rfl rfl rfl rfl rfl rfl
    | extract_lets
    | dsimp only

theorem modHtr_keeps {s : State} {n : Nat} {f : Heater → Heater} (hk : Keeps Q C U B s) :
    Keeps Q C U B (modHtr s n f) := by
  unfold modHtr
  repeat' first
    | with_reducible assumption
    | fail_if_no_progress with_reducible refine Keeps.upd ?_ rfl rfl rfl rfl rfl rfl
    | extract_lets
    | dsimp only

theorem modBrg_keeps {s : State} {b : Nat} {f : Bridge → Bridge} (hk : Keeps Q C U B s) :
    Keeps Q C U B (modBrg s b f) := by
  unfold modBrg
  repeat' first
    | with_reducible assumption
    | fail_if_no_progress with_reducible refine Keeps.upd ?_ rfl rfl rfl rfl rfl rfl
    | extract_lets
    | dsimp only

theorem modRule_keeps {s : State} {r : Nat} {f : AlarmRule → AlarmRule} (hk : Keeps Q C U B s) :
    Keeps Q C U B (modRule s r f) := by
  unfold modRule
  repeat' first
    | with_reducible assumption
    | fail_if_no_progress with_reducible refine Keeps.upd ?_ rfl rfl rfl rfl rfl rfl
    | extract_lets
    | dsimp only

theorem modPlay_keeps {s : State} {t : Nat} {f : Play → Play} (hk : Keeps Q C U B s) :
    Keeps Q C U B (modPlay s t f) := by
  unfold modPlay
  repeat' first
    | with_reducible assumption
    | fail_if_no_progress with_reducible refine Keeps.upd ?_ rfl rfl rfl rfl rfl rfl
    | extract_lets
    | dsimp only

theorem chainDue_keeps {s : State} {c : Nat} {u : Nat} {clear : Bool} (hk : Keeps Q C U B s) :
    Keeps Q C U B (chainDue s c u clear) := by
  unfold chainDue
  repeat' first
    | with_reducible assumption
    | with_reducible apply modChain_keeps
    | fail_if_no_progress with_reducible refine Keeps.upd ?_ rfl rfl rfl rfl rfl rfl
    | intro _ _ _
    | intro _ _
    | extract_lets
    | dsimp only

theorem settleFrom_keeps {s : State} {c : Nat} {ref : Nat} (hk : Keeps Q C U B s) :
    Keeps Q C U B (settleFrom s c ref) := by
  unfold settleFrom
  repeat' first
    | with_reducible assumption
    | with_reducible apply modChain_keeps
    | with_reducible refine Keeps.ite ?_ (fun _ => ?_)
    | fail_if_no_progress with_reducible refine Keeps.upd ?_ rfl rfl rfl rfl rfl rfl
    | intro _ _ _
    | intro _ _
    | split
    | extract_lets
    | dsimp only

theorem tallyAdd_keeps {s : State} {i : Nat} (hk : Keeps Q C U B s) :
    Keeps Q C U B (tallyAdd s i) := by
  unfold tallyAdd
  repeat' first
    | with_reducible assumption
    | fail_if_no_progress with_reducible refine Keeps.upd ?_ rfl rfl rfl rfl rfl rfl
    | intro _ _ _
    | intro _ _
    | extract_lets
    | dsimp only

theorem tallyLatch_keeps {s : State} {i : Nat} (hk : Keeps Q C U B s) :
    Keeps Q C U B (tallyLatch s i) := by
  unfold tallyLatch
  repeat' first
    | with_reducible assumption
    | with_reducible apply queueEvent_keeps
    | with_reducible apply logE_keeps
    | fail_if_no_progress with_reducible refine Keeps.upd ?_ rfl rfl rfl rfl rfl rfl
    | intro _ _ _
    | intro _ _
    | extract_lets
    | dsimp +zetaDelta only
    | dsimp only

theorem tallyEmpty_keeps {s : State} {i : Nat} (hk : Keeps Q C U B s) :
    Keeps Q C U B (tallyEmpty s i) := by
  unfold tallyEmpty
  repeat' first
    | with_reducible assumption
    | fail_if_no_progress with_reducible refine Keeps.upd ?_ rfl rfl rfl rfl rfl rfl
    | intro _ _ _
    | intro _ _
    | extract_lets
    | dsimp only

theorem taskAdd_keeps {s : State} {t : TaskRec} (hk : Keeps Q C U B s) :
    Keeps Q C U B (taskAdd s t) := by
  unfold taskAdd
  repeat' first
    | with_reducible assumption
    | with_reducible refine Keeps.ite ?_ (fun _ => ?_)
    | fail_if_no_progress with_reducible refine Keeps.upd ?_ rfl rfl rfl rfl rfl rfl
    | split
    | extract_lets
    | dsimp only

theorem taskNew_keeps {s : State} {opc : Nat} {cls : TaskClass} {origin : BitVec 16} {obj : TaskObj} (hk : Keeps Q C U
    B s) :
    Keeps Q C U B (taskNew s opc cls origin obj) := by
  unfold taskNew
  repeat' first
    | with_reducible assumption
    | with_reducible apply taskAdd_keeps
    | with_reducible refine Keeps.ite ?_ (fun _ => ?_)
    | fail_if_no_progress with_reducible refine Keeps.upd ?_ rfl rfl rfl rfl rfl rfl
    | split
    | extract_lets
    | dsimp only

theorem autoTask_keeps {s : State} {cls : TaskClass} {obj : TaskObj} (hk : Keeps Q C U B s) :
    Keeps Q C U B (autoTask s cls obj) := by
  unfold autoTask
  repeat' first
    | with_reducible assumption
    | with_reducible apply taskNew_keeps
    | with_reducible refine Keeps.ite ?_ (fun _ => ?_)
    | fail_if_no_progress with_reducible refine Keeps.upd ?_ rfl rfl rfl rfl rfl rfl
    | split
    | extract_lets
    | dsimp only

theorem taskMod_keeps {s : State} {n : Nat} {f : TaskRec → TaskRec} (hk : Keeps Q C U B s) :
    Keeps Q C U B (taskMod s n f) := by
  unfold taskMod
  repeat' first
    | with_reducible assumption
    | with_reducible refine Keeps.ite ?_ (fun _ => ?_)
    | fail_if_no_progress with_reducible refine Keeps.upd ?_ rfl rfl rfl rfl rfl rfl
    | intro _ _ _
    | intro _ _
    | split
    | extract_lets
    | dsimp only

theorem taskDone_keeps {s : State} {t : TaskRec} {status : Nat} {reason : Nat} {result : List Byte} (hk : Keeps Q C U
    B s) :
    Keeps Q C U B (taskDone s t status reason result) := by
  unfold taskDone
  repeat' first
    | with_reducible assumption
    | with_reducible apply queueEvent_keeps
    | fail_if_no_progress with_reducible refine Keeps.upd ?_ rfl rfl rfl rfl rfl rfl
    | extract_lets
    | dsimp only

theorem taskEndBy_keeps {origin : BitVec 16} {s : State} {n : Nat} {status : Nat} {reason : Nat} {result : List Byte}
    (hk : Keeps Q C U B s) :
    Keeps Q C U B (taskEndBy origin s n status reason result) := by
  unfold taskEndBy
  repeat' first
    | with_reducible assumption
    | with_reducible apply taskDone_keeps
    | with_reducible apply logE_keeps
    | fail_if_no_progress with_reducible refine Keeps.upd ?_ rfl rfl rfl rfl rfl rfl
    | intro _ _ _
    | intro _ _
    | split
    | extract_lets
    | dsimp +zetaDelta only
    | dsimp only

theorem taskEnd_keeps {s : State} {n : Nat} {status : Nat} {reason : Nat} {result : List Byte} (hk : Keeps Q C U B s)
    :
    Keeps Q C U B (taskEnd s n status reason result) := by
  unfold taskEnd
  repeat' first
    | with_reducible assumption
    | with_reducible apply taskEndBy_keeps
    | fail_if_no_progress with_reducible refine Keeps.upd ?_ rfl rfl rfl rfl rfl rfl
    | extract_lets
    | dsimp only

theorem autoSeal_keeps {s : State} {b : Nat} (hk : Keeps Q C U B s) :
    Keeps Q C U B (autoSeal s b) := by
  unfold autoSeal
  repeat' first
    | with_reducible assumption
    | with_reducible apply autoTask_keeps
    | with_reducible refine Keeps.ite ?_ (fun _ => ?_)
    | fail_if_no_progress with_reducible refine Keeps.upd ?_ rfl rfl rfl rfl rfl rfl
    | split
    | extract_lets
    | dsimp only

theorem twinSend_keeps {s : State} {type : Nat} {payload : List Byte} (hk : Keeps Q C U B s) :
    Keeps Q C U B (twinSend s type payload) := by
  unfold twinSend
  repeat' first
    | with_reducible assumption
    | fail_if_no_progress with_reducible refine Keeps.upd ?_ rfl rfl rfl rfl rfl rfl
    | extract_lets
    | dsimp only

theorem alarmEvent_keeps {s : State} {r : Nat} {was : AlarmSt} {next : AlarmSt} {value : Word} (hk : Keeps Q C U B s)
    :
    Keeps Q C U B (alarmEvent s r was next value) := by
  unfold alarmEvent
  repeat' first
    | with_reducible assumption
    | with_reducible apply queueEvent_keeps
    | with_reducible refine Keeps.ite ?_ (fun _ => ?_)
    | fail_if_no_progress with_reducible refine Keeps.upd ?_ rfl rfl rfl rfl rfl rfl
    | split
    | extract_lets
    | dsimp +zetaDelta only
    | dsimp only

theorem pairTo_keeps {s : State} {r : Nat} {next : AlarmSt} {value : Word} (hk : Keeps Q C U B s) :
    Keeps Q C U B (pairTo s r next value) := by
  unfold pairTo
  repeat' first
    | with_reducible assumption
    | with_reducible apply alarmEvent_keeps
    | with_reducible apply logE_keeps
    | fail_if_no_progress with_reducible refine Keeps.upd ?_ rfl rfl rfl rfl rfl rfl
    | extract_lets
    | dsimp +zetaDelta only
    | dsimp only

theorem pairVote_keeps {s : State} {r : Nat} {value : Word} (hk : Keeps Q C U B s) :
    Keeps Q C U B (pairVote s r value) := by
  unfold pairVote
  repeat' first
    | with_reducible assumption
    | with_reducible apply pairTo_keeps
    | with_reducible refine Keeps.ite ?_ (fun _ => ?_)
    | fail_if_no_progress with_reducible refine Keeps.upd ?_ rfl rfl rfl rfl rfl rfl
    | split
    | extract_lets
    | dsimp +zetaDelta only
    | dsimp only

theorem alarmTo_keeps {s : State} {r : Nat} {next : AlarmSt} {origin : BitVec 16} {value : Word} (hk : Keeps Q C U B
    s) :
    Keeps Q C U B (alarmTo s r next origin value) := by
  unfold alarmTo
  repeat' first
    | with_reducible assumption
    | with_reducible apply modRule_keeps
    | with_reducible apply twinSend_keeps
    | with_reducible apply logE_keeps
    | with_reducible apply pairVote_keeps
    | with_reducible apply alarmEvent_keeps
    | with_reducible refine Keeps.ite ?_ (fun _ => ?_)
    | fail_if_no_progress with_reducible refine Keeps.upd ?_ rfl rfl rfl rfl rfl rfl
    | intro _ _ _
    | intro _ _
    | split
    | extract_lets
    | dsimp +zetaDelta only
    | dsimp only

theorem alarmLeave_keeps {s : State} {r : Nat} {origin : BitVec 16} {value : Word} (hk : Keeps Q C U B s) :
    Keeps Q C U B (alarmLeave s r origin value) := by
  unfold alarmLeave
  repeat' first
    | with_reducible assumption
    | with_reducible apply alarmTo_keeps
    | with_reducible refine Keeps.ite ?_ (fun _ => ?_)
    | fail_if_no_progress with_reducible refine Keeps.upd ?_ rfl rfl rfl rfl rfl rfl
    | split
    | extract_lets
    | dsimp only

theorem pairOff_keeps {s : State} {r : Nat} {origin : BitVec 16} (hk : Keeps Q C U B s) :
    Keeps Q C U B (pairOff s r origin) := by
  unfold pairOff
  repeat' first
    | with_reducible assumption
    | with_reducible apply alarmEvent_keeps
    | with_reducible apply logE_keeps
    | with_reducible refine Keeps.ite ?_ (fun _ => ?_)
    | fail_if_no_progress with_reducible refine Keeps.upd ?_ rfl rfl rfl rfl rfl rfl
    | split
    | extract_lets
    | dsimp +zetaDelta only
    | dsimp only

theorem ruleOff_keeps {s : State} {r : Nat} {origin : BitVec 16} (hk : Keeps Q C U B s) :
    Keeps Q C U B (ruleOff s r origin) := by
  unfold ruleOff
  repeat' first
    | with_reducible assumption
    | with_reducible apply alarmTo_keeps
    | with_reducible apply pairOff_keeps
    | with_reducible apply alarmEvent_keeps
    | with_reducible refine Keeps.ite ?_ (fun _ => ?_)
    | fail_if_no_progress with_reducible refine Keeps.upd ?_ rfl rfl rfl rfl rfl rfl
    | split
    | extract_lets
    | dsimp +zetaDelta only
    | dsimp only

theorem biasTo_keeps {s : State} {k : Nat} {c : BitVec 14} (hk : Keeps Q C U B s) :
    Keeps Q C U B (biasTo s k c) := by
  unfold biasTo
  repeat' first
    | with_reducible assumption
    | with_reducible apply biasSend_keeps
    | with_reducible refine Keeps.ite ?_ (fun _ => ?_)
    | fail_if_no_progress with_reducible refine Keeps.upd ?_ rfl rfl rfl rfl rfl rfl
    | split
    | extract_lets
    | dsimp only

theorem rampStart_keeps {s : State} {k : Nat} (hk : Keeps Q C U B s) :
    Keeps Q C U B (rampStart s k) := by
  unfold rampStart
  repeat' first
    | with_reducible assumption
    | with_reducible apply modCell_keeps
    | fail_if_no_progress with_reducible refine Keeps.upd ?_ rfl rfl rfl rfl rfl rfl
    | intro _ _ _
    | intro _ _
    | extract_lets
    | dsimp only

theorem rampCatch_keeps {s : State} {k : Nat} (hk : Keeps Q C U B s) :
    Keeps Q C U B (rampCatch s k) := by
  unfold rampCatch
  repeat' first
    | with_reducible assumption
    | with_reducible apply modCell_keeps
    | with_reducible refine Keeps.ite ?_ (fun _ => ?_)
    | fail_if_no_progress with_reducible refine Keeps.upd ?_ rfl rfl rfl rfl rfl rfl
    | intro _ _ _
    | intro _ _
    | split
    | extract_lets
    | dsimp +zetaDelta only
    | dsimp only

theorem playEnd_keeps {s : State} {t : Nat} {origin : BitVec 16} {closing : Bool} (hk : Keeps Q C U B s) :
    Keeps Q C U B (playEnd s t origin closing) := by
  unfold playEnd
  repeat' first
    | with_reducible assumption
    | with_reducible apply logE_keeps
    | with_reducible apply modPlay_keeps
    | with_reducible apply modCell_keeps
    | with_reducible apply rampStart_keeps
    | with_reducible refine Keeps.ite ?_ (fun _ => ?_)
    | fail_if_no_progress with_reducible refine Keeps.upd ?_ rfl rfl rfl rfl rfl rfl
    | intro _ _ _
    | intro _ _
    | split
    | extract_lets
    | dsimp +zetaDelta only
    | dsimp only

theorem playEndAll_keeps {s : State} (hk : Keeps Q C U B s) :
    Keeps Q C U B (playEndAll s) := by
  unfold playEndAll
  repeat' first
    | with_reducible assumption
    | with_reducible apply forEach_keeps
    | with_reducible apply playEnd_keeps
    | with_reducible refine forEach_keeps ?_ (fun _ _ _ => ?_)
    | fail_if_no_progress with_reducible refine Keeps.upd ?_ rfl rfl rfl rfl rfl rfl
    | intro _ _ _
    | intro _ _
    | extract_lets
    | dsimp only

theorem aoutOff_keeps {s : State} {origin : BitVec 16} {write : Bool} (hk : Keeps Q C U B s) :
    Keeps Q C U B (aoutOff s origin write) := by
  unfold aoutOff
  repeat' first
    | with_reducible assumption
    | with_reducible apply regSet_keeps
    | with_reducible apply logE_keeps
    | with_reducible apply playEnd_keeps
    | with_reducible refine Keeps.ite ?_ (fun _ => ?_)
    | fail_if_no_progress with_reducible refine Keeps.upd ?_ rfl rfl rfl rfl rfl rfl
    | split
    | extract_lets
    | dsimp +zetaDelta only
    | dsimp only

theorem neighbourOpen_keeps {s : State} {n : Nat} {first : Nat} (hk : Keeps Q C U B s) :
    Keeps Q C U B (neighbourOpen s n first) := by
  unfold neighbourOpen
  repeat' first
    | with_reducible assumption
    | with_reducible apply modFront_keeps
    | with_reducible apply forEach_keeps
    | with_reducible apply modChain_keeps
    | with_reducible refine forEach_keeps ?_ (fun _ _ _ => ?_)
    | with_reducible refine Keeps.ite ?_ (fun _ => ?_)
    | fail_if_no_progress with_reducible refine Keeps.upd ?_ rfl rfl rfl rfl rfl rfl
    | intro _ _ _
    | intro _ _
    | split
    | extract_lets
    | dsimp +zetaDelta only
    | dsimp only

theorem neighbourClose_keeps {s : State} {n : Nat} {clear : Nat} (hk : Keeps Q C U B s) :
    Keeps Q C U B (neighbourClose s n clear) := by
  unfold neighbourClose
  repeat' first
    | with_reducible assumption
    | with_reducible apply modFront_keeps
    | with_reducible apply forEach_keeps
    | with_reducible apply modChain_keeps
    | with_reducible refine forEach_keeps ?_ (fun _ _ _ => ?_)
    | with_reducible refine Keeps.ite ?_ (fun _ => ?_)
    | fail_if_no_progress with_reducible refine Keeps.upd ?_ rfl rfl rfl rfl rfl rfl
    | intro _ _ _
    | intro _ _
    | split
    | extract_lets
    | dsimp +zetaDelta only
    | dsimp only

theorem satEnd_keeps {s : State} {n : Nat} {c : Nat} (hk : Keeps Q C U B s) :
    Keeps Q C U B (satEnd s n c) := by
  unfold satEnd
  repeat' first
    | with_reducible assumption
    | with_reducible apply modFront_keeps
    | with_reducible apply neighbourClose_keeps
    | with_reducible apply modChain_keeps
    | with_reducible refine Keeps.ite ?_ (fun _ => ?_)
    | fail_if_no_progress with_reducible refine Keeps.upd ?_ rfl rfl rfl rfl rfl rfl
    | intro _ _ _
    | intro _ _
    | split
    | extract_lets
    | dsimp +zetaDelta only
    | dsimp only

theorem boundEnd_keeps {s : State} {n : Nat} (hk : Keeps Q C U B s) :
    Keeps Q C U B (boundEnd s n) := by
  unfold boundEnd
  repeat' first
    | with_reducible assumption
    | with_reducible apply modFront_keeps
    | with_reducible apply logE_keeps
    | with_reducible apply modChain_keeps
    | with_reducible refine Keeps.ite ?_ (fun _ => ?_)
    | fail_if_no_progress with_reducible refine Keeps.upd ?_ rfl rfl rfl rfl rfl rfl
    | intro _ _ _
    | intro _ _
    | split
    | extract_lets
    | dsimp +zetaDelta only
    | dsimp only

theorem cellAmpField_keeps {s : State} {k : Nat} {hi : Nat} {lo : Nat} {v : Nat} (hk : Keeps Q C U B s) :
    Keeps Q C U B (cellAmpField s k hi lo v) := by
  unfold cellAmpField
  repeat' first
    | with_reducible assumption
    | with_reducible apply forEach_keeps
    | with_reducible apply regSet_keeps
    | with_reducible refine forEach_keeps ?_ (fun _ _ _ => ?_)
    | fail_if_no_progress with_reducible refine Keeps.upd ?_ rfl rfl rfl rfl rfl rfl
    | intro _ _ _
    | intro _ _
    | extract_lets
    | dsimp only

theorem cellFrontsOn_keeps {s : State} {k : Nat} (hk : Keeps Q C U B s) :
    Keeps Q C U B (cellFrontsOn s k) := by
  unfold cellFrontsOn
  repeat' first
    | with_reducible assumption
    | with_reducible apply forEach_keeps
    | with_reducible apply modFront_keeps
    | with_reducible apply regWrite_keeps
    | with_reducible refine forEach_keeps ?_ (fun _ _ _ => ?_)
    | fail_if_no_progress with_reducible refine Keeps.upd ?_ rfl rfl rfl rfl rfl rfl
    | intro _ _ _
    | intro _ _
    | extract_lets
    | dsimp +zetaDelta only
    | dsimp only

theorem cellHold_keeps {s : State} {k : Nat} (hk : Keeps Q C U B s) :
    Keeps Q C U B (cellHold s k) := by
  unfold cellHold
  repeat' first
    | with_reducible assumption
    | with_reducible apply forEach_keeps
    | with_reducible apply cellAmpField_keeps
    | with_reducible apply boundEnd_keeps
    | with_reducible apply satEnd_keeps
    | with_reducible apply modFront_keeps
    | with_reducible apply modChain_keeps
    | with_reducible refine forEach_keeps ?_ (fun _ _ _ => ?_)
    | fail_if_no_progress with_reducible refine Keeps.upd ?_ rfl rfl rfl rfl rfl rfl
    | intro _ _ _
    | intro _ _
    | extract_lets
    | dsimp +zetaDelta only
    | dsimp only

theorem cellEnable_keeps {s : State} {k : Nat} {task : Nat} {origin : BitVec 16} (hk : Keeps Q C U B s) :
    Keeps Q C U B (cellEnable s k task origin) := by
  unfold cellEnable
  repeat' first
    | with_reducible assumption
    | with_reducible apply logE_keeps
    | with_reducible apply modCell_keeps
    | with_reducible apply cellFrontsOn_keeps
    | with_reducible apply biasTo_keeps
    | fail_if_no_progress with_reducible refine Keeps.upd ?_ rfl rfl rfl rfl rfl rfl
    | intro _ _ _
    | intro _ _
    | extract_lets
    | dsimp +zetaDelta only
    | dsimp only

theorem rampOver_keeps {s : State} {k : Nat} (hk : Keeps Q C U B s) :
    Keeps Q C U B (rampOver s k) := by
  unfold rampOver
  repeat' first
    | with_reducible assumption
    | with_reducible apply modCell_keeps
    | with_reducible apply taskEnd_keeps
    | with_reducible refine Keeps.ite ?_ (fun _ => ?_)
    | fail_if_no_progress with_reducible refine Keeps.upd ?_ rfl rfl rfl rfl rfl rfl
    | intro _ _ _
    | intro _ _
    | split
    | extract_lets
    | dsimp +zetaDelta only
    | dsimp only

theorem cellEnableStep_keeps {s : State} {k : Nat} (hk : Keeps Q C U B s) :
    Keeps Q C U B (cellEnableStep s k) := by
  unfold cellEnableStep
  repeat' first
    | with_reducible assumption
    | with_reducible apply modCell_keeps
    | with_reducible apply regSet_keeps
    | with_reducible apply forEach_keeps
    | with_reducible apply modChain_keeps
    | with_reducible apply modFront_keeps
    | with_reducible apply settleFrom_keeps
    | with_reducible apply rampStart_keeps
    | with_reducible apply rampOver_keeps
    | with_reducible refine forEach_keeps ?_ (fun _ _ _ => ?_)
    | with_reducible refine Keeps.ite ?_ (fun _ => ?_)
    | fail_if_no_progress with_reducible refine Keeps.upd ?_ rfl rfl rfl rfl rfl rfl
    | intro _ _ _
    | intro _ _
    | split
    | extract_lets
    | dsimp +zetaDelta only
    | dsimp only

theorem cellShorted_keeps {s : State} {k : Nat} (hk : Keeps Q C U B s) :
    Keeps Q C U B (cellShorted s k) := by
  unfold cellShorted
  repeat' first
    | with_reducible assumption
    | with_reducible apply forEach_keeps
    | with_reducible apply cellAmpField_keeps
    | with_reducible apply modFront_keeps
    | with_reducible apply biasTo_keeps
    | with_reducible apply modCell_keeps
    | with_reducible apply taskEnd_keeps
    | with_reducible refine forEach_keeps ?_ (fun _ _ _ => ?_)
    | fail_if_no_progress with_reducible refine Keeps.upd ?_ rfl rfl rfl rfl rfl rfl
    | intro _ _ _
    | intro _ _
    | extract_lets
    | dsimp +zetaDelta only
    | dsimp only

theorem cellDisableStep_keeps {s : State} {k : Nat} (hk : Keeps Q C U B s) :
    Keeps Q C U B (cellDisableStep s k) := by
  unfold cellDisableStep
  repeat' first
    | with_reducible assumption
    | with_reducible apply modCell_keeps
    | with_reducible apply cellHold_keeps
    | with_reducible apply regSet_keeps
    | with_reducible apply cellShorted_keeps
    | with_reducible refine Keeps.ite ?_ (fun _ => ?_)
    | fail_if_no_progress with_reducible refine Keeps.upd ?_ rfl rfl rfl rfl rfl rfl
    | intro _ _ _
    | intro _ _
    | split
    | extract_lets
    | dsimp +zetaDelta only
    | dsimp only

theorem cellClose_keeps {s : State} {k : Nat} {task : Nat} {origin : BitVec 16} {ramp : Bool} (hk : Keeps Q C U B s) :
    Keeps Q C U B (cellClose s k task origin ramp) := by
  unfold cellClose
  repeat' first
    | with_reducible assumption
    | with_reducible apply playEnd_keeps
    | with_reducible apply rampCatch_keeps
    | with_reducible apply logE_keeps
    | with_reducible apply modCell_keeps
    | with_reducible apply forEach_keeps
    | with_reducible apply boundEnd_keeps
    | with_reducible apply rampStart_keeps
    | with_reducible apply cellDisableStep_keeps
    | with_reducible refine forEach_keeps ?_ (fun _ _ _ => ?_)
    | with_reducible refine Keeps.ite ?_ (fun _ => ?_)
    | fail_if_no_progress with_reducible refine Keeps.upd ?_ rfl rfl rfl rfl rfl rfl
    | intro _ _ _
    | intro _ _
    | split
    | extract_lets
    | dsimp +zetaDelta only
    | dsimp only

theorem cellRampStep_keeps {s : State} {k : Nat} (hk : Keeps Q C U B s) :
    Keeps Q C U B (cellRampStep s k) := by
  unfold cellRampStep
  repeat' first
    | with_reducible assumption
    | with_reducible apply biasTo_keeps
    | with_reducible apply modCell_keeps
    | with_reducible apply rampOver_keeps
    | with_reducible refine Keeps.ite ?_ (fun _ => ?_)
    | fail_if_no_progress with_reducible refine Keeps.upd ?_ rfl rfl rfl rfl rfl rfl
    | intro _ _ _
    | intro _ _
    | split
    | extract_lets
    | dsimp +zetaDelta only
    | dsimp only

theorem cellToIdle_keeps {s : State} {k : Nat} (hk : Keeps Q C U B s) :
    Keeps Q C U B (cellToIdle s k) := by
  unfold cellToIdle
  repeat' first
    | with_reducible assumption
    | with_reducible apply taskEnd_keeps
    | with_reducible apply cellClose_keeps
    | with_reducible refine Keeps.ite ?_ (fun _ => ?_)
    | fail_if_no_progress with_reducible refine Keeps.upd ?_ rfl rfl rfl rfl rfl rfl
    | split
    | extract_lets
    | dsimp +zetaDelta only
    | dsimp only

theorem cellToSafe_keeps {s : State} {k : Nat} (hk : Keeps Q C U B s) :
    Keeps Q C U B (cellToSafe s k) := by
  unfold cellToSafe
  repeat' first
    | with_reducible assumption
    | with_reducible apply modCell_keeps
    | with_reducible apply taskEnd_keeps
    | with_reducible apply cellClose_keeps
    | with_reducible apply cellDisableStep_keeps
    | with_reducible refine Keeps.ite ?_ (fun _ => ?_)
    | fail_if_no_progress with_reducible refine Keeps.upd ?_ rfl rfl rfl rfl rfl rfl
    | intro _ _ _
    | intro _ _
    | split
    | extract_lets
    | dsimp +zetaDelta only
    | dsimp only

theorem capPush_keeps {s : State} {w : BitVec 64} {at_ : Nat} (hk : Keeps Q C U B s) :
    Keeps Q C U B (capPush s w at_) := by
  unfold capPush
  repeat' first
    | with_reducible assumption
    | with_reducible refine Keeps.ite ?_ (fun _ => ?_)
    | fail_if_no_progress with_reducible refine Keeps.upd ?_ rfl rfl rfl rfl rfl rfl
    | split
    | extract_lets
    | dsimp +zetaDelta only
    | dsimp only

theorem capStore_keeps {s : State} {r : FifoRec} (hk : Keeps Q C U B s) :
    Keeps Q C U B (capStore s r) := by
  unfold capStore
  repeat' first
    | with_reducible assumption
    | with_reducible refine Keeps.ite ?_ (fun _ => ?_)
    | fail_if_no_progress with_reducible refine Keeps.upd ?_ rfl rfl rfl rfl rfl rfl
    | split
    | extract_lets
    | dsimp +zetaDelta only
    | dsimp only

theorem capFollow_keeps {s : State} (hk : Keeps Q C U B s) :
    Keeps Q C U B (capFollow s) := by
  unfold capFollow
  repeat' first
    | with_reducible assumption
    | with_reducible apply capStore_keeps
    | with_reducible refine foldl_keeps ?_ (fun _ _ _ => ?_)
    | with_reducible refine foldl1_keeps ?_ (fun _ _ _ => ?_)
    | fail_if_no_progress with_reducible refine Keeps.upd ?_ rfl rfl rfl rfl rfl rfl
    | intro _ _ _
    | intro _ _
    | extract_lets
    | dsimp +zetaDelta only
    | dsimp only

theorem capOutside_keeps {s : State} {w : BitVec 64} {at_ : Nat} (hk : Keeps Q C U B s) :
    Keeps Q C U B (capOutside s w at_) := by
  unfold capOutside
  repeat' first
    | with_reducible assumption
    | with_reducible apply capFollow_keeps
    | fail_if_no_progress with_reducible refine Keeps.upd ?_ rfl rfl rfl rfl rfl rfl
    | extract_lets
    | dsimp +zetaDelta only
    | dsimp only

theorem capTime_keeps {s : State} {u : Nat} {reason : Nat} (hk : Keeps Q C U B s) :
    Keeps Q C U B (capTime s u reason) := by
  unfold capTime
  repeat' first
    | with_reducible assumption
    | with_reducible apply capPush_keeps
    | fail_if_no_progress with_reducible refine Keeps.upd ?_ rfl rfl rfl rfl rfl rfl
    | extract_lets
    | dsimp +zetaDelta only
    | dsimp only

theorem capOpen_keeps {s : State} {armId : BitVec 16} (hk : Keeps Q C U B s) :
    Keeps Q C U B (capOpen s armId) := by
  unfold capOpen
  repeat' first
    | with_reducible assumption
    | with_reducible apply capPush_keeps
    | with_reducible apply capTime_keeps
    | with_reducible refine Keeps.ite ?_ (fun _ => ?_)
    | fail_if_no_progress with_reducible refine Keeps.upd ?_ rfl rfl rfl rfl rfl rfl
    | split
    | extract_lets
    | dsimp +zetaDelta only
    | dsimp only

theorem capClose_keeps {s : State} {status : Nat} {origin : BitVec 16} (hk : Keeps Q C U B s) :
    Keeps Q C U B (capClose s status origin) := by
  unfold capClose
  repeat' first
    | with_reducible assumption
    | with_reducible apply capOutside_keeps
    | with_reducible apply logE_keeps
    | with_reducible refine Keeps.ite ?_ (fun _ => ?_)
    | fail_if_no_progress with_reducible refine Keeps.upd ?_ rfl rfl rfl rfl rfl rfl
    | split
    | extract_lets
    | dsimp +zetaDelta only
    | dsimp only

theorem capStop_keeps {s : State} (hk : Keeps Q C U B s) :
    Keeps Q C U B (capStop s) := by
  unfold capStop
  repeat' first
    | with_reducible assumption
    | with_reducible apply capClose_keeps
    | with_reducible refine Keeps.ite ?_ (fun _ => ?_)
    | fail_if_no_progress with_reducible refine Keeps.upd ?_ rfl rfl rfl rfl rfl rfl
    | split
    | extract_lets
    | dsimp only

theorem capPreDepth_keeps {s : State} {tick : BitVec 48} (hk : Keeps Q C U B s) :
    Keeps Q C U B (capPreDepth s tick) := by
  unfold capPreDepth
  repeat' first
    | with_reducible assumption
    | fail_if_no_progress with_reducible refine Keeps.upd ?_ rfl rfl rfl rfl rfl rfl
    | split
    | extract_lets
    | dsimp +zetaDelta only
    | dsimp only

theorem capFireWords_keeps {s : State} {tick : BitVec 48} {frac : Byte} {late : Bool} {own : Bool} (hk : Keeps Q C U B
    s) :
    Keeps Q C U B (capFireWords s tick frac late own) := by
  unfold capFireWords
  repeat' first
    | with_reducible assumption
    | with_reducible apply capPush_keeps
    | fail_if_no_progress with_reducible refine Keeps.upd ?_ rfl rfl rfl rfl rfl rfl
    | extract_lets
    | dsimp only

theorem capFire_keeps {s : State} {k : BitVec 56} (hk : Keeps Q C U B s) :
    Keeps Q C U B (capFire s k) := by
  unfold capFire
  repeat' first
    | with_reducible assumption
    | with_reducible apply capFireWords_keeps
    | with_reducible apply capClose_keeps
    | with_reducible apply capPreDepth_keeps
    | with_reducible refine Keeps.ite ?_ (fun _ => ?_)
    | fail_if_no_progress with_reducible refine Keeps.upd ?_ rfl rfl rfl rfl rfl rfl
    | split
    | extract_lets
    | dsimp +zetaDelta only
    | dsimp only

theorem capTrigger_keeps {s : State} {g : Trigger} (hk : Keeps Q C U B s) :
    Keeps Q C U B (capTrigger s g) := by
  unfold capTrigger
  repeat' first
    | with_reducible assumption
    | with_reducible apply capPush_keeps
    | with_reducible apply capPreDepth_keeps
    | with_reducible apply capClose_keeps
    | with_reducible refine Keeps.ite ?_ (fun _ => ?_)
    | fail_if_no_progress with_reducible refine Keeps.upd ?_ rfl rfl rfl rfl rfl rfl
    | split
    | extract_lets
    | dsimp +zetaDelta only
    | dsimp only

theorem coincAdd_keeps {s : State} {m : BitVec 16} (hk : Keeps Q C U B s) :
    Keeps Q C U B (coincAdd s m) := by
  unfold coincAdd
  repeat' first
    | with_reducible assumption
    | with_reducible refine Keeps.ite ?_ (fun _ => ?_)
    | fail_if_no_progress with_reducible refine Keeps.upd ?_ rfl rfl rfl rfl rfl rfl
    | intro _ _ _
    | intro _ _
    | split
    | extract_lets
    | dsimp +zetaDelta only
    | dsimp only

theorem firePend_keeps {s : State} {k : BitVec 56} (hk : Keeps Q C U B s) :
    Keeps Q C U B (firePend s k) := by
  unfold firePend
  repeat' first
    | with_reducible assumption
    | with_reducible refine Keeps.ite ?_ (fun _ => ?_)
    | fail_if_no_progress with_reducible refine Keeps.upd ?_ rfl rfl rfl rfl rfl rfl
    | split
    | extract_lets
    | dsimp only

theorem tripTake_keeps {s : State} {source : Nat} {type : Nat} {rule : Nat} {ch : Nat} {blk : Bool} {era : BitVec 16}
    {tick : BitVec 48} {frac : Byte} {coinc : BitVec 16} (hk : Keeps Q C U B s) :
    Keeps Q C U B (tripTake s source type rule ch blk era tick frac coinc) := by
  unfold tripTake
  repeat' first
    | with_reducible assumption
    | with_reducible apply logE_keeps
    | with_reducible apply capFire_keeps
    | with_reducible apply capTrigger_keeps
    | with_reducible apply firePend_keeps
    | with_reducible apply twinSend_keeps
    | with_reducible refine Keeps.ite ?_ (fun _ => ?_)
    | fail_if_no_progress with_reducible refine Keeps.upd ?_ rfl rfl rfl rfl rfl rfl
    | intro _ _ _
    | intro _ _
    | split
    | extract_lets
    | dsimp +zetaDelta only
    | dsimp only

theorem tripMiss_keeps {s : State} {m : BitVec 16} (hk : Keeps Q C U B s) :
    Keeps Q C U B (tripMiss s m) := by
  unfold tripMiss
  repeat' first
    | with_reducible assumption
    | with_reducible apply coincAdd_keeps
    | with_reducible refine Keeps.ite ?_ (fun _ => ?_)
    | fail_if_no_progress with_reducible refine Keeps.upd ?_ rfl rfl rfl rfl rfl rfl
    | split
    | extract_lets
    | dsimp only

theorem slotEntries_keeps {s : State} {old : TripSt} {origin : BitVec 16} (hk : Keeps Q C U B s) :
    Keeps Q C U B (slotEntries s old origin) := by
  unfold slotEntries
  repeat' first
    | with_reducible assumption
    | with_reducible apply forEach_keeps
    | with_reducible apply logE_keeps
    | with_reducible refine forEach_keeps ?_ (fun _ _ _ => ?_)
    | with_reducible refine Keeps.ite ?_ (fun _ => ?_)
    | fail_if_no_progress with_reducible refine Keeps.upd ?_ rfl rfl rfl rfl rfl rfl
    | intro _ _ _
    | intro _ _
    | split
    | extract_lets
    | dsimp only

theorem tripRearm_keeps {s : State} {origin : BitVec 16} (hk : Keeps Q C U B s) :
    Keeps Q C U B (tripRearm s origin) := by
  unfold tripRearm
  repeat' first
    | with_reducible assumption
    | with_reducible apply logE_keeps
    | with_reducible refine Keeps.ite ?_ (fun _ => ?_)
    | fail_if_no_progress with_reducible refine Keeps.upd ?_ rfl rfl rfl rfl rfl rfl
    | split
    | extract_lets
    | dsimp +zetaDelta only
    | dsimp only

theorem tripSlots_keeps {s : State} {mask : BitVec 8} {armId : BitVec 16} {origin : BitVec 16} (hk : Keeps Q C U B s)
    :
    Keeps Q C U B (tripSlots s mask armId origin) := by
  unfold tripSlots
  repeat' first
    | with_reducible assumption
    | with_reducible apply slotEntries_keeps
    | fail_if_no_progress with_reducible refine Keeps.upd ?_ rfl rfl rfl rfl rfl rfl
    | extract_lets
    | dsimp only

theorem tripOpen_keeps {s : State} {armId : BitVec 16} (hk : Keeps Q C U B s) :
    Keeps Q C U B (tripOpen s armId) := by
  unfold tripOpen
  repeat' first
    | with_reducible assumption
    | with_reducible apply capOpen_keeps
    | with_reducible refine Keeps.ite ?_ (fun _ => ?_)
    | fail_if_no_progress with_reducible refine Keeps.upd ?_ rfl rfl rfl rfl rfl rfl
    | split
    | extract_lets
    | dsimp +zetaDelta only
    | dsimp only

theorem tripArm_keeps {s : State} {mask : BitVec 8} {armId : BitVec 16} {origin : BitVec 16} (hk : Keeps Q C U B s) :
    Keeps Q C U B (tripArm s mask armId origin) := by
  unfold tripArm
  repeat' first
    | with_reducible assumption
    | with_reducible apply tripOpen_keeps
    | with_reducible apply tripRearm_keeps
    | with_reducible apply tripSlots_keeps
    | fail_if_no_progress with_reducible refine Keeps.upd ?_ rfl rfl rfl rfl rfl rfl
    | extract_lets
    | dsimp only

theorem tripDisarm_keeps {s : State} {mask : BitVec 8} {origin : BitVec 16} (hk : Keeps Q C U B s) :
    Keeps Q C U B (tripDisarm s mask origin) := by
  unfold tripDisarm
  repeat' first
    | with_reducible assumption
    | with_reducible apply slotEntries_keeps
    | with_reducible apply capClose_keeps
    | with_reducible refine Keeps.ite ?_ (fun _ => ?_)
    | fail_if_no_progress with_reducible refine Keeps.upd ?_ rfl rfl rfl rfl rfl rfl
    | split
    | extract_lets
    | dsimp +zetaDelta only
    | dsimp only

theorem regReplace_keeps {s : State} {addr : Nat} {data : BitVec 16} (hk : Keeps Q C U B s) :
    Keeps Q C U B (regReplace s addr data) := by
  unfold regReplace
  repeat' first
    | with_reducible assumption
    | with_reducible apply regWrite_keeps
    | fail_if_no_progress with_reducible refine Keeps.upd ?_ rfl rfl rfl rfl rfl rfl
    | intro _ _ _
    | intro _ _
    | extract_lets
    | dsimp +zetaDelta only
    | dsimp only

theorem rangeAsk_keeps {s : State} {n : Nat} {rg : Nat} {origin : BitVec 16} {auto : Bool} {reset : Bool} (hk : Keeps
    Q C U B s) :
    Keeps Q C U B (rangeAsk s n rg origin auto reset) := by
  unfold rangeAsk
  repeat' first
    | with_reducible assumption
    | with_reducible apply modFront_keeps
    | with_reducible apply regReplace_keeps
    | with_reducible refine Keeps.ite ?_ (fun _ => ?_)
    | fail_if_no_progress with_reducible refine Keeps.upd ?_ rfl rfl rfl rfl rfl rfl
    | intro _ _ _
    | intro _ _
    | split
    | extract_lets
    | dsimp +zetaDelta only
    | dsimp only

theorem dcForget_keeps {s : State} {c : Nat} (hk : Keeps Q C U B s) :
    Keeps Q C U B (dcForget s c) := by
  unfold dcForget
  repeat' first
    | with_reducible assumption
    | with_reducible apply modChain_keeps
    | with_reducible refine Keeps.ite ?_ (fun _ => ?_)
    | fail_if_no_progress with_reducible refine Keeps.upd ?_ rfl rfl rfl rfl rfl rfl
    | intro _ _ _
    | intro _ _
    | split
    | extract_lets
    | dsimp only

theorem startApplied_keeps {s : State} {n : Nat} {rg : Nat} {e : Nat} (hk : Keeps Q C U B s) :
    Keeps Q C U B (startApplied s n rg e) := by
  unfold startApplied
  repeat' first
    | with_reducible assumption
    | with_reducible apply modFront_keeps
    | with_reducible apply modChain_keeps
    | with_reducible apply settleFrom_keeps
    | with_reducible apply rangeAsk_keeps
    | with_reducible refine Keeps.ite ?_ (fun _ => ?_)
    | fail_if_no_progress with_reducible refine Keeps.upd ?_ rfl rfl rfl rfl rfl rfl
    | intro _ _ _
    | intro _ _
    | split
    | extract_lets
    | dsimp +zetaDelta only
    | dsimp only

theorem zSpoilChan_keeps {s : State} {c : Nat} (hk : Keeps Q C U B s) :
    Keeps Q C U B (zSpoilChan s c) := by
  unfold zSpoilChan
  repeat' first
    | with_reducible assumption
    | with_reducible refine Keeps.ite ?_ (fun _ => ?_)
    | fail_if_no_progress with_reducible refine Keeps.upd ?_ rfl rfl rfl rfl rfl rfl
    | intro _ _ _
    | intro _ _
    | split
    | extract_lets
    | dsimp only

theorem holdApplied_keeps {s : State} {n : Nat} {q : RangeReq} {r : Nat} (hk : Keeps Q C U B s) :
    Keeps Q C U B (holdApplied s n q r) := by
  unfold holdApplied
  repeat' first
    | with_reducible assumption
    | with_reducible apply logAt_keeps
    | with_reducible apply modFront_keeps
    | with_reducible apply modChain_keeps
    | with_reducible apply zSpoilChan_keeps
    | with_reducible apply dcForget_keeps
    | with_reducible refine Keeps.ite ?_ (fun _ => ?_)
    | fail_if_no_progress with_reducible refine Keeps.upd ?_ rfl rfl rfl rfl rfl rfl
    | intro _ _ _
    | intro _ _
    | split
    | extract_lets
    | dsimp +zetaDelta only
    | dsimp only

theorem releaseApplied_keeps {s : State} {n : Nat} {e : Nat} (hk : Keeps Q C U B s) :
    Keeps Q C U B (releaseApplied s n e) := by
  unfold releaseApplied
  repeat' first
    | with_reducible assumption
    | with_reducible apply modFront_keeps
    | with_reducible apply modChain_keeps
    | with_reducible apply zSpoilChan_keeps
    | with_reducible apply settleFrom_keeps
    | with_reducible apply satEnd_keeps
    | with_reducible refine Keeps.ite ?_ (fun _ => ?_)
    | fail_if_no_progress with_reducible refine Keeps.upd ?_ rfl rfl rfl rfl rfl rfl
    | intro _ _ _
    | intro _ _
    | split
    | extract_lets
    | dsimp +zetaDelta only
    | dsimp only

theorem frontApplied_keeps {s : State} {n : Nat} {w : BitVec 16} {r : Nat} (hk : Keeps Q C U B s) :
    Keeps Q C U B (frontApplied s n w r) := by
  unfold frontApplied
  repeat' first
    | with_reducible assumption
    | with_reducible apply modFront_keeps
    | with_reducible apply startApplied_keeps
    | with_reducible apply holdApplied_keeps
    | with_reducible refine Keeps.ite ?_ (fun _ => ?_)
    | fail_if_no_progress with_reducible refine Keeps.upd ?_ rfl rfl rfl rfl rfl rfl
    | intro _ _ _
    | intro _ _
    | split
    | extract_lets
    | dsimp +zetaDelta only
    | dsimp only

theorem releaseNow_keeps {s : State} {n : Nat} (hk : Keeps Q C U B s) :
    Keeps Q C U B (releaseNow s n) := by
  unfold releaseNow
  repeat' first
    | with_reducible assumption
    | with_reducible apply releaseApplied_keeps
    | fail_if_no_progress with_reducible refine Keeps.upd ?_ rfl rfl rfl rfl rfl rfl
    | split
    | extract_lets
    | dsimp only

theorem frontStart_keeps {s : State} {n : Nat} (hk : Keeps Q C U B s) :
    Keeps Q C U B (frontStart s n) := by
  unfold frontStart
  repeat' first
    | with_reducible assumption
    | with_reducible apply regReplace_keeps
    | with_reducible apply modFront_keeps
    | with_reducible apply modChain_keeps
    | with_reducible refine Keeps.ite ?_ (fun _ => ?_)
    | fail_if_no_progress with_reducible refine Keeps.upd ?_ rfl rfl rfl rfl rfl rfl
    | intro _ _ _
    | intro _ _
    | split
    | extract_lets
    | dsimp +zetaDelta only
    | dsimp only

theorem chainFresh_keeps {s : State} {c : Nat} (hk : Keeps Q C U B s) :
    Keeps Q C U B (chainFresh s c) := by
  unfold chainFresh
  repeat' first
    | with_reducible assumption
    | with_reducible apply modChain_keeps
    | fail_if_no_progress with_reducible refine Keeps.upd ?_ rfl rfl rfl rfl rfl rfl
    | intro _ _ _
    | intro _ _
    | extract_lets
    | dsimp only

theorem trackersReset_keeps {s : State} {c : Nat} (hk : Keeps Q C U B s) :
    Keeps Q C U B (trackersReset s c) := by
  unfold trackersReset
  repeat' first
    | with_reducible assumption
    | with_reducible apply forEach_keeps
    | with_reducible refine forEach_keeps ?_ (fun _ _ _ => ?_)
    | with_reducible refine Keeps.ite ?_ (fun _ => ?_)
    | fail_if_no_progress with_reducible refine Keeps.upd ?_ rfl rfl rfl rfl rfl rfl
    | intro _ _ _
    | intro _ _
    | split
    | extract_lets
    | dsimp only

theorem zSinceStart_keeps {s : State} {c : Nat} (hk : Keeps Q C U B s) :
    Keeps Q C U B (zSinceStart s c) := by
  unfold zSinceStart
  repeat' first
    | with_reducible assumption
    | with_reducible refine Keeps.ite ?_ (fun _ => ?_)
    | fail_if_no_progress with_reducible refine Keeps.upd ?_ rfl rfl rfl rfl rfl rfl
    | split
    | extract_lets
    | dsimp only

theorem bridgeVoid_keeps {s : State} {b : Nat} (hk : Keeps Q C U B s) :
    Keeps Q C U B (bridgeVoid s b) := by
  unfold bridgeVoid
  repeat' first
    | with_reducible assumption
    | with_reducible apply modChain_keeps
    | fail_if_no_progress with_reducible refine Keeps.upd ?_ rfl rfl rfl rfl rfl rfl
    | intro _ _ _
    | intro _ _
    | extract_lets
    | dsimp +zetaDelta only
    | dsimp only

theorem chanStart_keeps {s : State} {c : Nat} {origin : BitVec 16} (hk : Keeps Q C U B s) :
    Keeps Q C U B (chanStart s c origin) := by
  unfold chanStart
  repeat' first
    | with_reducible assumption
    | with_reducible apply modChain_keeps
    | with_reducible apply chainFresh_keeps
    | with_reducible apply logE_keeps
    | with_reducible apply zSinceStart_keeps
    | with_reducible apply trackersReset_keeps
    | with_reducible apply dcForget_keeps
    | with_reducible apply frontStart_keeps
    | with_reducible apply taskNew_keeps
    | with_reducible apply modBrg_keeps
    | with_reducible apply regWrite_keeps
    | with_reducible apply settleFrom_keeps
    | with_reducible apply bridgeVoid_keeps
    | with_reducible refine Keeps.ite ?_ (fun _ => ?_)
    | fail_if_no_progress with_reducible refine Keeps.upd ?_ rfl rfl rfl rfl rfl rfl
    | intro _ _ _
    | intro _ _
    | split
    | extract_lets
    | dsimp +zetaDelta only
    | dsimp only

theorem frontStop_keeps {s : State} {n : Nat} (hk : Keeps Q C U B s) :
    Keeps Q C U B (frontStop s n) := by
  unfold frontStop
  repeat' first
    | with_reducible assumption
    | with_reducible apply boundEnd_keeps
    | with_reducible apply satEnd_keeps
    | with_reducible apply modChain_keeps
    | with_reducible apply modFront_keeps
    | with_reducible apply regReplace_keeps
    | with_reducible refine Keeps.ite ?_ (fun _ => ?_)
    | fail_if_no_progress with_reducible refine Keeps.upd ?_ rfl rfl rfl rfl rfl rfl
    | intro _ _ _
    | intro _ _
    | split
    | extract_lets
    | dsimp +zetaDelta only
    | dsimp only

theorem bridgeOff_keeps {s : State} {b : Nat} (hk : Keeps Q C U B s) :
    Keeps Q C U B (bridgeOff s b) := by
  unfold bridgeOff
  repeat' first
    | with_reducible assumption
    | with_reducible apply regSet_keeps
    | with_reducible apply logE_keeps
    | with_reducible apply modBrg_keeps
    | with_reducible refine Keeps.ite ?_ (fun _ => ?_)
    | fail_if_no_progress with_reducible refine Keeps.upd ?_ rfl rfl rfl rfl rfl rfl
    | intro _ _ _
    | intro _ _
    | split
    | extract_lets
    | dsimp +zetaDelta only
    | dsimp only

theorem bridgeEnd_keeps {s : State} {b : Nat} {status : Nat} {reason : Nat} (hk : Keeps Q C U B s) :
    Keeps Q C U B (bridgeEnd s b status reason) := by
  unfold bridgeEnd
  repeat' first
    | with_reducible assumption
    | with_reducible apply bridgeOff_keeps
    | with_reducible apply taskEnd_keeps
    | with_reducible refine Keeps.ite ?_ (fun _ => ?_)
    | fail_if_no_progress with_reducible refine Keeps.upd ?_ rfl rfl rfl rfl rfl rfl
    | split
    | extract_lets
    | dsimp only

theorem chanStop_keeps {s : State} {c : Nat} {origin : BitVec 16} (hk : Keeps Q C U B s) :
    Keeps Q C U B (chanStop s c origin) := by
  unfold chanStop
  repeat' first
    | with_reducible assumption
    | with_reducible apply modChain_keeps
    | with_reducible apply logE_keeps
    | with_reducible apply frontStop_keeps
    | with_reducible apply modMox_keeps
    | with_reducible apply modBrg_keeps
    | with_reducible refine Keeps.ite ?_ (fun _ => ?_)
    | fail_if_no_progress with_reducible refine Keeps.upd ?_ rfl rfl rfl rfl rfl rfl
    | intro _ _ _
    | intro _ _
    | split
    | extract_lets
    | dsimp +zetaDelta only
    | dsimp only

theorem snapStart_keeps {s : State} {c : Nat} (hk : Keeps Q C U B s) :
    Keeps Q C U B (snapStart s c) := by
  unfold snapStart
  repeat' first
    | with_reducible assumption
    | with_reducible apply modChain_keeps
    | with_reducible apply chainFresh_keeps
    | with_reducible apply frontStart_keeps
    | fail_if_no_progress with_reducible refine Keeps.upd ?_ rfl rfl rfl rfl rfl rfl
    | intro _ _ _
    | intro _ _
    | extract_lets
    | dsimp +zetaDelta only
    | dsimp only

theorem snapEnd_keeps {s : State} {c : Nat} {emitted : Bool} (hk : Keeps Q C U B s) :
    Keeps Q C U B (snapEnd s c emitted) := by
  unfold snapEnd
  repeat' first
    | with_reducible assumption
    | with_reducible apply frontStop_keeps
    | with_reducible apply modChain_keeps
    | with_reducible apply taskEnd_keeps
    | with_reducible refine Keeps.ite ?_ (fun _ => ?_)
    | fail_if_no_progress with_reducible refine Keeps.upd ?_ rfl rfl rfl rfl rfl rfl
    | intro _ _ _
    | intro _ _
    | split
    | extract_lets
    | dsimp +zetaDelta only
    | dsimp only

theorem chanHalt_keeps {s : State} {c : Nat} {origin : BitVec 16} (hk : Keeps Q C U B s) :
    Keeps Q C U B (chanHalt s c origin) := by
  unfold chanHalt
  repeat' first
    | with_reducible assumption
    | with_reducible apply snapEnd_keeps
    | with_reducible apply chanStop_keeps
    | fail_if_no_progress with_reducible refine Keeps.upd ?_ rfl rfl rfl rfl rfl rfl
    | extract_lets
    | dsimp only

theorem chainsClear_keeps {s : State} {u : Nat} (hk : Keeps Q C U B s) :
    Keeps Q C U B (chainsClear s u) := by
  unfold chainsClear
  repeat' first
    | with_reducible assumption
    | with_reducible apply forEach_keeps
    | with_reducible apply chainDue_keeps
    | with_reducible apply modChain_keeps
    | with_reducible refine forEach_keeps ?_ (fun _ _ _ => ?_)
    | with_reducible refine Keeps.ite ?_ (fun _ => ?_)
    | fail_if_no_progress with_reducible refine Keeps.upd ?_ rfl rfl rfl rfl rfl rfl
    | intro _ _ _
    | intro _ _
    | split
    | extract_lets
    | dsimp +zetaDelta only
    | dsimp only

theorem zSpoil_keeps {s : State} (hk : Keeps Q C U B s) :
    Keeps Q C U B (zSpoil s) := by
  unfold zSpoil
  repeat' first
    | with_reducible assumption
    | with_reducible refine Keeps.ite ?_ (fun _ => ?_)
    | fail_if_no_progress with_reducible refine Keeps.upd ?_ rfl rfl rfl rfl rfl rfl
    | intro _ _ _
    | intro _ _
    | split
    | extract_lets
    | dsimp only

theorem syncReset_keeps {s : State} (hk : Keeps Q C U B s) :
    Keeps Q C U B (syncReset s) := by
  unfold syncReset
  repeat' first
    | with_reducible assumption
    | with_reducible apply zSpoil_keeps
    | with_reducible apply chainsClear_keeps
    | fail_if_no_progress with_reducible refine Keeps.upd ?_ rfl rfl rfl rfl rfl rfl
    | extract_lets
    | dsimp only

theorem syncRun_keeps {s : State} (hk : Keeps Q C U B s) :
    Keeps Q C U B (syncRun s) := by
  unfold syncRun
  repeat' first
    | with_reducible assumption
    | with_reducible apply syncReset_keeps
    | with_reducible apply logE_keeps
    | with_reducible refine foldl_keeps ?_ (fun _ _ _ => ?_)
    | with_reducible refine foldl1_keeps ?_ (fun _ _ _ => ?_)
    | with_reducible refine Keeps.ite ?_ (fun _ => ?_)
    | fail_if_no_progress with_reducible refine Keeps.upd ?_ rfl rfl rfl rfl rfl rfl
    | intro _ _ _
    | intro _ _
    | split
    | extract_lets
    | dsimp +zetaDelta only
    | dsimp only

theorem htrOff_keeps {s : State} {n : Nat} {origin : BitVec 16} (hk : Keeps Q C U B s) :
    Keeps Q C U B (htrOff s n origin) := by
  unfold htrOff
  repeat' first
    | with_reducible assumption
    | with_reducible apply regSet_keeps
    | with_reducible apply logE_keeps
    | with_reducible apply modHtr_keeps
    | with_reducible apply modChain_keeps
    | with_reducible refine Keeps.ite ?_ (fun _ => ?_)
    | fail_if_no_progress with_reducible refine Keeps.upd ?_ rfl rfl rfl rfl rfl rfl
    | intro _ _ _
    | intro _ _
    | split
    | extract_lets
    | dsimp +zetaDelta only
    | dsimp only

theorem htrEnd_keeps {s : State} {n : Nat} {status : Nat} {reason : Nat} {origin : BitVec 16} (hk : Keeps Q C U B s) :
    Keeps Q C U B (htrEnd s n status reason origin) := by
  unfold htrEnd
  repeat' first
    | with_reducible assumption
    | with_reducible apply htrOff_keeps
    | with_reducible apply taskEnd_keeps
    | with_reducible refine Keeps.ite ?_ (fun _ => ?_)
    | fail_if_no_progress with_reducible refine Keeps.upd ?_ rfl rfl rfl rfl rfl rfl
    | split
    | extract_lets
    | dsimp only

theorem zCount_keeps {s : State} {task : Nat} {i : Nat} (hk : Keeps Q C U B s) :
    Keeps Q C U B (zCount s task i) := by
  unfold zCount
  repeat' first
    | with_reducible assumption
    | fail_if_no_progress with_reducible refine Keeps.upd ?_ rfl rfl rfl rfl rfl rfl
    | extract_lets
    | dsimp +zetaDelta only
    | dsimp only

theorem zOutcome_keeps {s : State} {task : Nat} {c : Nat} {o : Nat} (hk : Keeps Q C U B s) :
    Keeps Q C U B (zOutcome s task c o) := by
  unfold zOutcome
  repeat' first
    | with_reducible assumption
    | with_reducible apply zCount_keeps
    | fail_if_no_progress with_reducible refine Keeps.upd ?_ rfl rfl rfl rfl rfl rfl
    | extract_lets
    | dsimp only

theorem zEndMark_keeps {s : State} {c : Nat} (hk : Keeps Q C U B s) :
    Keeps Q C U B (zEndMark s c) := by
  unfold zEndMark
  repeat' first
    | with_reducible assumption
    | with_reducible refine Keeps.ite ?_ (fun _ => ?_)
    | fail_if_no_progress with_reducible refine Keeps.upd ?_ rfl rfl rfl rfl rfl rfl
    | intro _ _ _
    | intro _ _
    | split
    | extract_lets
    | dsimp only

theorem toneBias_keeps {s : State} {k : Nat} {c : BitVec 14} (hk : Keeps Q C U B s) :
    Keeps Q C U B (toneBias s k c) := by
  unfold toneBias
  repeat' first
    | with_reducible assumption
    | fail_if_no_progress with_reducible refine Keeps.upd ?_ rfl rfl rfl rfl rfl rfl
    | extract_lets
    | dsimp only

theorem toneReg_keeps {s : State} {n : Nat} {d : Nat} (hk : Keeps Q C U B s) :
    Keeps Q C U B (toneReg s n d) := by
  unfold toneReg
  repeat' first
    | with_reducible assumption
    | fail_if_no_progress with_reducible refine Keeps.upd ?_ rfl rfl rfl rfl rfl rfl
    | extract_lets
    | dsimp +zetaDelta only
    | dsimp only

theorem toneStop_keeps {s : State} {r : ZRun} {u : Nat} (hk : Keeps Q C U B s) :
    Keeps Q C U B (toneStop s r u) := by
  unfold toneStop
  repeat' first
    | with_reducible assumption
    | with_reducible apply forEach_keeps
    | with_reducible apply modChain_keeps
    | with_reducible refine forEach_keeps ?_ (fun _ _ _ => ?_)
    | fail_if_no_progress with_reducible refine Keeps.upd ?_ rfl rfl rfl rfl rfl rfl
    | intro _ _ _
    | intro _ _
    | extract_lets
    | dsimp only

theorem zToneOff_keeps {s : State} {r : ZRun} (hk : Keeps Q C U B s) :
    Keeps Q C U B (zToneOff s r) := by
  unfold zToneOff
  repeat' first
    | with_reducible assumption
    | with_reducible apply toneStop_keeps
    | with_reducible apply toneBias_keeps
    | with_reducible apply toneReg_keeps
    | with_reducible refine Keeps.ite ?_ (fun _ => ?_)
    | fail_if_no_progress with_reducible refine Keeps.upd ?_ rfl rfl rfl rfl rfl rfl
    | split
    | extract_lets
    | dsimp +zetaDelta only
    | dsimp only

theorem zNext_keeps {s : State} (hk : Keeps Q C U B s) :
    Keeps Q C U B (zNext s) := by
  unfold zNext
  repeat' first
    | with_reducible assumption
    | fail_if_no_progress with_reducible refine Keeps.upd ?_ rfl rfl rfl rfl rfl rfl
    | intro _ _ _
    | intro _ _
    | split
    | extract_lets
    | dsimp +zetaDelta only
    | dsimp only

theorem zEnqueue_keeps {s : State} {n : Nat} {chs : List Nat} (hk : Keeps Q C U B s) :
    Keeps Q C U B (zEnqueue s n chs) := by
  unfold zEnqueue
  repeat' first
    | with_reducible assumption
    | with_reducible apply zNext_keeps
    | with_reducible refine Keeps.ite ?_ (fun _ => ?_)
    | fail_if_no_progress with_reducible refine Keeps.upd ?_ rfl rfl rfl rfl rfl rfl
    | intro _ _ _
    | intro _ _
    | split
    | extract_lets
    | dsimp +zetaDelta only
    | dsimp only

theorem zTargetDone_keeps {s : State} {r : ZRun} (hk : Keeps Q C U B s) :
    Keeps Q C U B (zTargetDone s r) := by
  unfold zTargetDone
  repeat' first
    | with_reducible assumption
    | with_reducible apply zCount_keeps
    | with_reducible apply taskEnd_keeps
    | with_reducible apply zNext_keeps
    | with_reducible refine Keeps.ite ?_ (fun _ => ?_)
    | fail_if_no_progress with_reducible refine Keeps.upd ?_ rfl rfl rfl rfl rfl rfl
    | intro _ _ _
    | intro _ _
    | split
    | extract_lets
    | dsimp +zetaDelta only
    | dsimp only

theorem zCheckDone_keeps {s : State} (hk : Keeps Q C U B s) :
    Keeps Q C U B (zCheckDone s) := by
  unfold zCheckDone
  repeat' first
    | with_reducible assumption
    | with_reducible apply zTargetDone_keeps
    | with_reducible apply zToneOff_keeps
    | with_reducible refine Keeps.ite ?_ (fun _ => ?_)
    | fail_if_no_progress with_reducible refine Keeps.upd ?_ rfl rfl rfl rfl rfl rfl
    | split
    | extract_lets
    | dsimp only

theorem zAbortChan_keeps {s : State} {c : Nat} (hk : Keeps Q C U B s) :
    Keeps Q C U B (zAbortChan s c) := by
  unfold zAbortChan
  repeat' first
    | with_reducible assumption
    | with_reducible apply zOutcome_keeps
    | with_reducible apply zCheckDone_keeps
    | with_reducible apply zEndMark_keeps
    | with_reducible apply zCount_keeps
    | with_reducible apply taskEnd_keeps
    | with_reducible refine foldl_keeps ?_ (fun _ _ _ => ?_)
    | with_reducible refine foldl1_keeps ?_ (fun _ _ _ => ?_)
    | with_reducible refine Keeps.ite ?_ (fun _ => ?_)
    | fail_if_no_progress with_reducible refine Keeps.upd ?_ rfl rfl rfl rfl rfl rfl
    | intro _ _ _
    | intro _ _
    | split
    | extract_lets
    | dsimp +zetaDelta only
    | dsimp only

theorem zInvalid_keeps {s : State} {c : Nat} (hk : Keeps Q C U B s) :
    Keeps Q C U B (zInvalid s c) := by
  unfold zInvalid
  repeat' first
    | with_reducible assumption
    | with_reducible apply zCheckDone_keeps
    | with_reducible apply zEndMark_keeps
    | with_reducible apply zOutcome_keeps
    | with_reducible refine Keeps.ite ?_ (fun _ => ?_)
    | fail_if_no_progress with_reducible refine Keeps.upd ?_ rfl rfl rfl rfl rfl rfl
    | intro _ _ _
    | intro _ _
    | split
    | extract_lets
    | dsimp only

theorem zAbortRun_keeps {s : State} (hk : Keeps Q C U B s) :
    Keeps Q C U B (zAbortRun s) := by
  unfold zAbortRun
  repeat' first
    | with_reducible assumption
    | with_reducible apply forEach_keeps
    | with_reducible apply zAbortChan_keeps
    | with_reducible refine forEach_keeps ?_ (fun _ _ _ => ?_)
    | fail_if_no_progress with_reducible refine Keeps.upd ?_ rfl rfl rfl rfl rfl rfl
    | intro _ _ _
    | intro _ _
    | split
    | extract_lets
    | dsimp only

theorem periodRestart_keeps {s : State} {task : Nat} (hk : Keeps Q C U B s) :
    Keeps Q C U B (periodRestart s task) := by
  unfold periodRestart
  repeat' first
    | with_reducible assumption
    | with_reducible apply forEach_keeps
    | with_reducible refine forEach_keeps ?_ (fun _ _ _ => ?_)
    | with_reducible refine Keeps.ite ?_ (fun _ => ?_)
    | fail_if_no_progress with_reducible refine Keeps.upd ?_ rfl rfl rfl rfl rfl rfl
    | intro _ _ _
    | intro _ _
    | split
    | extract_lets
    | dsimp +zetaDelta only
    | dsimp only

theorem zRefuse_keeps {s : State} {origin : BitVec 16} {task : Nat} {reason : Nat} (hk : Keeps Q C U B s) :
    Keeps Q C U B (zRefuse s origin task reason) := by
  unfold zRefuse
  repeat' first
    | with_reducible assumption
    | with_reducible apply taskEndBy_keeps
    | with_reducible apply periodRestart_keeps
    | with_reducible apply zNext_keeps
    | with_reducible apply zToneOff_keeps
    | with_reducible refine Keeps.ite ?_ (fun _ => ?_)
    | fail_if_no_progress with_reducible refine Keeps.upd ?_ rfl rfl rfl rfl rfl rfl
    | intro _ _ _
    | intro _ _
    | split
    | extract_lets
    | dsimp +zetaDelta only
    | dsimp only

theorem zIdle_keeps {s : State} (hk : Keeps Q C U B s) :
    Keeps Q C U B (zIdle s) := by
  unfold zIdle
  repeat' first
    | with_reducible assumption
    | with_reducible apply zCount_keeps
    | with_reducible apply zOutcome_keeps
    | with_reducible apply zCheckDone_keeps
    | with_reducible apply forEach_keeps
    | with_reducible apply zAbortChan_keeps
    | with_reducible refine forEach_keeps ?_ (fun _ _ _ => ?_)
    | with_reducible refine foldl_keeps ?_ (fun _ _ _ => ?_)
    | with_reducible refine foldl1_keeps ?_ (fun _ _ _ => ?_)
    | fail_if_no_progress with_reducible refine Keeps.upd ?_ rfl rfl rfl rfl rfl rfl
    | intro _ _ _
    | intro _ _
    | split
    | extract_lets
    | dsimp +zetaDelta only
    | dsimp only

theorem zLeave_keeps {s : State} (hk : Keeps Q C U B s) :
    Keeps Q C U B (zLeave s) := by
  unfold zLeave
  repeat' first
    | with_reducible assumption
    | with_reducible apply zRefuse_keeps
    | fail_if_no_progress with_reducible refine Keeps.upd ?_ rfl rfl rfl rfl rfl rfl
    | split
    | extract_lets
    | dsimp only

theorem joinEnd_keeps {s : State} {code : Nat} (hk : Keeps Q C U B s) :
    Keeps Q C U B (joinEnd s code) := by
  unfold joinEnd
  repeat' first
    | with_reducible assumption
    | with_reducible apply taskEnd_keeps
    | with_reducible refine Keeps.ite ?_ (fun _ => ?_)
    | fail_if_no_progress with_reducible refine Keeps.upd ?_ rfl rfl rfl rfl rfl rfl
    | split
    | extract_lets
    | dsimp +zetaDelta only
    | dsimp only

theorem joinEndSend_keeps {s : State} {code : Nat} {msgs : List (List Byte)} (hk : Keeps Q C U B s) :
    Keeps Q C U B (joinEndSend s code msgs) := by
  unfold joinEndSend
  repeat' first
    | with_reducible assumption
    | with_reducible apply joinEnd_keeps
    | with_reducible refine Keeps.ite ?_ (fun _ => ?_)
    | fail_if_no_progress with_reducible refine Keeps.upd ?_ rfl rfl rfl rfl rfl rfl
    | split
    | extract_lets
    | dsimp +zetaDelta only
    | dsimp only

theorem splitLeadRules_keeps {s : State} {mode : Nat} (hk : Keeps Q C U B s) :
    Keeps Q C U B (splitLeadRules s mode) := by
  unfold splitLeadRules
  repeat' first
    | with_reducible assumption
    | with_reducible apply forEach_keeps
    | with_reducible apply alarmTo_keeps
    | with_reducible apply modRule_keeps
    | with_reducible refine forEach_keeps ?_ (fun _ _ _ => ?_)
    | with_reducible refine Keeps.ite ?_ (fun _ => ?_)
    | fail_if_no_progress with_reducible refine Keeps.upd ?_ rfl rfl rfl rfl rfl rfl
    | intro _ _ _
    | intro _ _
    | split
    | extract_lets
    | dsimp only

theorem splitTailRules_keeps {s : State} {mode : Nat} (hk : Keeps Q C U B s) :
    Keeps Q C U B (splitTailRules s mode) := by
  unfold splitTailRules
  repeat' first
    | with_reducible assumption
    | with_reducible apply forEach_keeps
    | with_reducible apply alarmTo_keeps
    | with_reducible apply modRule_keeps
    | with_reducible refine forEach_keeps ?_ (fun _ _ _ => ?_)
    | with_reducible refine Keeps.ite ?_ (fun _ => ?_)
    | fail_if_no_progress with_reducible refine Keeps.upd ?_ rfl rfl rfl rfl rfl rfl
    | intro _ _ _
    | intro _ _
    | split
    | extract_lets
    | dsimp +zetaDelta only
    | dsimp only

theorem twinSplit_keeps {s : State} {origin : BitVec 16} {link : Bool} (hk : Keeps Q C U B s) :
    Keeps Q C U B (twinSplit s origin link) := by
  unfold twinSplit
  repeat' first
    | with_reducible assumption
    | with_reducible apply logE_keeps
    | with_reducible apply splitLeadRules_keeps
    | with_reducible apply splitTailRules_keeps
    | with_reducible apply aoutOff_keeps
    | with_reducible refine Keeps.ite ?_ (fun _ => ?_)
    | fail_if_no_progress with_reducible refine Keeps.upd ?_ rfl rfl rfl rfl rfl rfl
    | split
    | extract_lets
    | dsimp +zetaDelta only
    | dsimp only

theorem stateTo_keeps {s : State} {st : UState} {cause : BitVec 16} {origin : BitVec 16} (hU : UFree U) (hk : Keeps Q
    C U B s) :
    Keeps Q C U B (stateTo s st cause origin) := by
  unfold stateTo
  repeat' first
    | with_reducible assumption
    | with_reducible apply logE_keeps
    | with_reducible apply queueEvent_keeps
    | with_reducible apply joinEndSend_keeps
    | fail_if_no_progress with_reducible refine Keeps.updU hU ?_ rfl rfl rfl rfl rfl
    | fail_if_no_progress with_reducible refine Keeps.upd ?_ rfl rfl rfl rfl rfl rfl
    | extract_lets
    | dsimp +zetaDelta only
    | dsimp only

theorem streamOff_keeps {s : State} (hk : Keeps Q C U B s) :
    Keeps Q C U B (streamOff s) := by
  unfold streamOff
  repeat' first
    | with_reducible assumption
    | fail_if_no_progress with_reducible refine Keeps.upd ?_ rfl rfl rfl rfl rfl rfl
    | extract_lets
    | dsimp only

theorem hkResume_keeps {s : State} (hk : Keeps Q C U B s) :
    Keeps Q C U B (hkResume s) := by
  unfold hkResume
  repeat' first
    | with_reducible assumption
    | with_reducible apply regSet_keeps
    | fail_if_no_progress with_reducible refine Keeps.upd ?_ rfl rfl rfl rfl rfl rfl
    | extract_lets
    | dsimp +zetaDelta only
    | dsimp only

theorem burstDrop_keeps {s : State} (hk : Keeps Q C U B s) :
    Keeps Q C U B (burstDrop s) := by
  unfold burstDrop
  repeat' first
    | with_reducible assumption
    | with_reducible apply forEach_keeps
    | with_reducible apply modChain_keeps
    | with_reducible refine forEach_keeps ?_ (fun _ _ _ => ?_)
    | with_reducible refine Keeps.ite ?_ (fun _ => ?_)
    | fail_if_no_progress with_reducible refine Keeps.upd ?_ rfl rfl rfl rfl rfl rfl
    | intro _ _ _
    | intro _ _
    | split
    | extract_lets
    | dsimp only

theorem vigilLeave_keeps {s : State} (hk : Keeps Q C U B s) :
    Keeps Q C U B (vigilLeave s) := by
  unfold vigilLeave
  repeat' first
    | with_reducible assumption
    | with_reducible apply forEach_keeps
    | with_reducible apply burstDrop_keeps
    | with_reducible apply hkResume_keeps
    | with_reducible apply modFront_keeps
    | with_reducible apply modChain_keeps
    | with_reducible apply chainDue_keeps
    | with_reducible apply modRule_keeps
    | with_reducible refine forEach_keeps ?_ (fun _ _ _ => ?_)
    | with_reducible refine Keeps.ite ?_ (fun _ => ?_)
    | fail_if_no_progress with_reducible refine Keeps.upd ?_ rfl rfl rfl rfl rfl rfl
    | intro _ _ _
    | intro _ _
    | split
    | extract_lets
    | dsimp +zetaDelta only
    | dsimp only

theorem alarmsIdle_keeps {s : State} (hk : Keeps Q C U B s) :
    Keeps Q C U B (alarmsIdle s) := by
  unfold alarmsIdle
  repeat' first
    | with_reducible assumption
    | with_reducible apply forEach_keeps
    | with_reducible apply alarmLeave_keeps
    | with_reducible apply pairTo_keeps
    | with_reducible refine forEach_keeps ?_ (fun _ _ _ => ?_)
    | with_reducible refine Keeps.ite ?_ (fun _ => ?_)
    | fail_if_no_progress with_reducible refine Keeps.upd ?_ rfl rfl rfl rfl rfl rfl
    | intro _ _ _
    | intro _ _
    | split
    | extract_lets
    | dsimp only

theorem idleStops_keeps {s : State} (hk : Keeps Q C U B s) :
    Keeps Q C U B (idleStops s) := by
  unfold idleStops
  repeat' first
    | with_reducible assumption
    | with_reducible apply zIdle_keeps
    | with_reducible apply forEach_keeps
    | with_reducible apply chanHalt_keeps
    | with_reducible apply bridgeEnd_keeps
    | with_reducible apply htrEnd_keeps
    | with_reducible apply playEndAll_keeps
    | with_reducible apply tripDisarm_keeps
    | with_reducible apply capStop_keeps
    | with_reducible apply aoutOff_keeps
    | with_reducible apply streamOff_keeps
    | with_reducible apply alarmsIdle_keeps
    | with_reducible apply cellToIdle_keeps
    | with_reducible refine forEach_keeps ?_ (fun _ _ _ => ?_)
    | fail_if_no_progress with_reducible refine Keeps.upd ?_ rfl rfl rfl rfl rfl rfl
    | intro _ _ _
    | intro _ _
    | extract_lets
    | dsimp +zetaDelta only
    | dsimp only

theorem enterIdle_keeps {s : State} {origin : BitVec 16} (hU : UFree U) (hk : Keeps Q C U B s) :
    Keeps Q C U B (enterIdle s origin) := by
  unfold enterIdle
  repeat' first
    | with_reducible assumption
    | with_reducible apply stateTo_keeps
    | with_reducible apply vigilLeave_keeps
    | with_reducible apply idleStops_keeps
    | with_reducible refine Keeps.ite ?_ (fun _ => ?_)
    | fail_if_no_progress with_reducible refine Keeps.upd ?_ rfl rfl rfl rfl rfl rfl
    | split
    | extract_lets
    | dsimp +zetaDelta only
    | dsimp only

theorem playSuspend_keeps {s : State} (hk : Keeps Q C U B s) :
    Keeps Q C U B (playSuspend s) := by
  unfold playSuspend
  repeat' first
    | with_reducible assumption
    | with_reducible apply forEach_keeps
    | with_reducible apply modPlay_keeps
    | with_reducible refine forEach_keeps ?_ (fun _ _ _ => ?_)
    | with_reducible refine Keeps.ite ?_ (fun _ => ?_)
    | fail_if_no_progress with_reducible refine Keeps.upd ?_ rfl rfl rfl rfl rfl rfl
    | intro _ _ _
    | intro _ _
    | split
    | extract_lets
    | dsimp only

theorem safeLoads_keeps {s : State} (hk : Keeps Q C U B s) :
    Keeps Q C U B (safeLoads s) := by
  unfold safeLoads
  repeat' first
    | with_reducible assumption
    | with_reducible apply forEach_keeps
    | with_reducible apply htrEnd_keeps
    | with_reducible apply regSet_keeps
    | with_reducible apply bridgeEnd_keeps
    | with_reducible refine forEach_keeps ?_ (fun _ _ _ => ?_)
    | with_reducible refine Keeps.ite ?_ (fun _ => ?_)
    | fail_if_no_progress with_reducible refine Keeps.upd ?_ rfl rfl rfl rfl rfl rfl
    | intro _ _ _
    | intro _ _
    | split
    | extract_lets
    | dsimp +zetaDelta only
    | dsimp only

theorem safeAout_keeps {s : State} (hk : Keeps Q C U B s) :
    Keeps Q C U B (safeAout s) := by
  unfold safeAout
  repeat' first
    | with_reducible assumption
    | with_reducible apply aoutOff_keeps
    | with_reducible refine Keeps.ite ?_ (fun _ => ?_)
    | fail_if_no_progress with_reducible refine Keeps.upd ?_ rfl rfl rfl rfl rfl rfl
    | split
    | extract_lets
    | dsimp only

theorem enterSafe_keeps {s : State} {cause : BitVec 16} {origin : BitVec 16} (hU : UFree U) (hk : Keeps Q C U B s) :
    Keeps Q C U B (enterSafe s cause origin) := by
  unfold enterSafe
  repeat' first
    | with_reducible assumption
    | with_reducible apply stateTo_keeps
    | with_reducible apply vigilLeave_keeps
    | with_reducible apply safeLoads_keeps
    | with_reducible apply zLeave_keeps
    | with_reducible apply playSuspend_keeps
    | with_reducible apply autoSeal_keeps
    | with_reducible apply forEach_keeps
    | with_reducible apply safeAout_keeps
    | with_reducible apply cellToSafe_keeps
    | with_reducible refine forEach_keeps ?_ (fun _ _ _ => ?_)
    | with_reducible refine Keeps.ite ?_ (fun _ => ?_)
    | fail_if_no_progress with_reducible refine Keeps.updU hU ?_ rfl rfl rfl rfl rfl
    | fail_if_no_progress with_reducible refine Keeps.upd ?_ rfl rfl rfl rfl rfl rfl
    | intro _ _ _
    | intro _ _
    | split
    | extract_lets
    | dsimp +zetaDelta only
    | dsimp only

theorem enterVigil_keeps {s : State} {origin : BitVec 16} (hU : UFree U) (hk : Keeps Q C U B s) :
    Keeps Q C U B (enterVigil s origin) := by
  unfold enterVigil
  repeat' first
    | with_reducible assumption
    | with_reducible apply stateTo_keeps
    | with_reducible apply forEach_keeps
    | with_reducible apply zLeave_keeps
    | with_reducible apply htrEnd_keeps
    | with_reducible apply bridgeEnd_keeps
    | with_reducible apply chanHalt_keeps
    | with_reducible apply snapEnd_keeps
    | with_reducible apply tripDisarm_keeps
    | with_reducible apply capStop_keeps
    | with_reducible apply playEndAll_keeps
    | with_reducible apply streamOff_keeps
    | with_reducible apply regSet_keeps
    | with_reducible apply autoSeal_keeps
    | with_reducible apply modRule_keeps
    | with_reducible refine forEach_keeps ?_ (fun _ _ _ => ?_)
    | fail_if_no_progress with_reducible refine Keeps.upd ?_ rfl rfl rfl rfl rfl rfl
    | intro _ _ _
    | intro _ _
    | extract_lets
    | dsimp +zetaDelta only
    | dsimp only

theorem enterRun_keeps {s : State} {origin : BitVec 16} (hU : UFree U) (hk : Keeps Q C U B s) :
    Keeps Q C U B (enterRun s origin) := by
  unfold enterRun
  repeat' first
    | with_reducible assumption
    | with_reducible apply stateTo_keeps
    | with_reducible apply vigilLeave_keeps
    | with_reducible refine Keeps.ite ?_ (fun _ => ?_)
    | fail_if_no_progress with_reducible refine Keeps.upd ?_ rfl rfl rfl rfl rfl rfl
    | split
    | extract_lets
    | dsimp +zetaDelta only
    | dsimp only

theorem htrFaultOne_keeps {s : State} {n : Nat} (hk : Keeps Q C U B s) :
    Keeps Q C U B (htrFaultOne s n) := by
  unfold htrFaultOne
  repeat' first
    | with_reducible assumption
    | with_reducible apply modHtr_keeps
    | fail_if_no_progress with_reducible refine Keeps.upd ?_ rfl rfl rfl rfl rfl rfl
    | intro _ _ _
    | intro _ _
    | extract_lets
    | dsimp only

theorem htrFault_keeps {s : State} {open_ : Bool} (hk : Keeps Q C U B s) :
    Keeps Q C U B (htrFault s open_) := by
  unfold htrFault
  repeat' first
    | with_reducible assumption
    | with_reducible apply forEach_keeps
    | with_reducible apply htrFaultOne_keeps
    | with_reducible refine forEach_keeps ?_ (fun _ _ _ => ?_)
    | with_reducible refine Keeps.ite ?_ (fun _ => ?_)
    | fail_if_no_progress with_reducible refine Keeps.upd ?_ rfl rfl rfl rfl rfl rfl
    | intro _ _ _
    | intro _ _
    | split
    | extract_lets
    | dsimp +zetaDelta only
    | dsimp only

theorem joinHeard_keeps {s : State} (hk : Keeps Q C U B s) :
    Keeps Q C U B (joinHeard s) := by
  unfold joinHeard
  repeat' first
    | with_reducible assumption
    | with_reducible apply joinEnd_keeps
    | with_reducible refine Keeps.ite ?_ (fun _ => ?_)
    | fail_if_no_progress with_reducible refine Keeps.upd ?_ rfl rfl rfl rfl rfl rfl
    | intro _ _ _
    | intro _ _
    | split
    | extract_lets
    | dsimp only

theorem lastingAction_keeps {s : State} {i : Nat} (hU : UFree U) (hk : Keeps Q C U B s) :
    Keeps Q C U B (lastingAction s i) := by
  unfold lastingAction
  repeat' first
    | with_reducible assumption
    | with_reducible apply enterSafe_keeps
    | with_reducible apply htrFault_keeps
    | with_reducible apply twinSplit_keeps
    | with_reducible apply joinHeard_keeps
    | fail_if_no_progress with_reducible refine Keeps.upd ?_ rfl rfl rfl rfl rfl rfl
    | split
    | extract_lets
    | dsimp only

theorem tallyNow_keeps {s : State} {i : Nat} (hU : UFree U) (hk : Keeps Q C U B s) :
    Keeps Q C U B (tallyNow s i) := by
  unfold tallyNow
  repeat' first
    | with_reducible assumption
    | with_reducible apply lastingAction_keeps
    | with_reducible apply tallyLatch_keeps
    | with_reducible refine Keeps.ite ?_ (fun _ => ?_)
    | fail_if_no_progress with_reducible refine Keeps.upd ?_ rfl rfl rfl rfl rfl rfl
    | split
    | extract_lets
    | dsimp only

theorem tallyEvent_keeps {s : State} {i : Nat} (hU : UFree U) (hk : Keeps Q C U B s) :
    Keeps Q C U B (tallyEvent s i) := by
  unfold tallyEvent
  repeat' first
    | with_reducible assumption
    | with_reducible apply tallyAdd_keeps
    | with_reducible apply tallyNow_keeps
    | with_reducible refine Keeps.ite ?_ (fun _ => ?_)
    | fail_if_no_progress with_reducible refine Keeps.upd ?_ rfl rfl rfl rfl rfl rfl
    | split
    | extract_lets
    | dsimp +zetaDelta only
    | dsimp only

end Sys2Proof.Machine
end

