-- ==== Sys2Proof/Laws/KeepsSignal.lean ====
section
/-! SUPPORT. What the filter chain, samples, the Seam, heaters, bridges and tones leave alone (Keeps): one lemma per operation. -/

set_option linter.unusedTactic false
set_option linter.unusedVariables false
set_option linter.unreachableTactic false

namespace Sys2Proof.Machine

variable {Q : List Instr} {C : List (Nat × Word) → Prop} {U : UnitSt → Prop} {B : Prop}

theorem cfgFold_closed (hC : CfgClosed C) {l : List (Nat × Word)} {v : Nat × Word → Word} {m : List (Nat × Word)} (h : C m) :
    C (l.foldl (fun m e => cfgSet m e.1 (v e)) m) := by
  induction l generalizing m with
  | nil => exact h
  | cons a l ih => exact ih (hC.set _ _ _ h)

theorem pageIn_closed (hC : CfgClosed C) {cfg : List (Nat × Word)} {c : Nat} {page : List (Nat × Word)} (h : C cfg) :
    C (pageIn cfg c page) := cfgFold_closed hC (cfgFold_closed hC h)

theorem asPast_keeps {s : State} {c : Nat} {p : PastRun} (hC : CfgClosed C) (hk : Keeps Q C U B s) :
    Keeps Q C U B (asPast s c p) :=
  ⟨hk.queue, pageIn_closed hC hk.config, hk.unit, hk.phase, hk.log, hk.events⟩

theorem inPast_keeps {s : State} {c : Nat} {p : PastRun} {f : State → State} (hC : CfgClosed C) (hk : Keeps Q C U B s)
    (hf : ∀ t : State, Keeps Q C U B t → Keeps Q C U B (f t)) : Keeps Q C U B (inPast s c p f) := by
  have h := hf _ (modChain_keeps (c := c) (f := p.into) (asPast_keeps (c := c) (p := p) hC hk))
  exact ⟨h.queue, pageIn_closed hC h.config, h.unit, h.phase, h.log, h.events⟩

theorem chainCode_keeps {s : State} {c : Nat} {d : Nat} {code : Nat} (hk : Keeps Q C U B s) :
    Keeps Q C U B (chainCode s c d code) := by
  unfold chainCode
  repeat' first
    | with_reducible assumption
    | with_reducible apply modChain_keeps
    | with_reducible refine Keeps.ite ?_ (fun _ => ?_)
    | split
    | extract_lets
    | dsimp only

theorem slotEval_keeps {s : State} {i : Nat} {x : Sample} (hk : Keeps Q C U B s) :
    Keeps Q C U B (slotEval s i x).1 := by
  unfold slotEval
  repeat' first
    | with_reducible assumption
    | with_reducible refine Keeps.ite ?_ (fun _ => ?_)
    | fail_if_no_progress with_reducible refine Keeps.upd ?_ rfl rfl rfl rfl rfl rfl
    | intro _ _ _
    | intro _ _
    | split
    | extract_lets
    | dsimp +zetaDelta only
    | dsimp only

theorem slotsEval_keeps {s : State} {f : Formed} (hk : Keeps Q C U B s) :
    Keeps Q C U B (slotsEval s f).1 := by
  unfold slotsEval
  repeat' first
    | with_reducible assumption
    | with_reducible apply slotEval_keeps
    | with_reducible refine foldl_keeps ?_ (fun _ _ _ => ?_)
    | with_reducible refine foldl1_keeps ?_ (fun _ _ _ => ?_)
    | fail_if_no_progress with_reducible refine Keeps.upd ?_ rfl rfl rfl rfl rfl rfl
    | intro _ _ _
    | intro _ _
    | split
    | extract_lets
    | dsimp +zetaDelta only
    | dsimp only

theorem slotTrue_keeps {s : State} {f : Formed} {i : Nat} {p : Int} (hk : Keeps Q C U B s) :
    Keeps Q C U B (slotTrue s f i p) := by
  unfold slotTrue
  repeat' first
    | with_reducible assumption
    | with_reducible apply coincAdd_keeps
    | with_reducible apply tripTake_keeps
    | with_reducible apply tripMiss_keeps
    | with_reducible refine Keeps.ite ?_ (fun _ => ?_)
    | fail_if_no_progress with_reducible refine Keeps.upd ?_ rfl rfl rfl rfl rfl rfl
    | split
    | extract_lets
    | dsimp +zetaDelta only
    | dsimp only

theorem tripStep_keeps {s : State} {f : Formed} (hk : Keeps Q C U B s) :
    Keeps Q C U B (tripStep s f) := by
  unfold tripStep
  repeat' first
    | with_reducible assumption
    | with_reducible apply slotsEval_keeps
    | with_reducible apply slotTrue_keeps
    | with_reducible refine foldl_keeps ?_ (fun _ _ _ => ?_)
    | with_reducible refine foldl1_keeps ?_ (fun _ _ _ => ?_)
    | fail_if_no_progress with_reducible refine Keeps.upd ?_ rfl rfl rfl rfl rfl rfl
    | intro _ _ _
    | intro _ _
    | extract_lets
    | dsimp +zetaDelta only
    | dsimp only

theorem ruleRaise_keeps {s : State} {r : Nat} {w : Word} (hk : Keeps Q C U B s) :
    Keeps Q C U B (ruleRaise s r w) := by
  unfold ruleRaise
  repeat' first
    | with_reducible assumption
    | with_reducible apply alarmTo_keeps
    | with_reducible apply modRule_keeps
    | with_reducible refine Keeps.ite ?_ (fun _ => ?_)
    | fail_if_no_progress with_reducible refine Keeps.upd ?_ rfl rfl rfl rfl rfl rfl
    | intro _ _ _
    | intro _ _
    | split
    | extract_lets
    | dsimp only

theorem ruleCount_keeps {s : State} {r : Nat} {w : Word} (hk : Keeps Q C U B s) :
    Keeps Q C U B (ruleCount s r w) := by
  unfold ruleCount
  repeat' first
    | with_reducible assumption
    | with_reducible apply ruleRaise_keeps
    | with_reducible apply modRule_keeps
    | with_reducible refine Keeps.ite ?_ (fun _ => ?_)
    | fail_if_no_progress with_reducible refine Keeps.upd ?_ rfl rfl rfl rfl rfl rfl
    | intro _ _ _
    | intro _ _
    | split
    | extract_lets
    | dsimp +zetaDelta only
    | dsimp only

theorem ruleEval_keeps {s : State} {r : Nat} {v : Rat} (hk : Keeps Q C U B s) :
    Keeps Q C U B (ruleEval s r v) := by
  unfold ruleEval
  repeat' first
    | with_reducible assumption
    | with_reducible apply modRule_keeps
    | with_reducible apply alarmLeave_keeps
    | with_reducible apply ruleCount_keeps
    | with_reducible refine Keeps.ite ?_ (fun _ => ?_)
    | fail_if_no_progress with_reducible refine Keeps.upd ?_ rfl rfl rfl rfl rfl rfl
    | intro _ _ _
    | intro _ _
    | split
    | extract_lets
    | dsimp +zetaDelta only
    | dsimp only

theorem ruleTrip_keeps {s : State} {r : Nat} {x : Sample} {blocked : Bool} (hk : Keeps Q C U B s) :
    Keeps Q C U B (ruleTrip s r x blocked) := by
  unfold ruleTrip
  repeat' first
    | with_reducible assumption
    | with_reducible apply coincAdd_keeps
    | with_reducible apply tripTake_keeps
    | with_reducible apply tripMiss_keeps
    | with_reducible refine Keeps.ite ?_ (fun _ => ?_)
    | fail_if_no_progress with_reducible refine Keeps.upd ?_ rfl rfl rfl rfl rfl rfl
    | split
    | extract_lets
    | dsimp only

theorem ruleOn_keeps {s : State} {r : Nat} {v : Rat} (hk : Keeps Q C U B s) :
    Keeps Q C U B (ruleOn s r v).1 := by
  unfold ruleOn
  repeat' first
    | with_reducible assumption
    | with_reducible apply ruleEval_keeps
    | fail_if_no_progress with_reducible refine Keeps.upd ?_ rfl rfl rfl rfl rfl rfl
    | extract_lets
    | dsimp +zetaDelta only
    | dsimp only

theorem ruleNaN_keeps {s : State} {r : Nat} (hk : Keeps Q C U B s) :
    Keeps Q C U B (ruleNaN s r) := by
  unfold ruleNaN
  repeat' first
    | with_reducible assumption
    | with_reducible apply modRule_keeps
    | fail_if_no_progress with_reducible refine Keeps.upd ?_ rfl rfl rfl rfl rfl rfl
    | intro _ _ _
    | intro _ _
    | extract_lets
    | dsimp only

theorem ruleFire_keeps {s : State} {r : Nat} {v : Rat} {x : Sample} {blocked : Bool} (hk : Keeps Q C U B s) :
    Keeps Q C U B (ruleFire s r v x blocked) := by
  unfold ruleFire
  repeat' first
    | with_reducible assumption
    | with_reducible apply ruleOn_keeps
    | with_reducible apply ruleTrip_keeps
    | with_reducible refine Keeps.ite ?_ (fun _ => ?_)
    | fail_if_no_progress with_reducible refine Keeps.upd ?_ rfl rfl rfl rfl rfl rfl
    | split
    | extract_lets
    | dsimp +zetaDelta only
    | dsimp only

theorem alarmOne_keeps {f : Formed} {res : Option (Option Rat × Rat)} {s : State} {r : Nat} (hk : Keeps Q C U B s) :
    Keeps Q C U B (alarmOne f res s r) := by
  unfold alarmOne
  repeat' first
    | with_reducible assumption
    | with_reducible apply modRule_keeps
    | with_reducible apply ruleFire_keeps
    | with_reducible apply ruleNaN_keeps
    | with_reducible refine Keeps.ite ?_ (fun _ => ?_)
    | fail_if_no_progress with_reducible refine Keeps.upd ?_ rfl rfl rfl rfl rfl rfl
    | intro _ _ _
    | intro _ _
    | split
    | extract_lets
    | dsimp +zetaDelta only
    | dsimp only

theorem alarmStep_keeps {s : State} {f : Formed} {res : Option (Option Rat × Rat)} (hk : Keeps Q C U B s) :
    Keeps Q C U B (alarmStep s f res) := by
  unfold alarmStep
  repeat' first
    | with_reducible assumption
    | with_reducible apply alarmOne_keeps
    | with_reducible refine foldl_keeps ?_ (fun _ _ _ => ?_)
    | with_reducible refine foldl1_keeps ?_ (fun _ _ _ => ?_)
    | with_reducible refine Keeps.ite ?_ (fun _ => ?_)
    | fail_if_no_progress with_reducible refine Keeps.upd ?_ rfl rfl rfl rfl rfl rfl
    | intro _ _ _
    | intro _ _
    | split
    | extract_lets
    | dsimp only

theorem captTimeFor_keeps {s : State} {x : Sample} (hk : Keeps Q C U B s) :
    Keeps Q C U B (captTimeFor s x) := by
  unfold captTimeFor
  repeat' first
    | with_reducible assumption
    | with_reducible apply capTime_keeps
    | with_reducible refine Keeps.ite ?_ (fun _ => ?_)
    | fail_if_no_progress with_reducible refine Keeps.upd ?_ rfl rfl rfl rfl rfl rfl
    | intro _ _ _
    | intro _ _
    | split
    | extract_lets
    | dsimp +zetaDelta only
    | dsimp only

theorem captRange_keeps {s : State} {x : Sample} (hk : Keeps Q C U B s) :
    Keeps Q C U B (captRange s x) := by
  unfold captRange
  repeat' first
    | with_reducible assumption
    | with_reducible apply capPush_keeps
    | with_reducible refine Keeps.ite ?_ (fun _ => ?_)
    | fail_if_no_progress with_reducible refine Keeps.upd ?_ rfl rfl rfl rfl rfl rfl
    | split
    | extract_lets
    | dsimp +zetaDelta only
    | dsimp only

theorem captWrite_keeps {s : State} {x : Sample} (hk : Keeps Q C U B s) :
    Keeps Q C U B (captWrite s x) := by
  unfold captWrite
  repeat' first
    | with_reducible assumption
    | with_reducible apply captRange_keeps
    | with_reducible apply captTimeFor_keeps
    | with_reducible apply capPush_keeps
    | with_reducible apply capClose_keeps
    | with_reducible refine Keeps.ite ?_ (fun _ => ?_)
    | fail_if_no_progress with_reducible refine Keeps.upd ?_ rfl rfl rfl rfl rfl rfl
    | split
    | extract_lets
    | dsimp +zetaDelta only
    | dsimp only

theorem captStep_keeps {s : State} {f : Formed} (hk : Keeps Q C U B s) :
    Keeps Q C U B (captStep s f) := by
  unfold captStep
  repeat' first
    | with_reducible assumption
    | with_reducible apply captWrite_keeps
    | with_reducible refine Keeps.ite ?_ (fun _ => ?_)
    | fail_if_no_progress with_reducible refine Keeps.upd ?_ rfl rfl rfl rfl rfl rfl
    | split
    | extract_lets
    | dsimp only

theorem streamOverflow_keeps {s : State} {tag : Nat} {sf : Nat} (hk : Keeps Q C U B s) :
    Keeps Q C U B (streamOverflow s tag sf) := by
  unfold streamOverflow
  repeat' first
    | with_reducible assumption
    | fail_if_no_progress with_reducible refine Keeps.upd ?_ rfl rfl rfl rfl rfl rfl
    | extract_lets
    | dsimp +zetaDelta only
    | dsimp only

theorem streamStep_keeps {s : State} {x : Sample} (hk : Keeps Q C U B s) :
    Keeps Q C U B (streamStep s x) := by
  unfold streamStep
  repeat' first
    | with_reducible assumption
    | with_reducible apply streamOverflow_keeps
    | with_reducible refine Keeps.ite ?_ (fun _ => ?_)
    | fail_if_no_progress with_reducible refine Keeps.upd ?_ rfl rfl rfl rfl rfl rfl
    | split
    | extract_lets
    | dsimp +zetaDelta only
    | dsimp only

theorem passSample_keeps {s : State} {f : Formed} {res : Option (Option Rat × Rat)} (hk : Keeps Q C U B s) :
    Keeps Q C U B (passSample s f res) := by
  unfold passSample
  repeat' first
    | with_reducible assumption
    | with_reducible apply streamStep_keeps
    | with_reducible apply captStep_keeps
    | with_reducible apply alarmStep_keeps
    | with_reducible apply tripStep_keeps
    | fail_if_no_progress with_reducible refine Keeps.upd ?_ rfl rfl rfl rfl rfl rfl
    | extract_lets
    | dsimp only

theorem boundStart_keeps {s : State} {n : Nat} (hU : UFree U) (hk : Keeps Q C U B s) :
    Keeps Q C U B (boundStart s n) := by
  unfold boundStart
  repeat' first
    | with_reducible assumption
    | with_reducible apply modFront_keeps
    | with_reducible apply modChain_keeps
    | with_reducible apply tallyEvent_keeps
    | with_reducible apply logE_keeps
    | with_reducible refine Keeps.ite ?_ (fun _ => ?_)
    | fail_if_no_progress with_reducible refine Keeps.upd ?_ rfl rfl rfl rfl rfl rfl
    | intro _ _ _
    | intro _ _
    | split
    | extract_lets
    | dsimp +zetaDelta only
    | dsimp only

theorem vigilStep_keeps {s : State} {n : Nat} {r : Nat} (hk : Keeps Q C U B s) :
    Keeps Q C U B (vigilStep s n r) := by
  unfold vigilStep
  repeat' first
    | with_reducible assumption
    | with_reducible apply modFront_keeps
    | with_reducible refine Keeps.ite ?_ (fun _ => ?_)
    | fail_if_no_progress with_reducible refine Keeps.upd ?_ rfl rfl rfl rfl rfl rfl
    | intro _ _ _
    | intro _ _
    | split
    | extract_lets
    | dsimp only

theorem rangerTake_keeps {s : State} {n : Nat} {r : Nat} (hk : Keeps Q C U B s) :
    Keeps Q C U B (rangerTake s n r) := by
  unfold rangerTake
  repeat' first
    | with_reducible assumption
    | with_reducible apply vigilStep_keeps
    | with_reducible apply rangeAsk_keeps
    | with_reducible refine Keeps.ite ?_ (fun _ => ?_)
    | fail_if_no_progress with_reducible refine Keeps.upd ?_ rfl rfl rfl rfl rfl rfl
    | split
    | extract_lets
    | dsimp only

theorem rangerQuiet_keeps {s : State} {n : Nat} (hk : Keeps Q C U B s) :
    Keeps Q C U B (rangerQuiet s n) := by
  unfold rangerQuiet
  repeat' first
    | with_reducible assumption
    | with_reducible apply boundEnd_keeps
    | with_reducible apply modFront_keeps
    | with_reducible refine Keeps.ite ?_ (fun _ => ?_)
    | fail_if_no_progress with_reducible refine Keeps.upd ?_ rfl rfl rfl rfl rfl rfl
    | intro _ _ _
    | intro _ _
    | split
    | extract_lets
    | dsimp only

theorem rangerStep_keeps {s : State} {n : Nat} {v : Int} {q : Nat} {blocked : Bool} {tone : Bool} (hU : UFree U) (hk :
    Keeps Q C U B s) :
    Keeps Q C U B (rangerStep s n v q blocked tone) := by
  unfold rangerStep
  repeat' first
    | with_reducible assumption
    | with_reducible apply modFront_keeps
    | with_reducible apply rangerQuiet_keeps
    | with_reducible apply rangerTake_keeps
    | with_reducible apply boundStart_keeps
    | with_reducible refine Keeps.ite ?_ (fun _ => ?_)
    | fail_if_no_progress with_reducible refine Keeps.upd ?_ rfl rfl rfl rfl rfl rfl
    | intro _ _ _
    | intro _ _
    | split
    | extract_lets
    | dsimp +zetaDelta only
    | dsimp only

theorem leadTake_keeps {s : State} {n : Nat} {r : Rat} (hC : CfgClosed C) (hk : Keeps Q C U B s) :
    Keeps Q C U B (leadTake s n r) := by
  unfold leadTake
  repeat' first
    | with_reducible assumption
    | with_reducible apply modMox_keeps
    | with_reducible apply setParam_keeps
    | with_reducible apply logE_keeps
    | with_reducible refine Keeps.ite ?_ (fun _ => ?_)
    | fail_if_no_progress with_reducible refine Keeps.upd ?_ rfl rfl rfl rfl rfl rfl
    | intro _ _ _
    | intro _ _
    | split
    | extract_lets
    | dsimp +zetaDelta only
    | dsimp only

theorem zSettle_keeps {s : State} (hk : Keeps Q C U B s) :
    Keeps Q C U B (zSettle s) := by
  unfold zSettle
  repeat' first
    | with_reducible assumption
    | with_reducible apply zCheckDone_keeps
    | with_reducible refine Keeps.ite ?_ (fun _ => ?_)
    | fail_if_no_progress with_reducible refine Keeps.upd ?_ rfl rfl rfl rfl rfl rfl
    | split
    | extract_lets
    | dsimp only

theorem zFinish_keeps {s : State} {r : ZRun} {t0 : Nat} {zc : ZChan} (hU : UFree U) (hk : Keeps Q C U B s) :
    Keeps Q C U B (zFinish s r t0 zc).1 := by
  unfold zFinish
  repeat' first
    | with_reducible assumption
    | with_reducible apply zEndMark_keeps
    | with_reducible apply zOutcome_keeps
    | with_reducible apply tallyEvent_keeps
    | with_reducible refine Keeps.ite ?_ (fun _ => ?_)
    | fail_if_no_progress with_reducible refine Keeps.upd ?_ rfl rfl rfl rfl rfl rfl
    | split
    | extract_lets
    | dsimp +zetaDelta only
    | dsimp only

theorem zSample_keeps {s : State} {x : Sample} {q0 : Nat} (hU : UFree U) (hk : Keeps Q C U B s) :
    Keeps Q C U B (zSample s x q0).1 := by
  unfold zSample
  repeat' first
    | with_reducible assumption
    | with_reducible apply zFinish_keeps
    | with_reducible refine Keeps.ite ?_ (fun _ => ?_)
    | fail_if_no_progress with_reducible refine Keeps.upd ?_ rfl rfl rfl rfl rfl rfl
    | intro _ _ _
    | intro _ _
    | split
    | extract_lets
    | dsimp +zetaDelta only
    | dsimp only

theorem noteSample_keeps {s : State} {x : Sample} {b : Sample} (hk : Keeps Q C U B s) :
    Keeps Q C U B (noteSample s x b) := by
  unfold noteSample
  repeat' first
    | with_reducible assumption
    | with_reducible apply modChain_keeps
    | with_reducible apply modMox_keeps
    | with_reducible apply modBrg_keeps
    | with_reducible refine Keeps.ite ?_ (fun _ => ?_)
    | fail_if_no_progress with_reducible refine Keeps.upd ?_ rfl rfl rfl rfl rfl rfl
    | intro _ _ _
    | intro _ _
    | split
    | extract_lets
    | dsimp +zetaDelta only
    | dsimp only

theorem convDone_keeps {s : State} {c : Nat} (hk : Keeps Q C U B s) :
    Keeps Q C U B (convDone s c) := by
  unfold convDone
  repeat' first
    | with_reducible assumption
    | with_reducible apply snapEnd_keeps
    | with_reducible apply modChain_keeps
    | with_reducible refine Keeps.ite ?_ (fun _ => ?_)
    | fail_if_no_progress with_reducible refine Keeps.upd ?_ rfl rfl rfl rfl rfl rfl
    | intro _ _ _
    | intro _ _
    | split
    | extract_lets
    | dsimp only

theorem sampleMain_keeps {s : State} {c : Nat} {o : ChainOut} (hC : CfgClosed C) (hU : UFree U) (hk : Keeps Q C U B s)
    :
    Keeps Q C U B (sampleMain s c o) := by
  unfold sampleMain
  repeat' first
    | with_reducible assumption
    | with_reducible apply modChain_keeps
    | with_reducible apply zSample_keeps
    | with_reducible apply noteSample_keeps
    | with_reducible apply passSample_keeps
    | with_reducible apply leadTake_keeps
    | with_reducible apply zSettle_keeps
    | with_reducible apply rangerStep_keeps
    | with_reducible apply convDone_keeps
    | with_reducible refine Keeps.ite ?_ (fun _ => ?_)
    | fail_if_no_progress with_reducible refine Keeps.upd ?_ rfl rfl rfl rfl rfl rfl
    | intro _ _ _
    | intro _ _
    | split
    | extract_lets
    | dsimp +zetaDelta only
    | dsimp only

theorem chainOutput_keeps {s : State} {c : Nat} (hC : CfgClosed C) (hU : UFree U) (hk : Keeps Q C U B s) :
    Keeps Q C U B (chainOutput s c) := by
  unfold chainOutput
  repeat' first
    | with_reducible assumption
    | with_reducible apply modChain_keeps
    | with_reducible apply inPast_keeps
    | with_reducible apply sampleMain_keeps
    | with_reducible refine Keeps.ite ?_ (fun _ => ?_)
    | fail_if_no_progress with_reducible refine Keeps.upd ?_ rfl rfl rfl rfl rfl rfl
    | intro _ _ _
    | intro _ _
    | split
    | extract_lets
    | dsimp +zetaDelta only
    | dsimp only

theorem monitorLimits_keeps {s : State} {c : Nat} {v : Rat} (hU : UFree U) (hk : Keeps Q C U B s) :
    Keeps Q C U B (monitorLimits s c v) := by
  unfold monitorLimits
  repeat' first
    | with_reducible assumption
    | with_reducible apply tallyEvent_keeps
    | with_reducible refine Keeps.ite ?_ (fun _ => ?_)
    | fail_if_no_progress with_reducible refine Keeps.upd ?_ rfl rfl rfl rfl rfl rfl
    | split
    | extract_lets
    | dsimp +zetaDelta only
    | dsimp only

theorem hkNote_keeps {s : State} {x : Sample} (hk : Keeps Q C U B s) :
    Keeps Q C U B (hkNote s x) := by
  unfold hkNote
  repeat' first
    | with_reducible assumption
    | with_reducible refine Keeps.ite ?_ (fun _ => ?_)
    | fail_if_no_progress with_reducible refine Keeps.upd ?_ rfl rfl rfl rfl rfl rfl
    | split
    | extract_lets
    | dsimp +zetaDelta only
    | dsimp only

theorem hkOutput_keeps {s : State} {c : Nat} (hU : UFree U) (hk : Keeps Q C U B s) :
    Keeps Q C U B (hkOutput s c) := by
  unfold hkOutput
  repeat' first
    | with_reducible assumption
    | with_reducible apply passSample_keeps
    | with_reducible apply hkNote_keeps
    | with_reducible apply monitorLimits_keeps
    | with_reducible refine Keeps.ite ?_ (fun _ => ?_)
    | fail_if_no_progress with_reducible refine Keeps.upd ?_ rfl rfl rfl rfl rfl rfl
    | split
    | extract_lets
    | dsimp +zetaDelta only
    | dsimp only

theorem execSampleOutput_keeps {c : Fin 24} {s : State} (hC : CfgClosed C) (hU : UFree U) (hk : Keeps Q C U B s) :
    Keeps Q C U B (outState s (execSampleOutput c s)) := by
  unfold execSampleOutput outState
  try dsimp -zeta only
  repeat' first
    | with_reducible assumption
    | with_reducible apply chainOutput_keeps
    | with_reducible apply hkOutput_keeps
    | with_reducible refine Keeps.ite ?_ (fun _ => ?_)
    | fail_if_no_progress with_reducible refine Keeps.upd ?_ rfl rfl rfl rfl rfl rfl
    | split
    | extract_lets
    | dsimp only

theorem fieldAnswer_keeps {s : State} (hk : Keeps Q C U B s) :
    Keeps Q C U B (fieldAnswer s) := by
  unfold fieldAnswer
  repeat' first
    | with_reducible assumption
    | with_reducible refine Keeps.ite ?_ (fun _ => ?_)
    | fail_if_no_progress with_reducible refine Keeps.upd ?_ rfl rfl rfl rfl rfl rfl
    | split
    | extract_lets
    | dsimp only

theorem fieldSends_keeps {s : State} (hk : Keeps Q C U B s) :
    Keeps Q C U B (fieldSends s) := by
  unfold fieldSends
  repeat' first
    | with_reducible assumption
    | with_reducible apply fieldAnswer_keeps
    | with_reducible refine Keeps.ite ?_ (fun _ => ?_)
    | fail_if_no_progress with_reducible refine Keeps.upd ?_ rfl rfl rfl rfl rfl rfl
    | split
    | extract_lets
    | dsimp +zetaDelta only
    | dsimp only

theorem fieldSent_keeps {s : State} {j : Nat} (hk : Keeps Q C U B s) :
    Keeps Q C U B (fieldSent s j) := by
  unfold fieldSent
  repeat' first
    | with_reducible assumption
    | with_reducible refine Keeps.ite ?_ (fun _ => ?_)
    | fail_if_no_progress with_reducible refine Keeps.upd ?_ rfl rfl rfl rfl rfl rfl
    | split
    | extract_lets
    | dsimp only

theorem satStart_keeps {s : State} {n : Nat} {d : Nat} (hU : UFree U) (hk : Keeps Q C U B s) :
    Keeps Q C U B (satStart s n d) := by
  unfold satStart
  repeat' first
    | with_reducible assumption
    | with_reducible apply modFront_keeps
    | with_reducible apply modChain_keeps
    | with_reducible apply zSpoilChan_keeps
    | with_reducible apply neighbourOpen_keeps
    | with_reducible apply rangeAsk_keeps
    | with_reducible apply vigilStep_keeps
    | with_reducible apply boundStart_keeps
    | with_reducible refine Keeps.ite ?_ (fun _ => ?_)
    | fail_if_no_progress with_reducible refine Keeps.upd ?_ rfl rfl rfl rfl rfl rfl
    | intro _ _ _
    | intro _ _
    | split
    | extract_lets
    | dsimp +zetaDelta only
    | dsimp only

theorem satCode_keeps {s : State} {n : Nat} {d : Nat} {code : Nat} (hU : UFree U) (hk : Keeps Q C U B s) :
    Keeps Q C U B (satCode s n d code) := by
  unfold satCode
  repeat' first
    | with_reducible assumption
    | with_reducible apply modFront_keeps
    | with_reducible apply satStart_keeps
    | with_reducible refine Keeps.ite ?_ (fun _ => ?_)
    | fail_if_no_progress with_reducible refine Keeps.upd ?_ rfl rfl rfl rfl rfl rfl
    | intro _ _ _
    | intro _ _
    | split
    | extract_lets
    | dsimp +zetaDelta only
    | dsimp only

theorem satBridge_keeps {s : State} {b : Nat} {d : Nat} {code : Nat} (hk : Keeps Q C U B s) :
    Keeps Q C U B (satBridge s b d code) := by
  unfold satBridge
  repeat' first
    | with_reducible assumption
    | with_reducible apply modBrg_keeps
    | with_reducible apply modChain_keeps
    | with_reducible apply settleFrom_keeps
    | with_reducible refine Keeps.ite ?_ (fun _ => ?_)
    | fail_if_no_progress with_reducible refine Keeps.upd ?_ rfl rfl rfl rfl rfl rfl
    | intro _ _ _
    | intro _ _
    | split
    | extract_lets
    | dsimp +zetaDelta only
    | dsimp only

theorem heaterCodes_keeps {s : State} {codes : BitVec 92} {pd : Nat} {void : Bool} {held : Bool} {n : Nat} (hk : Keeps
    Q C U B s) :
    Keeps Q C U B (heaterCodes s codes pd void held n) := by
  unfold heaterCodes
  repeat' first
    | with_reducible assumption
    | with_reducible apply modHtr_keeps
    | with_reducible refine Keeps.ite ?_ (fun _ => ?_)
    | fail_if_no_progress with_reducible refine Keeps.upd ?_ rfl rfl rfl rfl rfl rfl
    | intro _ _ _
    | intro _ _
    | split
    | extract_lets
    | dsimp +zetaDelta only
    | dsimp only

theorem seamEvent_keeps {s : State} {i : Nat} (hU : UFree U) (hk : Keeps Q C U B s) :
    Keeps Q C U B (seamEvent s i) := by
  unfold seamEvent
  repeat' first
    | with_reducible assumption
    | with_reducible apply tallyEvent_keeps
    | with_reducible refine Keeps.ite ?_ (fun _ => ?_)
    | fail_if_no_progress with_reducible refine Keeps.upd ?_ rfl rfl rfl rfl rfl rfl
    | split
    | extract_lets
    | dsimp only

theorem hkRoll_keeps {s : State} {d : Nat} (hU : UFree U) (hk : Keeps Q C U B s) :
    Keeps Q C U B (hkRoll s d) := by
  unfold hkRoll
  repeat' first
    | with_reducible assumption
    | with_reducible apply seamEvent_keeps
    | with_reducible refine Keeps.ite ?_ (fun _ => ?_)
    | fail_if_no_progress with_reducible refine Keeps.upd ?_ rfl rfl rfl rfl rfl rfl
    | split
    | extract_lets
    | dsimp +zetaDelta only
    | dsimp only

theorem hkCode_keeps {s : State} {codes : BitVec 92} {pd : Nat} {d : Nat} (hU : UFree U) (hk : Keeps Q C U B s) :
    Keeps Q C U B (hkCode s codes pd d) := by
  unfold hkCode
  repeat' first
    | with_reducible assumption
    | with_reducible apply hkRoll_keeps
    | with_reducible refine Keeps.ite ?_ (fun _ => ?_)
    | fail_if_no_progress with_reducible refine Keeps.upd ?_ rfl rfl rfl rfl rfl rfl
    | split
    | extract_lets
    | dsimp +zetaDelta only
    | dsimp only

theorem takeCodes_keeps {s : State} {codes : BitVec 92} {d : Nat} {pd : Nat} {void : Bool} {held : Bool} (hU : UFree
    U) (hk : Keeps Q C U B s) :
    Keeps Q C U B (takeCodes s codes d pd void held) := by
  unfold takeCodes
  repeat' first
    | with_reducible assumption
    | with_reducible apply forEach_keeps
    | with_reducible apply chainCode_keeps
    | with_reducible apply satCode_keeps
    | with_reducible apply satBridge_keeps
    | with_reducible apply heaterCodes_keeps
    | with_reducible apply hkCode_keeps
    | with_reducible refine forEach_keeps ?_ (fun _ _ _ => ?_)
    | fail_if_no_progress with_reducible refine Keeps.upd ?_ rfl rfl rfl rfl rfl rfl
    | intro _ _ _
    | intro _ _
    | extract_lets
    | dsimp +zetaDelta only
    | dsimp only

theorem pinTick_keeps {s : State} {c : Nat} {count : Bool} {tags : Bool} {u : Nat} (hk : Keeps Q C U B s) :
    Keeps Q C U B (pinTick s c count tags u) := by
  unfold pinTick
  repeat' first
    | with_reducible assumption
    | with_reducible apply modChain_keeps
    | with_reducible apply modFront_keeps
    | with_reducible apply neighbourOpen_keeps
    | with_reducible apply modBrg_keeps
    | with_reducible refine Keeps.ite ?_ (fun _ => ?_)
    | fail_if_no_progress with_reducible refine Keeps.upd ?_ rfl rfl rfl rfl rfl rfl
    | intro _ _ _
    | intro _ _
    | split
    | extract_lets
    | dsimp +zetaDelta only
    | dsimp only

theorem pinReport_keeps {s : State} {j : Nat} {byte : Nat} {lost : Bool} (hk : Keeps Q C U B s) :
    Keeps Q C U B (pinReport s j byte lost) := by
  unfold pinReport
  repeat' first
    | with_reducible assumption
    | with_reducible apply forEach_keeps
    | with_reducible apply pinTick_keeps
    | with_reducible apply modHtr_keeps
    | with_reducible refine forEach_keeps ?_ (fun _ _ _ => ?_)
    | with_reducible refine foldl_keeps ?_ (fun _ _ _ => ?_)
    | with_reducible refine foldl1_keeps ?_ (fun _ _ _ => ?_)
    | with_reducible refine Keeps.ite ?_ (fun _ => ?_)
    | fail_if_no_progress with_reducible refine Keeps.upd ?_ rfl rfl rfl rfl rfl rfl
    | intro _ _ _
    | intro _ _
    | split
    | extract_lets
    | dsimp +zetaDelta only
    | dsimp only

theorem pinClose_keeps {s : State} {c : Nat} {upto : Nat} (hk : Keeps Q C U B s) :
    Keeps Q C U B (pinClose s c upto) := by
  unfold pinClose
  repeat' first
    | with_reducible assumption
    | with_reducible apply neighbourClose_keeps
    | with_reducible apply modFront_keeps
    | with_reducible apply modBrg_keeps
    | with_reducible refine Keeps.ite ?_ (fun _ => ?_)
    | fail_if_no_progress with_reducible refine Keeps.upd ?_ rfl rfl rfl rfl rfl rfl
    | intro _ _ _
    | intro _ _
    | split
    | extract_lets
    | dsimp only

theorem clampTally_keeps {s : State} {flags : BitVec 8} (hU : UFree U) (hk : Keeps Q C U B s) :
    Keeps Q C U B (clampTally s flags) := by
  unfold clampTally
  repeat' first
    | with_reducible assumption
    | with_reducible apply forEach_keeps
    | with_reducible apply tallyEvent_keeps
    | with_reducible refine forEach_keeps ?_ (fun _ _ _ => ?_)
    | with_reducible refine Keeps.ite ?_ (fun _ => ?_)
    | fail_if_no_progress with_reducible refine Keeps.upd ?_ rfl rfl rfl rfl rfl rfl
    | intro _ _ _
    | intro _ _
    | split
    | extract_lets
    | dsimp +zetaDelta only
    | dsimp only

theorem frontsLost_keeps {s : State} (hk : Keeps Q C U B s) :
    Keeps Q C U B (frontsLost s) := by
  unfold frontsLost
  repeat' first
    | with_reducible assumption
    | with_reducible apply forEach_keeps
    | with_reducible apply playEnd_keeps
    | with_reducible apply logE_keeps
    | with_reducible apply modCell_keeps
    | with_reducible apply taskEnd_keeps
    | with_reducible apply boundEnd_keeps
    | with_reducible apply satEnd_keeps
    | with_reducible apply modFront_keeps
    | with_reducible apply modChain_keeps
    | with_reducible refine forEach_keeps ?_ (fun _ _ _ => ?_)
    | with_reducible refine foldl_keeps ?_ (fun _ _ _ => ?_)
    | with_reducible refine foldl1_keeps ?_ (fun _ _ _ => ?_)
    | with_reducible refine Keeps.ite ?_ (fun _ => ?_)
    | fail_if_no_progress with_reducible refine Keeps.upd ?_ rfl rfl rfl rfl rfl rfl
    | intro _ _ _
    | intro _ _
    | split
    | extract_lets
    | dsimp +zetaDelta only
    | dsimp only

theorem frstReport_keeps {s : State} (hU : UFree U) (hk : Keeps Q C U B s) :
    Keeps Q C U B (frstReport s) := by
  unfold frstReport
  repeat' first
    | with_reducible assumption
    | with_reducible apply frontsLost_keeps
    | with_reducible apply enterSafe_keeps
    | with_reducible apply tallyNow_keeps
    | with_reducible apply seamEvent_keeps
    | with_reducible apply regWrite_keeps
    | with_reducible refine Keeps.ite ?_ (fun _ => ?_)
    | fail_if_no_progress with_reducible refine Keeps.upd ?_ rfl rfl rfl rfl rfl rfl
    | split
    | extract_lets
    | dsimp +zetaDelta only
    | dsimp only

theorem stat0_keeps {s : State} {b : Nat} (hU : UFree U) (hk : Keeps Q C U B s) :
    Keeps Q C U B (stat0 s b) := by
  unfold stat0
  repeat' first
    | with_reducible assumption
    | with_reducible apply seamEvent_keeps
    | with_reducible apply tallyNow_keeps
    | with_reducible refine Keeps.ite ?_ (fun _ => ?_)
    | fail_if_no_progress with_reducible refine Keeps.upd ?_ rfl rfl rfl rfl rfl rfl
    | split
    | extract_lets
    | dsimp +zetaDelta only
    | dsimp only

theorem cellStuck_keeps {s : State} {a : Nat} (hk : Keeps Q C U B s) :
    Keeps Q C U B (cellStuck s a) := by
  unfold cellStuck
  repeat' first
    | with_reducible assumption
    | with_reducible apply modCell_keeps
    | with_reducible refine Keeps.ite ?_ (fun _ => ?_)
    | fail_if_no_progress with_reducible refine Keeps.upd ?_ rfl rfl rfl rfl rfl rfl
    | intro _ _ _
    | intro _ _
    | split
    | extract_lets
    | dsimp +zetaDelta only
    | dsimp only

theorem seamUpNow_keeps {s : State} {frev : Byte} (hU : UFree U) (hk : Keeps Q C U B s) :
    Keeps Q C U B (seamUpNow s frev) := by
  unfold seamUpNow
  repeat' first
    | with_reducible assumption
    | with_reducible apply regWrite_keeps
    | with_reducible apply enterSafe_keeps
    | with_reducible refine Keeps.ite ?_ (fun _ => ?_)
    | fail_if_no_progress with_reducible refine Keeps.updU hU ?_ rfl rfl rfl rfl rfl
    | fail_if_no_progress with_reducible refine Keeps.upd ?_ rfl rfl rfl rfl rfl rfl
    | split
    | extract_lets
    | dsimp +zetaDelta only
    | dsimp only

theorem fieldAnswered_keeps {s : State} {addr : Byte} {data : BitVec 16} (hk : Keeps Q C U B s) :
    Keeps Q C U B (fieldAnswered s addr data) := by
  unfold fieldAnswered
  repeat' first
    | with_reducible assumption
    | with_reducible refine Keeps.ite ?_ (fun _ => ?_)
    | fail_if_no_progress with_reducible refine Keeps.upd ?_ rfl rfl rfl rfl rfl rfl
    | intro _ _ _
    | intro _ _
    | split
    | extract_lets
    | dsimp +zetaDelta only
    | dsimp only

theorem readBack_keeps {s : State} {acc : RegAcc} {data : BitVec 16} (hU : UFree U) (hk : Keeps Q C U B s) :
    Keeps Q C U B (readBack s acc data) := by
  unfold readBack
  repeat' first
    | with_reducible assumption
    | with_reducible apply fieldAnswered_keeps
    | with_reducible apply seamUpNow_keeps
    | with_reducible apply seamEvent_keeps
    | with_reducible apply tallyNow_keeps
    | with_reducible apply cellStuck_keeps
    | with_reducible refine Keeps.ite ?_ (fun _ => ?_)
    | fail_if_no_progress with_reducible refine Keeps.upd ?_ rfl rfl rfl rfl rfl rfl
    | split
    | extract_lets
    | dsimp +zetaDelta only
    | dsimp only

theorem readSlot_keeps {s : State} {got : Option (BitVec 16)} (hU : UFree U) (hk : Keeps Q C U B s) :
    Keeps Q C U B (readSlot s got) := by
  unfold readSlot
  repeat' first
    | with_reducible assumption
    | with_reducible apply readBack_keeps
    | fail_if_no_progress with_reducible refine Keeps.upd ?_ rfl rfl rfl rfl rfl rfl
    | intro _ _ _
    | intro _ _
    | split
    | extract_lets
    | dsimp +zetaDelta only
    | dsimp only

theorem statRead_keeps {s : State} {j : Nat} {b : Nat} (hU : UFree U) (hk : Keeps Q C U B s) :
    Keeps Q C U B (statRead s j b) := by
  unfold statRead
  repeat' first
    | with_reducible assumption
    | with_reducible apply readSlot_keeps
    | with_reducible refine Keeps.ite ?_ (fun _ => ?_)
    | fail_if_no_progress with_reducible refine Keeps.upd ?_ rfl rfl rfl rfl rfl rfl
    | split
    | extract_lets
    | dsimp +zetaDelta only
    | dsimp only

theorem readLost_keeps {s : State} {j : Nat} (hU : UFree U) (hk : Keeps Q C U B s) :
    Keeps Q C U B (readLost s j) := by
  unfold readLost
  repeat' first
    | with_reducible assumption
    | with_reducible apply readSlot_keeps
    | with_reducible refine Keeps.ite ?_ (fun _ => ?_)
    | fail_if_no_progress with_reducible refine Keeps.upd ?_ rfl rfl rfl rfl rfl rfl
    | split
    | extract_lets
    | dsimp +zetaDelta only
    | dsimp only

theorem filmFaultSf_keeps {s : State} {n : Nat} (hk : Keeps Q C U B s) :
    Keeps Q C U B (filmFaultSf s n) := by
  unfold filmFaultSf
  repeat' first
    | with_reducible assumption
    | with_reducible apply modChain_keeps
    | fail_if_no_progress with_reducible refine Keeps.upd ?_ rfl rfl rfl rfl rfl rfl
    | intro _ _ _
    | intro _ _
    | extract_lets
    | dsimp only

theorem heaterLimit_keeps {s : State} {n : Nat} {report : Bool} (hk : Keeps Q C U B s) :
    Keeps Q C U B (heaterLimit s n report) := by
  unfold heaterLimit
  repeat' first
    | with_reducible assumption
    | with_reducible apply modHtr_keeps
    | with_reducible apply filmFaultSf_keeps
    | with_reducible refine Keeps.ite ?_ (fun _ => ?_)
    | fail_if_no_progress with_reducible refine Keeps.upd ?_ rfl rfl rfl rfl rfl rfl
    | intro _ _ _
    | intro _ _
    | split
    | extract_lets
    | dsimp +zetaDelta only
    | dsimp only

theorem statHeater_keeps {s : State} {b : Nat} {n : Nat} (hk : Keeps Q C U B s) :
    Keeps Q C U B (statHeater s b n) := by
  unfold statHeater
  repeat' first
    | with_reducible assumption
    | with_reducible apply modHtr_keeps
    | with_reducible apply heaterLimit_keeps
    | with_reducible apply filmFaultSf_keeps
    | with_reducible apply regWrite_keeps
    | with_reducible refine Keeps.ite ?_ (fun _ => ?_)
    | fail_if_no_progress with_reducible refine Keeps.upd ?_ rfl rfl rfl rfl rfl rfl
    | intro _ _ _
    | intro _ _
    | split
    | extract_lets
    | dsimp +zetaDelta only
    | dsimp only

theorem stat12_keeps {s : State} {b : Nat} (hk : Keeps Q C U B s) :
    Keeps Q C U B (stat12 s b) := by
  unfold stat12
  repeat' first
    | with_reducible assumption
    | with_reducible apply forEach_keeps
    | with_reducible apply statHeater_keeps
    | with_reducible refine forEach_keeps ?_ (fun _ _ _ => ?_)
    | fail_if_no_progress with_reducible refine Keeps.upd ?_ rfl rfl rfl rfl rfl rfl
    | intro _ _ _
    | intro _ _
    | extract_lets
    | dsimp +zetaDelta only
    | dsimp only

theorem coverMark_keeps {s : State} {c : Nat} {k : MarkKind} (hk : Keeps Q C U B s) :
    Keeps Q C U B (coverMark s c k) := by
  unfold coverMark
  repeat' first
    | with_reducible assumption
    | with_reducible apply modChain_keeps
    | fail_if_no_progress with_reducible refine Keeps.upd ?_ rfl rfl rfl rfl rfl rfl
    | extract_lets
    | dsimp only

theorem bridgeLimit_keeps {s : State} {b : Nat} {report : Bool} (hU : UFree U) (hk : Keeps Q C U B s) :
    Keeps Q C U B (bridgeLimit s b report) := by
  unfold bridgeLimit
  repeat' first
    | with_reducible assumption
    | with_reducible apply coverMark_keeps
    | with_reducible apply modBrg_keeps
    | with_reducible apply tallyEvent_keeps
    | with_reducible refine Keeps.ite ?_ (fun _ => ?_)
    | fail_if_no_progress with_reducible refine Keeps.upd ?_ rfl rfl rfl rfl rfl rfl
    | intro _ _ _
    | intro _ _
    | split
    | extract_lets
    | dsimp +zetaDelta only
    | dsimp only

theorem bridgeOffTicks_keeps {s : State} {b : Nat} (hk : Keeps Q C U B s) :
    Keeps Q C U B (bridgeOffTicks s b) := by
  unfold bridgeOffTicks
  repeat' first
    | with_reducible assumption
    | with_reducible apply modChain_keeps
    | with_reducible apply coverMark_keeps
    | fail_if_no_progress with_reducible refine Keeps.upd ?_ rfl rfl rfl rfl rfl rfl
    | extract_lets
    | dsimp +zetaDelta only
    | dsimp only

theorem bridgeSeenOff_keeps {s : State} {b : Nat} (hk : Keeps Q C U B s) :
    Keeps Q C U B (bridgeSeenOff s b) := by
  unfold bridgeSeenOff
  repeat' first
    | with_reducible assumption
    | with_reducible apply bridgeOffTicks_keeps
    | with_reducible apply regWrite_keeps
    | with_reducible refine Keeps.ite ?_ (fun _ => ?_)
    | fail_if_no_progress with_reducible refine Keeps.upd ?_ rfl rfl rfl rfl rfl rfl
    | split
    | extract_lets
    | dsimp +zetaDelta only
    | dsimp only

theorem aoutLost_keeps {s : State} (hk : Keeps Q C U B s) :
    Keeps Q C U B (aoutLost s) := by
  unfold aoutLost
  repeat' first
    | with_reducible assumption
    | with_reducible apply aoutOff_keeps
    | fail_if_no_progress with_reducible refine Keeps.upd ?_ rfl rfl rfl rfl rfl rfl
    | extract_lets
    | dsimp +zetaDelta only
    | dsimp only

theorem stat13_keeps {s : State} {b : Nat} (hU : UFree U) (hk : Keeps Q C U B s) :
    Keeps Q C U B (stat13 s b) := by
  unfold stat13
  repeat' first
    | with_reducible assumption
    | with_reducible apply forEach_keeps
    | with_reducible apply modBrg_keeps
    | with_reducible apply bridgeLimit_keeps
    | with_reducible apply bridgeSeenOff_keeps
    | with_reducible apply aoutLost_keeps
    | with_reducible apply frstReport_keeps
    | with_reducible refine forEach_keeps ?_ (fun _ _ _ => ?_)
    | with_reducible refine Keeps.ite ?_ (fun _ => ?_)
    | fail_if_no_progress with_reducible refine Keeps.upd ?_ rfl rfl rfl rfl rfl rfl
    | intro _ _ _
    | intro _ _
    | split
    | extract_lets
    | dsimp +zetaDelta only
    | dsimp only

theorem statTake_keeps {s : State} {j : Nat} {b : Nat} (hU : UFree U) (hk : Keeps Q C U B s) :
    Keeps Q C U B (statTake s j b) := by
  unfold statTake
  repeat' first
    | with_reducible assumption
    | with_reducible apply stat0_keeps
    | with_reducible apply statRead_keeps
    | with_reducible apply stat12_keeps
    | with_reducible apply stat13_keeps
    | with_reducible apply pinReport_keeps
    | fail_if_no_progress with_reducible refine Keeps.upd ?_ rfl rfl rfl rfl rfl rfl
    | split
    | extract_lets
    | dsimp only

theorem statLost_keeps {s : State} {j : Nat} (hU : UFree U) (hk : Keeps Q C U B s) :
    Keeps Q C U B (statLost s j) := by
  unfold statLost
  repeat' first
    | with_reducible assumption
    | with_reducible apply readLost_keeps
    | with_reducible apply forEach_keeps
    | with_reducible apply heaterLimit_keeps
    | with_reducible apply modBrg_keeps
    | with_reducible apply bridgeLimit_keeps
    | with_reducible apply bridgeOffTicks_keeps
    | with_reducible apply pinReport_keeps
    | with_reducible refine forEach_keeps ?_ (fun _ _ _ => ?_)
    | with_reducible refine Keeps.ite ?_ (fun _ => ?_)
    | fail_if_no_progress with_reducible refine Keeps.upd ?_ rfl rfl rfl rfl rfl rfl
    | intro _ _ _
    | intro _ _
    | split
    | extract_lets
    | dsimp +zetaDelta only
    | dsimp only

theorem episodesClose_keeps {s : State} {j : Nat} {d : Nat} (hk : Keeps Q C U B s) :
    Keeps Q C U B (episodesClose s j d) := by
  unfold episodesClose
  repeat' first
    | with_reducible assumption
    | with_reducible apply forEach_keeps
    | with_reducible apply pinClose_keeps
    | with_reducible refine forEach_keeps ?_ (fun _ _ _ => ?_)
    | fail_if_no_progress with_reducible refine Keeps.upd ?_ rfl rfl rfl rfl rfl rfl
    | intro _ _ _
    | intro _ _
    | split
    | extract_lets
    | dsimp only

theorem noteFlags_keeps {s : State} {flags : BitVec 8} {d : Nat} (hk : Keeps Q C U B s) :
    Keeps Q C U B (noteFlags s flags d) := by
  unfold noteFlags
  repeat' first
    | with_reducible assumption
    | fail_if_no_progress with_reducible refine Keeps.upd ?_ rfl rfl rfl rfl rfl rfl
    | extract_lets
    | dsimp only

theorem upTake_keeps {s : State} {f : BitVec 128} {d : Nat} {p : Nat} (hU : UFree U) (hk : Keeps Q C U B s) :
    Keeps Q C U B (upTake s f d p) := by
  unfold upTake
  repeat' first
    | with_reducible assumption
    | with_reducible apply clampTally_keeps
    | with_reducible apply noteFlags_keeps
    | with_reducible apply statTake_keeps
    | with_reducible apply takeCodes_keeps
    | with_reducible apply episodesClose_keeps
    | fail_if_no_progress with_reducible refine Keeps.upd ?_ rfl rfl rfl rfl rfl rfl
    | extract_lets
    | dsimp +zetaDelta only
    | dsimp only

theorem upFail_keeps {s : State} {d : Nat} {p : Nat} {cut : Bool} (hU : UFree U) (hk : Keeps Q C U B s) :
    Keeps Q C U B (upFail s d p cut) := by
  unfold upFail
  repeat' first
    | with_reducible assumption
    | with_reducible apply takeCodes_keeps
    | with_reducible apply noteFlags_keeps
    | with_reducible apply episodesClose_keeps
    | with_reducible apply statLost_keeps
    | with_reducible apply seamEvent_keeps
    | with_reducible apply tallyNow_keeps
    | with_reducible refine Keeps.ite ?_ (fun _ => ?_)
    | fail_if_no_progress with_reducible refine Keeps.upd ?_ rfl rfl rfl rfl rfl rfl
    | intro _ _ _
    | intro _ _
    | split
    | extract_lets
    | dsimp +zetaDelta only
    | dsimp only

theorem bringUp_keeps {s : State} {f : BitVec 128} {d : Nat} {j : Nat} (hU : UFree U) (hk : Keeps Q C U B s) :
    Keeps Q C U B (bringUp s f d j) := by
  unfold bringUp
  repeat' first
    | with_reducible assumption
    | with_reducible apply noteFlags_keeps
    | with_reducible apply statRead_keeps
    | with_reducible refine Keeps.ite ?_ (fun _ => ?_)
    | fail_if_no_progress with_reducible refine Keeps.upd ?_ rfl rfl rfl rfl rfl rfl
    | split
    | extract_lets
    | dsimp +zetaDelta only
    | dsimp only

theorem bringFail_keeps {s : State} {j : Nat} (hU : UFree U) (hk : Keeps Q C U B s) :
    Keeps Q C U B (bringFail s j) := by
  unfold bringFail
  repeat' first
    | with_reducible assumption
    | with_reducible apply readLost_keeps
    | with_reducible refine Keeps.ite ?_ (fun _ => ?_)
    | fail_if_no_progress with_reducible refine Keeps.upd ?_ rfl rfl rfl rfl rfl rfl
    | split
    | extract_lets
    | dsimp +zetaDelta only
    | dsimp only

theorem execUpFrame_keeps {u : UpIn} {s : State} (hU : UFree U) (hk : Keeps Q C U B s) :
    Keeps Q C U B (outState s (execUpFrame u s)) := by
  unfold execUpFrame outState
  try dsimp -zeta only
  repeat' first
    | with_reducible assumption
    | with_reducible apply fieldSent_keeps
    | with_reducible apply bringUp_keeps
    | with_reducible apply bringFail_keeps
    | with_reducible apply upTake_keeps
    | with_reducible apply upFail_keeps
    | with_reducible refine Keeps.ite ?_ (fun _ => ?_)
    | fail_if_no_progress with_reducible refine Keeps.upd ?_ rfl rfl rfl rfl rfl rfl
    | split
    | extract_lets
    | dsimp +zetaDelta only
    | dsimp only

theorem sendWrite_keeps {s : State} {acc : RegAcc} {rest : List RegAcc} (hk : Keeps Q C U B s) :
    Keeps Q C U B (sendWrite s acc rest).1 := by
  unfold sendWrite
  repeat' first
    | with_reducible assumption
    | with_reducible refine Keeps.ite ?_ (fun _ => ?_)
    | fail_if_no_progress with_reducible refine Keeps.upd ?_ rfl rfl rfl rfl rfl rfl
    | intro _ _ _
    | intro _ _
    | split
    | extract_lets
    | dsimp +zetaDelta only
    | dsimp only

theorem sendRead_keeps {s : State} {acc : RegAcc} {rest : List RegAcc} (hk : Keeps Q C U B s) :
    Keeps Q C U B (sendRead s acc rest).1 := by
  unfold sendRead
  repeat' first
    | with_reducible assumption
    | fail_if_no_progress with_reducible refine Keeps.upd ?_ rfl rfl rfl rfl rfl rfl
    | extract_lets
    | dsimp only

theorem sendRelease_keeps {s : State} {n : Nat} (hk : Keeps Q C U B s) :
    Keeps Q C U B (sendRelease s n).1 := by
  unfold sendRelease
  repeat' first
    | with_reducible assumption
    | with_reducible apply modFront_keeps
    | with_reducible apply sendWrite_keeps
    | fail_if_no_progress with_reducible refine Keeps.upd ?_ rfl rfl rfl rfl rfl rfl
    | intro _ _ _
    | intro _ _
    | extract_lets
    | dsimp +zetaDelta only
    | dsimp only

theorem sendReg_keeps {s : State} (h : Keeps Q C U B s) : ∀ x, sendReg s = some x → Keeps Q C U B x.1 := by
  intro x hx
  unfold sendReg at hx
  split at hx
  · cases hx; exact sendRelease_keeps h
  · split at hx
    · cases hx
      split
      · exact sendRead_keeps h
      · exact sendWrite_keeps h
    · cases hx

theorem sendFrev_keeps {s : State} (h : Keeps Q C U B s) : Keeps Q C U B ((sendFrev s).getD (s, .idle)).1 := by
  unfold sendFrev
  split
  · exact h
  · cases s.seam.regQ.find? (fun a => a.read && a.tries == 0 && a.addr == 0xF0 && regReady s a) with
    | none => exact h
    | some acc => exact sendRead_keeps h

theorem biasOut_keeps {s : State} {k : Nat} (hk : Keeps Q C U B s) :
    Keeps Q C U B (biasOut s k).1 := by
  unfold biasOut
  repeat' first
    | with_reducible assumption
    | fail_if_no_progress with_reducible refine Keeps.upd ?_ rfl rfl rfl rfl rfl rfl
    | split
    | extract_lets
    | dsimp only

theorem sendBias_keeps {s : State} (h : Keeps Q C U B s) : ∀ x, sendBias s = some x → Keeps Q C U B x.1 := by
  intro x hx
  unfold sendBias at hx
  split at hx
  · cases hx
  · cases hx; exact biasOut_keeps h
  · cases hx; exact biasOut_keeps (biasOut_keeps h)

theorem sendRepeat_keeps {s : State} (hk : Keeps Q C U B s) :
    Keeps Q C U B (sendRepeat s).1 := by
  unfold sendRepeat
  repeat' first
    | with_reducible assumption
    | with_reducible refine Keeps.ite ?_ (fun _ => ?_)
    | fail_if_no_progress with_reducible refine Keeps.upd ?_ rfl rfl rfl rfl rfl rfl
    | split
    | extract_lets
    | dsimp +zetaDelta only
    | dsimp only

theorem downChoose_keeps {s : State} (h : Keeps Q C U B s) : Keeps Q C U B (downChoose s).1 := by
  unfold downChoose
  extract_lets w k reg first
  split
  · exact sendFrev_keeps h
  · split
    · exact h
    · have hr : ∀ x, reg = some x → Keeps Q C U B x.1 := sendReg_keeps h
      have hf : ∀ x, first = some x → Keeps Q C U B x.1 := by
        intro x hx
        simp only [first] at hx
        split at hx
        · exact hr x hx
        · cases hx
      clear_value first reg
      cases he : first with
      | some x => exact hf x he
      | none =>
        cases e : sendBias s with
        | some x => simpa [e] using sendBias_keeps h x e
        | none =>
          cases hg : reg with
          | some x => simpa [e] using hr x hg
          | none => simpa [e] using sendRepeat_keeps h

theorem fieldWrite_keeps {s : State} {a : Nat} {d : BitVec 16} (hk : Keeps Q C U B s) :
    Keeps Q C U B (fieldWrite s a d) := by
  unfold fieldWrite
  repeat' first
    | with_reducible assumption
    | with_reducible refine Keeps.ite ?_ (fun _ => ?_)
    | fail_if_no_progress with_reducible refine Keeps.upd ?_ rfl rfl rfl rfl rfl rfl
    | split
    | extract_lets
    | dsimp +zetaDelta only
    | dsimp only

theorem fieldAout_keeps {s : State} {c : BitVec 16} (hk : Keeps Q C U B s) :
    Keeps Q C U B (fieldAout s c) := by
  unfold fieldAout
  repeat' first
    | with_reducible assumption
    | with_reducible refine Keeps.ite ?_ (fun _ => ?_)
    | fail_if_no_progress with_reducible refine Keeps.upd ?_ rfl rfl rfl rfl rfl rfl
    | split
    | extract_lets
    | dsimp +zetaDelta only
    | dsimp only

theorem fieldBias_keeps {s : State} {x : Option (Nat × BitVec 14)} (h : Keeps Q C U B s) : Keeps Q C U B (fieldBias s x) := by
  unfold fieldBias
  split
  · exact h
  · exact Keeps.upd h rfl rfl rfl rfl rfl rfl

theorem stepCount_keeps {s0 : State} {s : State} {n : Nat} (hU : UFree U) (hk : Keeps Q C U B s0) (hk1 : Keeps Q C U B
    s) :
    Keeps Q C U B (stepCount s0 s n) := by
  unfold stepCount
  repeat' first
    | with_reducible assumption
    | with_reducible apply modFront_keeps
    | with_reducible apply tallyEvent_keeps
    | with_reducible apply rangeAsk_keeps
    | with_reducible refine Keeps.ite ?_ (fun _ => ?_)
    | fail_if_no_progress with_reducible refine Keeps.upd ?_ rfl rfl rfl rfl rfl rfl
    | intro _ _ _
    | intro _ _
    | split
    | extract_lets
    | dsimp +zetaDelta only
    | dsimp only

theorem fracApplied_keeps {s : State} {a : Nat} {d : BitVec 16} (hk : Keeps Q C U B s) :
    Keeps Q C U B (fracApplied s a d) := by
  unfold fracApplied
  repeat' first
    | with_reducible assumption
    | with_reducible apply settleFrom_keeps
    | with_reducible apply modChain_keeps
    | with_reducible refine Keeps.ite ?_ (fun _ => ?_)
    | fail_if_no_progress with_reducible refine Keeps.upd ?_ rfl rfl rfl rfl rfl rfl
    | intro _ _ _
    | intro _ _
    | split
    | extract_lets
    | dsimp +zetaDelta only
    | dsimp only

theorem writeMeaning_keeps {s : State} {a : Nat} {d : BitVec 16} (hU : UFree U) (hk : Keeps Q C U B s) :
    Keeps Q C U B (writeMeaning s a d) := by
  unfold writeMeaning
  repeat' first
    | with_reducible assumption
    | with_reducible apply fracApplied_keeps
    | with_reducible apply stepCount_keeps
    | with_reducible apply frontApplied_keeps
    | with_reducible refine Keeps.ite ?_ (fun _ => ?_)
    | fail_if_no_progress with_reducible refine Keeps.upd ?_ rfl rfl rfl rfl rfl rfl
    | split
    | extract_lets
    | dsimp +zetaDelta only
    | dsimp only

theorem fieldTake_keeps {s : State} {c : BitVec 16} {f : DownFrame} (hU : UFree U) (hk : Keeps Q C U B s) :
    Keeps Q C U B (fieldTake s c f) := by
  unfold fieldTake
  repeat' first
    | with_reducible assumption
    | with_reducible apply fieldAout_keeps
    | with_reducible apply fieldBias_keeps
    | with_reducible apply writeMeaning_keeps
    | with_reducible apply fieldWrite_keeps
    | with_reducible refine Keeps.ite ?_ (fun _ => ?_)
    | fail_if_no_progress with_reducible refine Keeps.upd ?_ rfl rfl rfl rfl rfl rfl
    | split
    | extract_lets
    | dsimp +zetaDelta only
    | dsimp only

theorem fieldApply_keeps {s : State} (hU : UFree U) (hk : Keeps Q C U B s) :
    Keeps Q C U B (fieldApply s) := by
  unfold fieldApply
  repeat' first
    | with_reducible assumption
    | with_reducible apply fieldAout_keeps
    | with_reducible apply fieldTake_keeps
    | fail_if_no_progress with_reducible refine Keeps.upd ?_ rfl rfl rfl rfl rfl rfl
    | split
    | extract_lets
    | dsimp +zetaDelta only
    | dsimp only

theorem execDownFrame_keeps {err : BitVec 64} {s : State} (hk : Keeps Q C U B s) :
    Keeps Q C U B (outState s (execDownFrame err s)) := by
  unfold execDownFrame outState
  try dsimp -zeta only
  repeat' first
    | with_reducible assumption
    | with_reducible apply downChoose_keeps
    | with_reducible refine Keeps.ite ?_ (fun _ => ?_)
    | fail_if_no_progress with_reducible refine Keeps.upd ?_ rfl rfl rfl rfl rfl rfl
    | split
    | extract_lets
    | dsimp +zetaDelta only
    | dsimp only

theorem driversOff_keeps {s : State} (hk : Keeps Q C U B s) :
    Keeps Q C U B (driversOff s) := by
  unfold driversOff
  repeat' first
    | with_reducible assumption
    | fail_if_no_progress with_reducible refine Keeps.upd ?_ rfl rfl rfl rfl rfl rfl
    | extract_lets
    | dsimp only

theorem execDownFrameTimeout_keeps {s : State} (hk : Keeps Q C U B s) :
    Keeps Q C U B (outState s (execDownFrameTimeout s)) := by
  unfold execDownFrameTimeout outState
  try dsimp -zeta only
  repeat' first
    | with_reducible assumption
    | with_reducible apply driversOff_keeps
    | with_reducible refine Keeps.ite ?_ (fun _ => ?_)
    | fail_if_no_progress with_reducible refine Keeps.upd ?_ rfl rfl rfl rfl rfl rfl
    | split
    | extract_lets
    | dsimp only

theorem execSckLoss_keeps {s : State} (hk : Keeps Q C U B s) :
    Keeps Q C U B (outState s (execSckLoss s)) := by
  unfold execSckLoss outState
  try dsimp -zeta only
  repeat' first
    | with_reducible assumption
    | with_reducible apply driversOff_keeps
    | fail_if_no_progress with_reducible refine Keeps.upd ?_ rfl rfl rfl rfl rfl rfl
    | extract_lets
    | dsimp only

theorem fieldReset_keeps {s : State} {vdda : Bool} (hk : Keeps Q C U B s) :
    Keeps Q C U B (fieldReset s vdda) := by
  unfold fieldReset
  repeat' first
    | with_reducible assumption
    | fail_if_no_progress with_reducible refine Keeps.upd ?_ rfl rfl rfl rfl rfl rfl
    | extract_lets
    | dsimp only

theorem execFieldDieReset_keeps {s : State} (hk : Keeps Q C U B s) :
    Keeps Q C U B (outState s (execFieldDieReset s)) := by
  unfold execFieldDieReset outState
  try dsimp -zeta only
  repeat' first
    | with_reducible assumption
    | with_reducible apply fieldReset_keeps
    | fail_if_no_progress with_reducible refine Keeps.upd ?_ rfl rfl rfl rfl rfl rfl
    | extract_lets
    | dsimp only

theorem execVddaReturn_keeps {s : State} (hk : Keeps Q C U B s) :
    Keeps Q C U B (outState s (execVddaReturn s)) := by
  unfold execVddaReturn outState
  try dsimp -zeta only
  repeat' first
    | with_reducible assumption
    | with_reducible apply fieldReset_keeps
    | with_reducible refine Keeps.ite ?_ (fun _ => ?_)
    | fail_if_no_progress with_reducible refine Keeps.upd ?_ rfl rfl rfl rfl rfl rfl
    | split
    | extract_lets
    | dsimp only

theorem execVhtrPresentChange_keeps {present : Bool} {s : State} (hk : Keeps Q C U B s) :
    Keeps Q C U B (outState s (execVhtrPresentChange present s)) := by
  unfold execVhtrPresentChange outState
  try dsimp -zeta only
  repeat' first
    | with_reducible assumption
    | fail_if_no_progress with_reducible refine Keeps.upd ?_ rfl rfl rfl rfl rfl rfl
    | extract_lets
    | dsimp only

theorem execVdrvPresentChange_keeps {present : Bool} {s : State} (hk : Keeps Q C U B s) :
    Keeps Q C U B (outState s (execVdrvPresentChange present s)) := by
  unfold execVdrvPresentChange outState
  try dsimp -zeta only
  repeat' first
    | with_reducible assumption
    | fail_if_no_progress with_reducible refine Keeps.upd ?_ rfl rfl rfl rfl rfl rfl
    | extract_lets
    | dsimp only

theorem execHousekeepingStep_keeps {s : State} (hk : Keeps Q C U B s) :
    Keeps Q C U B (outState s (execHousekeepingStep s)) := by
  unfold execHousekeepingStep outState
  try dsimp -zeta only
  repeat' first
    | with_reducible assumption
    | with_reducible refine Keeps.ite ?_ (fun _ => ?_)
    | fail_if_no_progress with_reducible refine Keeps.upd ?_ rfl rfl rfl rfl rfl rfl
    | split
    | extract_lets
    | dsimp only

theorem execRangeChangeRelease_keeps {n : Fin 8} {s : State} (hk : Keeps Q C U B s) :
    Keeps Q C U B (outState s (execRangeChangeRelease n s)) := by
  unfold execRangeChangeRelease outState
  try dsimp -zeta only
  repeat' first
    | with_reducible assumption
    | with_reducible apply releaseNow_keeps
    | fail_if_no_progress with_reducible refine Keeps.upd ?_ rfl rfl rfl rfl rfl rfl
    | extract_lets
    | dsimp only

theorem execDecadeChangeRelease_keeps {n : Fin 4} {s : State} (hk : Keeps Q C U B s) :
    Keeps Q C U B (outState s (execDecadeChangeRelease n s)) := by
  unfold execDecadeChangeRelease outState
  try dsimp -zeta only
  repeat' first
    | with_reducible assumption
    | with_reducible apply releaseNow_keeps
    | fail_if_no_progress with_reducible refine Keeps.upd ?_ rfl rfl rfl rfl rfl rfl
    | extract_lets
    | dsimp only

theorem execCellEnableStep_keeps {k : Fin 4} {s : State} (hk : Keeps Q C U B s) :
    Keeps Q C U B (outState s (execCellEnableStep k s)) := by
  unfold execCellEnableStep outState
  try dsimp -zeta only
  repeat' first
    | with_reducible assumption
    | with_reducible apply cellEnableStep_keeps
    | fail_if_no_progress with_reducible refine Keeps.upd ?_ rfl rfl rfl rfl rfl rfl
    | extract_lets
    | dsimp only

theorem execCellDisableStep_keeps {k : Fin 4} {s : State} (hk : Keeps Q C U B s) :
    Keeps Q C U B (outState s (execCellDisableStep k s)) := by
  unfold execCellDisableStep outState
  try dsimp -zeta only
  repeat' first
    | with_reducible assumption
    | with_reducible apply cellDisableStep_keeps
    | fail_if_no_progress with_reducible refine Keeps.upd ?_ rfl rfl rfl rfl rfl rfl
    | extract_lets
    | dsimp only

theorem execBiasRampStep_keeps {k : Fin 4} {s : State} (hk : Keeps Q C U B s) :
    Keeps Q C U B (outState s (execBiasRampStep k s)) := by
  unfold execBiasRampStep outState
  try dsimp -zeta only
  repeat' first
    | with_reducible assumption
    | with_reducible apply cellRampStep_keeps
    | fail_if_no_progress with_reducible refine Keeps.upd ?_ rfl rfl rfl rfl rfl rfl
    | extract_lets
    | dsimp only

theorem stepEnter_keeps {s : State} {n : Nat} {i : Nat} {power : Rat} (hk : Keeps Q C U B s) :
    Keeps Q C U B (stepEnter s n i power) := by
  unfold stepEnter
  repeat' first
    | with_reducible assumption
    | with_reducible apply modHtr_keeps
    | with_reducible refine Keeps.ite ?_ (fun _ => ?_)
    | fail_if_no_progress with_reducible refine Keeps.upd ?_ rfl rfl rfl rfl rfl rfl
    | intro _ _ _
    | intro _ _
    | split
    | extract_lets
    | dsimp only

theorem stepReady_keeps {s : State} {n : Nat} (hk : Keeps Q C U B s) :
    Keeps Q C U B (stepReady s n).1 := by
  unfold stepReady
  repeat' first
    | with_reducible assumption
    | with_reducible apply stepEnter_keeps
    | with_reducible apply modHtr_keeps
    | with_reducible refine Keeps.ite ?_ (fun _ => ?_)
    | fail_if_no_progress with_reducible refine Keeps.upd ?_ rfl rfl rfl rfl rfl rfl
    | intro _ _ _
    | intro _ _
    | split
    | extract_lets
    | dsimp +zetaDelta only
    | dsimp only

theorem heaterLoop_keeps {s : State} {n : Nat} (hk : Keeps Q C U B s) :
    Keeps Q C U B (heaterLoop s n) := by
  unfold heaterLoop
  repeat' first
    | with_reducible assumption
    | with_reducible apply stepReady_keeps
    | with_reducible apply modHtr_keeps
    | with_reducible refine Keeps.ite ?_ (fun _ => ?_)
    | fail_if_no_progress with_reducible refine Keeps.upd ?_ rfl rfl rfl rfl rfl rfl
    | intro _ _ _
    | intro _ _
    | split
    | extract_lets
    | dsimp +zetaDelta only
    | dsimp only

theorem execHeaterLoop_keeps {n : Fin 4} {s : State} (hk : Keeps Q C U B s) :
    Keeps Q C U B (outState s (execHeaterLoop n s)) := by
  unfold execHeaterLoop outState
  try dsimp -zeta only
  repeat' first
    | with_reducible assumption
    | with_reducible apply heaterLoop_keeps
    | fail_if_no_progress with_reducible refine Keeps.upd ?_ rfl rfl rfl rfl rfl rfl
    | extract_lets
    | dsimp only

theorem heatStart_keeps {s : State} {n : Nat} {p : Nat} {task : Nat} {origin : BitVec 16} (hk : Keeps Q C U B s) :
    Keeps Q C U B (heatStart s n p task origin) := by
  unfold heatStart
  repeat' first
    | with_reducible assumption
    | with_reducible apply regWrite_keeps
    | with_reducible apply logE_keeps
    | with_reducible apply modHtr_keeps
    | with_reducible apply modChain_keeps
    | fail_if_no_progress with_reducible refine Keeps.upd ?_ rfl rfl rfl rfl rfl rfl
    | intro _ _ _
    | intro _ _
    | extract_lets
    | dsimp +zetaDelta only
    | dsimp only

theorem leadStart_keeps {s : State} {n : Nat} {task : Nat} {origin : BitVec 16} (hk : Keeps Q C U B s) :
    Keeps Q C U B (leadStart s n task origin) := by
  unfold leadStart
  repeat' first
    | with_reducible assumption
    | with_reducible apply regWrite_keeps
    | with_reducible apply modHtr_keeps
    | fail_if_no_progress with_reducible refine Keeps.upd ?_ rfl rfl rfl rfl rfl rfl
    | intro _ _ _
    | intro _ _
    | extract_lets
    | dsimp +zetaDelta only
    | dsimp only

theorem driveSet_keeps {s : State} {i : Nat} {w : Nat} (hk : Keeps Q C U B s) :
    Keeps Q C U B (driveSet s i w) := by
  unfold driveSet
  repeat' first
    | with_reducible assumption
    | fail_if_no_progress with_reducible refine Keeps.upd ?_ rfl rfl rfl rfl rfl rfl
    | extract_lets
    | dsimp only

theorem heatGranted_keeps {s : State} {n : Nat} {e : Nat} (hk : Keeps Q C U B s) :
    Keeps Q C U B (heatGranted s n e) := by
  unfold heatGranted
  repeat' first
    | with_reducible assumption
    | with_reducible apply driveSet_keeps
    | with_reducible apply modHtr_keeps
    | with_reducible refine Keeps.ite ?_ (fun _ => ?_)
    | fail_if_no_progress with_reducible refine Keeps.upd ?_ rfl rfl rfl rfl rfl rfl
    | intro _ _ _
    | intro _ _
    | split
    | extract_lets
    | dsimp only

theorem heatDeferred_keeps {s : State} {n : Nat} (hk : Keeps Q C U B s) :
    Keeps Q C U B (heatDeferred s n) := by
  unfold heatDeferred
  repeat' first
    | with_reducible assumption
    | with_reducible apply driveSet_keeps
    | with_reducible apply modHtr_keeps
    | with_reducible refine Keeps.ite ?_ (fun _ => ?_)
    | fail_if_no_progress with_reducible refine Keeps.upd ?_ rfl rfl rfl rfl rfl rfl
    | intro _ _ _
    | intro _ _
    | split
    | extract_lets
    | dsimp only

theorem heatRefused_keeps {s : State} {n : Nat} {reason : Byte} (hk : Keeps Q C U B s) :
    Keeps Q C U B (heatRefused s n reason) := by
  unfold heatRefused
  repeat' first
    | with_reducible assumption
    | with_reducible apply driveSet_keeps
    | with_reducible apply modHtr_keeps
    | fail_if_no_progress with_reducible refine Keeps.upd ?_ rfl rfl rfl rfl rfl rfl
    | intro _ _ _
    | intro _ _
    | extract_lets
    | dsimp only

theorem heatFinished_keeps {s : State} {n : Nat} (hk : Keeps Q C U B s) :
    Keeps Q C U B (heatFinished s n) := by
  unfold heatFinished
  repeat' first
    | with_reducible assumption
    | with_reducible apply stepReady_keeps
    | with_reducible apply htrEnd_keeps
    | with_reducible refine Keeps.ite ?_ (fun _ => ?_)
    | fail_if_no_progress with_reducible refine Keeps.upd ?_ rfl rfl rfl rfl rfl rfl
    | split
    | extract_lets
    | dsimp only

theorem execProfileAbort_keeps {n : Fin 4} {s : State} (hk : Keeps Q C U B s) :
    Keeps Q C U B (outState s (execProfileAbort n s)) := by
  unfold execProfileAbort outState
  try dsimp -zeta only
  repeat' first
    | with_reducible assumption
    | with_reducible apply modHtr_keeps
    | with_reducible apply logE_keeps
    | with_reducible apply htrEnd_keeps
    | with_reducible refine Keeps.ite ?_ (fun _ => ?_)
    | fail_if_no_progress with_reducible refine Keeps.upd ?_ rfl rfl rfl rfl rfl rfl
    | intro _ _ _
    | intro _ _
    | split
    | extract_lets
    | dsimp +zetaDelta only
    | dsimp only

theorem heaterBegin_keeps {s : State} {n : Nat} (hU : UFree U) (hk : Keeps Q C U B s) :
    Keeps Q C U B (heaterBegin s n) := by
  unfold heaterBegin
  repeat' first
    | with_reducible assumption
    | with_reducible apply modHtr_keeps
    | with_reducible apply modChain_keeps
    | with_reducible apply tallyEvent_keeps
    | with_reducible apply logE_keeps
    | with_reducible refine Keeps.ite ?_ (fun _ => ?_)
    | fail_if_no_progress with_reducible refine Keeps.upd ?_ rfl rfl rfl rfl rfl rfl
    | intro _ _ _
    | intro _ _
    | split
    | extract_lets
    | dsimp +zetaDelta only
    | dsimp only

theorem bridgeBound_keeps {s : State} {b : Nat} (hU : UFree U) (hk : Keeps Q C U B s) :
    Keeps Q C U B (bridgeBound s b) := by
  unfold bridgeBound
  repeat' first
    | with_reducible assumption
    | with_reducible apply modChain_keeps
    | with_reducible apply tallyEvent_keeps
    | with_reducible apply logE_keeps
    | with_reducible apply modBrg_keeps
    | with_reducible refine Keeps.ite ?_ (fun _ => ?_)
    | fail_if_no_progress with_reducible refine Keeps.upd ?_ rfl rfl rfl rfl rfl rfl
    | intro _ _ _
    | intro _ _
    | split
    | extract_lets
    | dsimp +zetaDelta only
    | dsimp only

theorem bridgeBegin_keeps {s : State} {b : Nat} (hU : UFree U) (hk : Keeps Q C U B s) :
    Keeps Q C U B (bridgeBegin s b) := by
  unfold bridgeBegin
  repeat' first
    | with_reducible assumption
    | with_reducible apply modBrg_keeps
    | with_reducible apply bridgeBound_keeps
    | with_reducible apply bridgeVoid_keeps
    | with_reducible apply modChain_keeps
    | with_reducible refine Keeps.ite ?_ (fun _ => ?_)
    | fail_if_no_progress with_reducible refine Keeps.upd ?_ rfl rfl rfl rfl rfl rfl
    | intro _ _ _
    | intro _ _
    | split
    | extract_lets
    | dsimp +zetaDelta only
    | dsimp only

theorem execDriveWordApply_keeps {s : State} (hU : UFree U) (hk : Keeps Q C U B s) :
    Keeps Q C U B (outState s (execDriveWordApply s)) := by
  unfold execDriveWordApply outState
  try dsimp -zeta only
  repeat' first
    | with_reducible assumption
    | with_reducible apply forEach_keeps
    | with_reducible apply heaterBegin_keeps
    | with_reducible apply bridgeBegin_keeps
    | with_reducible refine forEach_keeps ?_ (fun _ _ _ => ?_)
    | with_reducible refine foldl_keeps ?_ (fun _ _ _ => ?_)
    | with_reducible refine foldl1_keeps ?_ (fun _ _ _ => ?_)
    | with_reducible refine Keeps.ite ?_ (fun _ => ?_)
    | fail_if_no_progress with_reducible refine Keeps.upd ?_ rfl rfl rfl rfl rfl rfl
    | intro _ _ _
    | intro _ _
    | split
    | extract_lets
    | dsimp +zetaDelta only
    | dsimp only

theorem htrEvent_keeps {s : State} {n : Nat} {i : Nat} (hU : UFree U) (hk : Keeps Q C U B s) :
    Keeps Q C U B (htrEvent s n i) := by
  unfold htrEvent
  repeat' first
    | with_reducible assumption
    | with_reducible apply tallyEvent_keeps
    | with_reducible apply htrFaultOne_keeps
    | with_reducible refine Keeps.ite ?_ (fun _ => ?_)
    | fail_if_no_progress with_reducible refine Keeps.upd ?_ rfl rfl rfl rfl rfl rfl
    | split
    | extract_lets
    | dsimp +zetaDelta only
    | dsimp only

theorem measTake_keeps {s : State} {n : Nat} {m : Meas} (hU : UFree U) (hk : Keeps Q C U B s) :
    Keeps Q C U B (measTake s n m) := by
  unfold measTake
  repeat' first
    | with_reducible assumption
    | with_reducible apply modHtr_keeps
    | with_reducible apply modChain_keeps
    | with_reducible apply htrEvent_keeps
    | with_reducible refine Keeps.ite ?_ (fun _ => ?_)
    | fail_if_no_progress with_reducible refine Keeps.upd ?_ rfl rfl rfl rfl rfl rfl
    | intro _ _ _
    | intro _ _
    | split
    | extract_lets
    | dsimp +zetaDelta only
    | dsimp only

theorem execHeaterMeasurement_keeps {n : Fin 4} {s : State} (hU : UFree U) (hk : Keeps Q C U B s) :
    Keeps Q C U B (outState s (execHeaterMeasurement n s)) := by
  unfold execHeaterMeasurement outState
  try dsimp -zeta only
  repeat' first
    | with_reducible assumption
    | with_reducible apply measTake_keeps
    | with_reducible apply modHtr_keeps
    | with_reducible apply passSample_keeps
    | with_reducible refine Keeps.ite ?_ (fun _ => ?_)
    | fail_if_no_progress with_reducible refine Keeps.upd ?_ rfl rfl rfl rfl rfl rfl
    | intro _ _ _
    | intro _ _
    | split
    | extract_lets
    | dsimp +zetaDelta only
    | dsimp only

theorem execLeadcalSwitch_keeps {n : Fin 4} {s : State} (hk : Keeps Q C U B s) :
    Keeps Q C U B (outState s (execLeadcalSwitch n s)) := by
  unfold execLeadcalSwitch outState
  try dsimp -zeta only
  repeat' first
    | with_reducible assumption
    | with_reducible apply regWrite_keeps
    | with_reducible refine Keeps.ite ?_ (fun _ => ?_)
    | fail_if_no_progress with_reducible refine Keeps.upd ?_ rfl rfl rfl rfl rfl rfl
    | split
    | extract_lets
    | dsimp +zetaDelta only
    | dsimp only

theorem execLeadcalDone_keeps {n : Fin 4} {s : State} (hC : CfgClosed C) (hk : Keeps Q C U B s) :
    Keeps Q C U B (outState s (execLeadcalDone n s)) := by
  unfold execLeadcalDone outState
  try dsimp -zeta only
  repeat' first
    | with_reducible assumption
    | with_reducible apply htrOff_keeps
    | with_reducible apply taskEnd_keeps
    | with_reducible apply modHtr_keeps
    | with_reducible apply setParam_keeps
    | with_reducible apply logE_keeps
    | with_reducible refine Keeps.ite ?_ (fun _ => ?_)
    | fail_if_no_progress with_reducible refine Keeps.upd ?_ rfl rfl rfl rfl rfl rfl
    | intro _ _ _
    | intro _ _
    | split
    | extract_lets
    | dsimp +zetaDelta only
    | dsimp only

theorem bridgeLoop_keeps {s : State} {b : Nat} (hk : Keeps Q C U B s) :
    Keeps Q C U B (bridgeLoop s b) := by
  unfold bridgeLoop
  repeat' first
    | with_reducible assumption
    | with_reducible apply modBrg_keeps
    | with_reducible refine Keeps.ite ?_ (fun _ => ?_)
    | fail_if_no_progress with_reducible refine Keeps.upd ?_ rfl rfl rfl rfl rfl rfl
    | intro _ _ _
    | intro _ _
    | split
    | extract_lets
    | dsimp +zetaDelta only
    | dsimp only

theorem execBridgeLoop_keeps {b : Fin 2} {s : State} (hk : Keeps Q C U B s) :
    Keeps Q C U B (outState s (execBridgeLoop b s)) := by
  unfold execBridgeLoop outState
  try dsimp -zeta only
  repeat' first
    | with_reducible assumption
    | with_reducible apply bridgeLoop_keeps
    | fail_if_no_progress with_reducible refine Keeps.upd ?_ rfl rfl rfl rfl rfl rfl
    | extract_lets
    | dsimp only

theorem bridgeGranted_keeps {s : State} {b : Nat} {e : Nat} (hk : Keeps Q C U B s) :
    Keeps Q C U B (bridgeGranted s b e) := by
  unfold bridgeGranted
  repeat' first
    | with_reducible assumption
    | with_reducible apply modBrg_keeps
    | with_reducible apply driveSet_keeps
    | with_reducible refine Keeps.ite ?_ (fun _ => ?_)
    | fail_if_no_progress with_reducible refine Keeps.upd ?_ rfl rfl rfl rfl rfl rfl
    | intro _ _ _
    | intro _ _
    | split
    | extract_lets
    | dsimp +zetaDelta only
    | dsimp only

theorem bridgeDeferred_keeps {s : State} {b : Nat} (hk : Keeps Q C U B s) :
    Keeps Q C U B (bridgeDeferred s b) := by
  unfold bridgeDeferred
  repeat' first
    | with_reducible assumption
    | with_reducible apply driveSet_keeps
    | with_reducible apply modBrg_keeps
    | fail_if_no_progress with_reducible refine Keeps.upd ?_ rfl rfl rfl rfl rfl rfl
    | intro _ _ _
    | intro _ _
    | extract_lets
    | dsimp only

theorem bridgeRefused_keeps {s : State} {b : Nat} (hk : Keeps Q C U B s) :
    Keeps Q C U B (bridgeRefused s b) := by
  unfold bridgeRefused
  repeat' first
    | with_reducible assumption
    | with_reducible apply zAbortChan_keeps
    | with_reducible apply chanHalt_keeps
    | with_reducible apply bridgeOff_keeps
    | with_reducible apply zInvalid_keeps
    | fail_if_no_progress with_reducible refine Keeps.upd ?_ rfl rfl rfl rfl rfl rfl
    | extract_lets
    | dsimp only

theorem realNote_keeps {s : State} {c : Nat} (hk : Keeps Q C U B s) :
    Keeps Q C U B (realNote s c) := by
  unfold realNote
  repeat' first
    | with_reducible assumption
    | fail_if_no_progress with_reducible refine Keeps.upd ?_ rfl rfl rfl rfl rfl rfl
    | extract_lets
    | dsimp only

theorem freqNote_keeps {s : State} {id : Nat} (hk : Keeps Q C U B s) :
    Keeps Q C U B (freqNote s id) := by
  unfold freqNote
  repeat' first
    | with_reducible assumption
    | with_reducible apply realNote_keeps
    | with_reducible refine Keeps.ite ?_ (fun _ => ?_)
    | fail_if_no_progress with_reducible refine Keeps.upd ?_ rfl rfl rfl rfl rfl rfl
    | split
    | extract_lets
    | dsimp only

theorem execToneStart_keeps {s : State} (hk : Keeps Q C U B s) :
    Keeps Q C U B (outState s (execToneStart s)) := by
  unfold execToneStart outState
  try dsimp -zeta only
  repeat' first
    | with_reducible assumption
    | with_reducible apply forEach_keeps
    | with_reducible apply realNote_keeps
    | with_reducible apply modChain_keeps
    | with_reducible refine forEach_keeps ?_ (fun _ _ _ => ?_)
    | with_reducible refine Keeps.ite ?_ (fun _ => ?_)
    | fail_if_no_progress with_reducible refine Keeps.upd ?_ rfl rfl rfl rfl rfl rfl
    | intro _ _ _
    | intro _ _
    | split
    | extract_lets
    | dsimp +zetaDelta only
    | dsimp only

theorem toneRestart_keeps {s : State} {r : ZRun} (hk : Keeps Q C U B s) :
    Keeps Q C U B (toneRestart s r) := by
  unfold toneRestart
  repeat' first
    | with_reducible assumption
    | fail_if_no_progress with_reducible refine Keeps.upd ?_ rfl rfl rfl rfl rfl rfl
    | intro _ _ _
    | intro _ _
    | extract_lets
    | dsimp only

theorem toneAdd_keeps {s : State} {r : ZRun} {u : Nat} {v : Rat} (hk : Keeps Q C U B s) :
    Keeps Q C U B (toneAdd s r u v) := by
  unfold toneAdd
  repeat' first
    | with_reducible assumption
    | fail_if_no_progress with_reducible refine Keeps.upd ?_ rfl rfl rfl rfl rfl rfl
    | extract_lets
    | dsimp only

theorem toneRemove_keeps {s : State} {r : ZRun} {done : Bool} (hk : Keeps Q C U B s) :
    Keeps Q C U B (toneRemove s r done) := by
  unfold toneRemove
  repeat' first
    | with_reducible assumption
    | with_reducible apply toneStop_keeps
    | with_reducible apply toneBias_keeps
    | with_reducible apply toneReg_keeps
    | with_reducible apply toneRestart_keeps
    | with_reducible refine Keeps.ite ?_ (fun _ => ?_)
    | fail_if_no_progress with_reducible refine Keeps.upd ?_ rfl rfl rfl rfl rfl rfl
    | split
    | extract_lets
    | dsimp +zetaDelta only
    | dsimp only

theorem execToneCode_keeps {s : State} (hk : Keeps Q C U B s) :
    Keeps Q C U B (outState s (execToneCode s)) := by
  unfold execToneCode outState
  try dsimp -zeta only
  repeat' first
    | with_reducible assumption
    | with_reducible apply toneBias_keeps
    | with_reducible apply toneRemove_keeps
    | with_reducible apply toneAdd_keeps
    | with_reducible refine Keeps.ite ?_ (fun _ => ?_)
    | fail_if_no_progress with_reducible refine Keeps.upd ?_ rfl rfl rfl rfl rfl rfl
    | split
    | extract_lets
    | dsimp +zetaDelta only
    | dsimp only

theorem execFilmToneToggle_keeps {s : State} (hk : Keeps Q C U B s) :
    Keeps Q C U B (outState s (execFilmToneToggle s)) := by
  unfold execFilmToneToggle outState
  try dsimp -zeta only
  repeat' first
    | with_reducible assumption
    | with_reducible apply toneReg_keeps
    | with_reducible apply toneRemove_keeps
    | with_reducible apply toneAdd_keeps
    | with_reducible refine Keeps.ite ?_ (fun _ => ?_)
    | fail_if_no_progress with_reducible refine Keeps.upd ?_ rfl rfl rfl rfl rfl rfl
    | split
    | extract_lets
    | dsimp +zetaDelta only
    | dsimp only

theorem zGranted_keeps {s : State} (hk : Keeps Q C U B s) :
    Keeps Q C U B (zGranted s) := by
  unfold zGranted
  repeat' first
    | with_reducible assumption
    | fail_if_no_progress with_reducible refine Keeps.upd ?_ rfl rfl rfl rfl rfl rfl
    | intro _ _ _
    | intro _ _
    | extract_lets
    | dsimp only

theorem zDeferred_keeps {s : State} (hk : Keeps Q C U B s) :
    Keeps Q C U B (zDeferred s) := by
  unfold zDeferred
  repeat' first
    | with_reducible assumption
    | with_reducible apply toneRestart_keeps
    | with_reducible apply toneStop_keeps
    | fail_if_no_progress with_reducible refine Keeps.upd ?_ rfl rfl rfl rfl rfl rfl
    | split
    | extract_lets
    | dsimp +zetaDelta only
    | dsimp only

theorem bridgeToneOver_keeps {s : State} {b : Nat} {u : Nat} (hk : Keeps Q C U B s) :
    Keeps Q C U B (bridgeToneOver s b u) := by
  unfold bridgeToneOver
  repeat' first
    | with_reducible assumption
    | with_reducible apply toneStop_keeps
    | with_reducible refine Keeps.ite ?_ (fun _ => ?_)
    | fail_if_no_progress with_reducible refine Keeps.upd ?_ rfl rfl rfl rfl rfl rfl
    | split
    | extract_lets
    | dsimp only

theorem bridgeToneNote_keeps {s0 : State} {b : Nat} {u : Nat} (hk : Keeps Q C U B s0) :
    Keeps Q C U B (bridgeToneNote s0 b u) := by
  unfold bridgeToneNote
  repeat' first
    | with_reducible assumption
    | with_reducible apply bridgeToneOver_keeps
    | with_reducible apply toneAdd_keeps
    | with_reducible refine Keeps.ite ?_ (fun _ => ?_)
    | fail_if_no_progress with_reducible refine Keeps.upd ?_ rfl rfl rfl rfl rfl rfl
    | split
    | extract_lets
    | dsimp +zetaDelta only
    | dsimp only

end Sys2Proof.Machine
end

