-- ==== Sys2Proof/Laws/KeepsParams.lean ====
section
/-! SUPPORT. What the scheduler, parameter writes, time and NV leave alone (Keeps): one lemma per operation. -/

set_option linter.unusedTactic false
set_option linter.unusedVariables false
set_option linter.unreachableTactic false

namespace Sys2Proof.Machine

variable {Q : List Instr} {C : List (Nat × Word) → Prop} {U : UnitSt → Prop} {B : Prop}

theorem periodicCreate_keeps {s : State} (hk : Keeps Q C U B s) :
    Keeps Q C U B (periodicCreate s) := by
  unfold periodicCreate
  repeat' first
    | with_reducible assumption
    | with_reducible apply zEnqueue_keeps
    | with_reducible apply taskNew_keeps
    | with_reducible refine Keeps.ite ?_ (fun _ => ?_)
    | fail_if_no_progress with_reducible refine Keeps.upd ?_ rfl rfl rfl rfl rfl rfl
    | split
    | extract_lets
    | dsimp +zetaDelta only
    | dsimp only

theorem owedCreate_keeps {s : State} (hk : Keeps Q C U B s) :
    Keeps Q C U B (owedCreate s) := by
  unfold owedCreate
  repeat' first
    | with_reducible assumption
    | with_reducible apply periodicCreate_keeps
    | with_reducible apply autoTask_keeps
    | with_reducible refine foldl_keeps ?_ (fun _ _ _ => ?_)
    | with_reducible refine foldl1_keeps ?_ (fun _ _ _ => ?_)
    | with_reducible refine Keeps.ite ?_ (fun _ => ?_)
    | fail_if_no_progress with_reducible refine Keeps.upd ?_ rfl rfl rfl rfl rfl rfl
    | intro _ _ _
    | intro _ _
    | split
    | extract_lets
    | dsimp only

theorem dueAdd_keeps {s : State} {d : DriveDue} (hk : Keeps Q C U B s) :
    Keeps Q C U B (dueAdd s d) := by
  unfold dueAdd
  repeat' first
    | with_reducible assumption
    | fail_if_no_progress with_reducible refine Keeps.upd ?_ rfl rfl rfl rfl rfl rfl
    | extract_lets
    | dsimp only

theorem deferLog_keeps {s : State} {n : Nat} {reason : Nat} {origin : BitVec 16} (hk : Keeps Q C U B s) :
    Keeps Q C U B (deferLog s n reason origin) := by
  unfold deferLog
  repeat' first
    | with_reducible assumption
    | with_reducible apply taskMod_keeps
    | with_reducible apply logE_keeps
    | with_reducible refine Keeps.ite ?_ (fun _ => ?_)
    | fail_if_no_progress with_reducible refine Keeps.upd ?_ rfl rfl rfl rfl rfl rfl
    | intro _ _ _
    | intro _ _
    | split
    | extract_lets
    | dsimp only

theorem refuseLog_keeps {s : State} {n : Nat} {reason : Nat} {origin : BitVec 16} (hk : Keeps Q C U B s) :
    Keeps Q C U B (refuseLog s n reason origin) := by
  unfold refuseLog
  repeat' first
    | with_reducible assumption
    | with_reducible apply logE_keeps
    | fail_if_no_progress with_reducible refine Keeps.upd ?_ rfl rfl rfl rfl rfl rfl
    | split
    | extract_lets
    | dsimp only

theorem nvBegin_keeps {s : State} {t : TaskRec} (hk : Keeps Q C U B s) :
    Keeps Q C U B (nvBegin s t) := by
  unfold nvBegin
  repeat' first
    | with_reducible assumption
    | with_reducible refine Keeps.ite ?_ (fun _ => ?_)
    | fail_if_no_progress with_reducible refine Keeps.upd ?_ rfl rfl rfl rfl rfl rfl
    | intro _ _ _
    | intro _ _
    | split
    | extract_lets
    | dsimp only

theorem nvTear_keeps {s : State} (hC : CfgClosed C) (hk : Keeps Q C U B s) :
    Keeps Q C U B (nvTear s) := by
  unfold nvTear
  repeat' first
    | with_reducible assumption
    | fail_if_no_progress with_reducible refine Keeps.upd ?_ rfl rfl rfl rfl rfl rfl
    | split
    | extract_lets
    | dsimp +zetaDelta only
    | dsimp only

theorem nvDrop_keeps {s : State} {n : Nat} (hC : CfgClosed C) (hk : Keeps Q C U B s) :
    Keeps Q C U B (nvDrop s n) := by
  unfold nvDrop
  repeat' first
    | with_reducible assumption
    | with_reducible apply nvTear_keeps
    | with_reducible refine Keeps.ite ?_ (fun _ => ?_)
    | fail_if_no_progress with_reducible refine Keeps.upd ?_ rfl rfl rfl rfl rfl rfl
    | split
    | extract_lets
    | dsimp only

theorem taskNote_keeps {s : State} {r : Req} {v : Verdict} (hk : Keeps Q C U B s) :
    Keeps Q C U B (taskNote s r v) := by
  unfold taskNote
  repeat' first
    | with_reducible assumption
    | with_reducible apply taskMod_keeps
    | with_reducible refine Keeps.ite ?_ (fun _ => ?_)
    | fail_if_no_progress with_reducible refine Keeps.upd ?_ rfl rfl rfl rfl rfl rfl
    | intro _ _ _
    | intro _ _
    | split
    | extract_lets
    | dsimp only

theorem ownGranted_keeps {s : State} {r : Req} (hk : Keeps Q C U B s) :
    Keeps Q C U B (ownGranted s r) := by
  unfold ownGranted
  repeat' first
    | with_reducible assumption
    | with_reducible apply heatGranted_keeps
    | with_reducible apply bridgeGranted_keeps
    | with_reducible apply bridgeToneNote_keeps
    | with_reducible apply zGranted_keeps
    | with_reducible apply nvBegin_keeps
    | fail_if_no_progress with_reducible refine Keeps.upd ?_ rfl rfl rfl rfl rfl rfl
    | split
    | extract_lets
    | dsimp only

theorem ownDeferred_keeps {s : State} {r : Req} {v : Verdict} (hk : Keeps Q C U B s) :
    Keeps Q C U B (ownDeferred s r v) := by
  unfold ownDeferred
  repeat' first
    | with_reducible assumption
    | with_reducible apply dueAdd_keeps
    | with_reducible apply heatDeferred_keeps
    | with_reducible apply bridgeDeferred_keeps
    | with_reducible apply bridgeToneOver_keeps
    | with_reducible apply zDeferred_keeps
    | fail_if_no_progress with_reducible refine Keeps.upd ?_ rfl rfl rfl rfl rfl rfl
    | split
    | extract_lets
    | dsimp +zetaDelta only
    | dsimp only

theorem ownRefused_keeps {s : State} {r : Req} {v : Verdict} (hk : Keeps Q C U B s) :
    Keeps Q C U B (ownRefused s r v) := by
  unfold ownRefused
  repeat' first
    | with_reducible assumption
    | with_reducible apply heatRefused_keeps
    | with_reducible apply dueAdd_keeps
    | with_reducible apply driveSet_keeps
    | with_reducible apply modBrg_keeps
    | with_reducible apply bridgeEnd_keeps
    | fail_if_no_progress with_reducible refine Keeps.upd ?_ rfl rfl rfl rfl rfl rfl
    | intro _ _ _
    | intro _ _
    | split
    | extract_lets
    | dsimp only

theorem refuseEnd_keeps {s : State} {task : Nat} {reason : Nat} {origin : BitVec 16} {f : State → State} (hk : Keeps Q
    C U B s) (hf : ∀ t : State, Keeps Q C U B t → Keeps Q C U B (f t)) :
    Keeps Q C U B (refuseEnd s task reason origin f) := by
  unfold refuseEnd
  repeat' first
    | with_reducible assumption
    | with_reducible apply hf
    | with_reducible apply refuseLog_keeps
    | with_reducible refine Keeps.ite ?_ (fun _ => ?_)
    | fail_if_no_progress with_reducible refine Keeps.upd ?_ rfl rfl rfl rfl rfl rfl
    | split
    | extract_lets
    | dsimp only

theorem dueOne_keeps {s : State} {d : DriveDue} (hC : CfgClosed C) (hk : Keeps Q C U B s) :
    Keeps Q C U B (dueOne s d) := by
  unfold dueOne
  repeat' first
    | with_reducible assumption
    | with_reducible apply deferLog_keeps
    | with_reducible apply bridgeEnd_keeps
    | with_reducible apply refuseEnd_keeps
    | with_reducible apply bridgeRefused_keeps
    | with_reducible apply taskEndBy_keeps
    | with_reducible apply zRefuse_keeps
    | with_reducible apply nvDrop_keeps
    | with_reducible apply heatFinished_keeps
    | fail_if_no_progress with_reducible refine Keeps.upd ?_ rfl rfl rfl rfl rfl rfl
    | intro _ _ _
    | intro _ _
    | split
    | extract_lets
    | dsimp only

theorem decisionRun_keeps {s : State} (hC : CfgClosed C) (hk : Keeps Q C U B s) :
    Keeps Q C U B (decisionRun s) := by
  unfold decisionRun
  repeat' first
    | with_reducible assumption
    | with_reducible apply dueOne_keeps
    | with_reducible refine foldl_keeps ?_ (fun _ _ _ => ?_)
    | with_reducible refine foldl1_keeps ?_ (fun _ _ _ => ?_)
    | fail_if_no_progress with_reducible refine Keeps.upd ?_ rfl rfl rfl rfl rfl rfl
    | intro _ _ _
    | intro _ _
    | extract_lets
    | dsimp only

theorem packetVerdict_keeps {s : State} {i : Nat} {v : Verdict} (hk : Keeps Q C U B s) :
    Keeps Q C U B (packetVerdict s i v) := by
  unfold packetVerdict
  repeat' first
    | with_reducible assumption
    | with_reducible refine Keeps.ite ?_ (fun _ => ?_)
    | fail_if_no_progress with_reducible refine Keeps.upd ?_ rfl rfl rfl rfl rfl rfl
    | intro _ _ _
    | intro _ _
    | split
    | extract_lets
    | dsimp only

theorem slotVerdict_keeps {s : State} {r : Req} {i : Nat} {v : Verdict} (hk : Keeps Q C U B s) :
    Keeps Q C U B (slotVerdict s r i v) := by
  unfold slotVerdict
  repeat' first
    | with_reducible assumption
    | with_reducible apply packetVerdict_keeps
    | with_reducible apply driveSet_keeps
    | with_reducible refine Keeps.ite ?_ (fun _ => ?_)
    | fail_if_no_progress with_reducible refine Keeps.upd ?_ rfl rfl rfl rfl rfl rfl
    | split
    | extract_lets
    | dsimp +zetaDelta only
    | dsimp only

theorem applyVerdict_keeps {s : State} {x : Req × Verdict} (hk : Keeps Q C U B s) :
    Keeps Q C U B (applyVerdict s x) := by
  unfold applyVerdict
  repeat' first
    | with_reducible assumption
    | with_reducible apply slotVerdict_keeps
    | with_reducible apply ownGranted_keeps
    | with_reducible apply taskNote_keeps
    | with_reducible apply ownDeferred_keeps
    | with_reducible apply ownRefused_keeps
    | with_reducible refine Keeps.ite ?_ (fun _ => ?_)
    | fail_if_no_progress with_reducible refine Keeps.upd ?_ rfl rfl rfl rfl rfl rfl
    | split
    | extract_lets
    | dsimp only

theorem applyVerdicts_keeps {s : State} {out : List (Req × Verdict)} (hk : Keeps Q C U B s) :
    Keeps Q C U B (applyVerdicts s out) := by
  unfold applyVerdicts
  repeat' first
    | with_reducible assumption
    | with_reducible apply applyVerdict_keeps
    | with_reducible refine foldl_keeps ?_ (fun _ _ _ => ?_)
    | with_reducible refine foldl1_keeps ?_ (fun _ _ _ => ?_)
    | fail_if_no_progress with_reducible refine Keeps.upd ?_ rfl rfl rfl rfl rfl rfl
    | intro _ _ _
    | intro _ _
    | extract_lets
    | dsimp +zetaDelta only
    | dsimp only

theorem heaterTurn_keeps {s : State} {n : Nat} (hk : Keeps Q C U B s) :
    Keeps Q C U B (heaterTurn s n) := by
  unfold heaterTurn
  repeat' first
    | with_reducible assumption
    | with_reducible apply modHtr_keeps
    | with_reducible apply driveSet_keeps
    | with_reducible apply stepReady_keeps
    | with_reducible apply dueAdd_keeps
    | with_reducible apply heaterLoop_keeps
    | with_reducible apply heatGranted_keeps
    | with_reducible refine Keeps.ite ?_ (fun _ => ?_)
    | fail_if_no_progress with_reducible refine Keeps.upd ?_ rfl rfl rfl rfl rfl rfl
    | intro _ _ _
    | intro _ _
    | split
    | extract_lets
    | dsimp +zetaDelta only
    | dsimp only

theorem loopsRun_keeps {s : State} (hk : Keeps Q C U B s) :
    Keeps Q C U B (loopsRun s) := by
  unfold loopsRun
  repeat' first
    | with_reducible assumption
    | with_reducible apply forEach_keeps
    | with_reducible apply heaterTurn_keeps
    | with_reducible apply bridgeLoop_keeps
    | with_reducible refine forEach_keeps ?_ (fun _ _ _ => ?_)
    | with_reducible refine Keeps.ite ?_ (fun _ => ?_)
    | fail_if_no_progress with_reducible refine Keeps.upd ?_ rfl rfl rfl rfl rfl rfl
    | intro _ _ _
    | intro _ _
    | split
    | extract_lets
    | dsimp only

theorem decideRecord_keeps {s : State} {ra : Ration} {income : Nat} {net : Nat} {out : List (Req × Verdict)} (hk :
    Keeps Q C U B s) :
    Keeps Q C U B (decideRecord s ra income net out) := by
  unfold decideRecord
  repeat' first
    | with_reducible assumption
    | with_reducible refine foldl_keeps ?_ (fun _ _ _ => ?_)
    | with_reducible refine foldl1_keeps ?_ (fun _ _ _ => ?_)
    | fail_if_no_progress with_reducible refine Keeps.upd ?_ rfl rfl rfl rfl rfl rfl
    | intro _ _ _
    | intro _ _
    | extract_lets
    | dsimp +zetaDelta only
    | dsimp only

theorem askedNone_keeps {s : State} {rs : List Req} (hk : Keeps Q C U B s) :
    Keeps Q C U B (askedNone s rs) := by
  unfold askedNone
  repeat' first
    | with_reducible assumption
    | with_reducible refine Keeps.ite ?_ (fun _ => ?_)
    | fail_if_no_progress with_reducible refine Keeps.upd ?_ rfl rfl rfl rfl rfl rfl
    | intro _ _ _
    | intro _ _
    | split
    | extract_lets
    | dsimp only

theorem decideRun_keeps {s0 : State} {extra : List Req} {far : List Req} {farCaps : Caps} (hk : Keeps Q C U B s0) :
    Keeps Q C U B (decideRun s0 extra far farCaps).1 := by
  unfold decideRun
  repeat' first
    | with_reducible assumption
    | with_reducible apply loopsRun_keeps
    | with_reducible apply owedCreate_keeps
    | with_reducible apply applyVerdicts_keeps
    | with_reducible apply askedNone_keeps
    | with_reducible apply decideRecord_keeps
    | with_reducible refine Keeps.ite ?_ (fun _ => ?_)
    | fail_if_no_progress with_reducible refine Keeps.upd ?_ rfl rfl rfl rfl rfl rfl
    | split
    | extract_lets
    | dsimp +zetaDelta only
    | dsimp only

theorem paramLog_keeps {s : State} {id : Nat} {origin : BitVec 16} {old : Word} {new : Word} (hk : Keeps Q C U B s) :
    Keeps Q C U B (paramLog s id origin old new) := by
  unfold paramLog
  repeat' first
    | with_reducible assumption
    | with_reducible apply logE_keeps
    | with_reducible refine Keeps.ite ?_ (fun _ => ?_)
    | fail_if_no_progress with_reducible refine Keeps.upd ?_ rfl rfl rfl rfl rfl rfl
    | split
    | extract_lets
    | dsimp only

theorem paramPut_keeps {s : State} {id : Nat} {origin : BitVec 16} {w : Word} (hC : CfgClosed C) (hk : Keeps Q C U B
    s) :
    Keeps Q C U B (paramPut s id origin w) := by
  unfold paramPut
  repeat' first
    | with_reducible assumption
    | with_reducible apply paramLog_keeps
    | with_reducible apply setParam_keeps
    | fail_if_no_progress with_reducible refine Keeps.upd ?_ rfl rfl rfl rfl rfl rfl
    | extract_lets
    | dsimp only

theorem freeThrough_length {es : List Entry} {w c : Word} {r : List Entry} (h : freeThrough es w = some (c, r)) :
    r.length ≤ es.length := by
  induction es with
  | nil => cases h
  | cons e es ih =>
    unfold freeThrough at h
    split at h
    · cases h; simp
    · have := ih h; simp only [List.length_cons]; omega

theorem writeFreeTo_keeps {s : State} {origin : BitVec 16} {w : Word} (h : Keeps Q C U B s) :
    Keeps Q C U B (writeFreeTo s origin w) := by
  unfold writeFreeTo
  split
  · exact h
  · next c r e =>
    exact logE_keeps ⟨h.queue, h.config, h.unit, h.phase, fun b => Nat.le_trans (freeThrough_length e) (h.log b), h.events⟩

theorem writePolicy_keeps {s : State} {origin : BitVec 16} {w : Word} (hC : CfgClosed C) (hk : Keeps Q C U B s) :
    Keeps Q C U B (writePolicy s origin w) := by
  unfold writePolicy
  repeat' first
    | with_reducible assumption
    | with_reducible apply logE_keeps
    | with_reducible apply setParam_keeps
    | with_reducible refine Keeps.ite ?_ (fun _ => ?_)
    | fail_if_no_progress with_reducible refine Keeps.upd ?_ rfl rfl rfl rfl rfl rfl
    | split
    | extract_lets
    | dsimp +zetaDelta only
    | dsimp only

theorem boundsApply_keeps {s : State} {n : Nat} {origin : BitVec 16} (hk : Keeps Q C U B s) :
    Keeps Q C U B (boundsApply s n origin) := by
  unfold boundsApply
  repeat' first
    | with_reducible assumption
    | with_reducible apply rangeAsk_keeps
    | with_reducible refine Keeps.ite ?_ (fun _ => ?_)
    | fail_if_no_progress with_reducible refine Keeps.upd ?_ rfl rfl rfl rfl rfl rfl
    | split
    | extract_lets
    | dsimp +zetaDelta only
    | dsimp only

theorem writeBias_keeps {s : State} {k : Nat} {origin : BitVec 16} {w : Word} (hC : CfgClosed C) (hk : Keeps Q C U B
    s) :
    Keeps Q C U B (writeBias s k origin w) := by
  unfold writeBias
  repeat' first
    | with_reducible assumption
    | with_reducible apply setParam_keeps
    | with_reducible apply zAbortRun_keeps
    | with_reducible apply rampCatch_keeps
    | with_reducible apply paramPut_keeps
    | with_reducible apply rampStart_keeps
    | with_reducible refine Keeps.ite ?_ (fun _ => ?_)
    | fail_if_no_progress with_reducible refine Keeps.upd ?_ rfl rfl rfl rfl rfl rfl
    | split
    | extract_lets
    | dsimp +zetaDelta only
    | dsimp only

theorem writeRamp_keeps {s : State} {k : Nat} {origin : BitVec 16} {w : Word} (hC : CfgClosed C) (hk : Keeps Q C U B
    s) :
    Keeps Q C U B (writeRamp s k origin w) := by
  unfold writeRamp
  repeat' first
    | with_reducible assumption
    | with_reducible apply zAbortRun_keeps
    | with_reducible apply setParam_keeps
    | with_reducible apply rampCatch_keeps
    | with_reducible apply paramPut_keeps
    | with_reducible refine Keeps.ite ?_ (fun _ => ?_)
    | fail_if_no_progress with_reducible refine Keeps.upd ?_ rfl rfl rfl rfl rfl rfl
    | split
    | extract_lets
    | dsimp +zetaDelta only
    | dsimp only

theorem writeLeadCap_keeps {s : State} {n : Nat} {origin : BitVec 16} {w : Word} (hk : Keeps Q C U B s) :
    Keeps Q C U B (writeLeadCap s n origin w) := by
  unfold writeLeadCap
  repeat' first
    | with_reducible assumption
    | with_reducible apply modMox_keeps
    | with_reducible apply paramLog_keeps
    | with_reducible refine Keeps.ite ?_ (fun _ => ?_)
    | fail_if_no_progress with_reducible refine Keeps.upd ?_ rfl rfl rfl rfl rfl rfl
    | intro _ _ _
    | intro _ _
    | split
    | extract_lets
    | dsimp +zetaDelta only
    | dsimp only

theorem phaseMoved_keeps {s : State} {c : Nat} (hk : Keeps Q C U B s) :
    Keeps Q C U B (phaseMoved s c) := by
  unfold phaseMoved
  repeat' first
    | with_reducible assumption
    | with_reducible apply settleFrom_keeps
    | with_reducible apply chainDue_keeps
    | with_reducible refine Keeps.ite ?_ (fun _ => ?_)
    | fail_if_no_progress with_reducible refine Keeps.upd ?_ rfl rfl rfl rfl rfl rfl
    | split
    | extract_lets
    | dsimp only

theorem fracHand_keeps {s : State} {c : Nat} (hk : Keeps Q C U B s) :
    Keeps Q C U B (fracHand s c) := by
  unfold fracHand
  repeat' first
    | with_reducible assumption
    | with_reducible apply regSet_keeps
    | with_reducible apply modChain_keeps
    | with_reducible refine Keeps.ite ?_ (fun _ => ?_)
    | fail_if_no_progress with_reducible refine Keeps.upd ?_ rfl rfl rfl rfl rfl rfl
    | intro _ _ _
    | intro _ _
    | split
    | extract_lets
    | dsimp +zetaDelta only
    | dsimp only

theorem writePhaseTicks_keeps {s : State} {c : Nat} {origin : BitVec 16} {w : Word} (hC : CfgClosed C) (hk : Keeps Q C
    U B s) :
    Keeps Q C U B (writePhaseTicks s c origin w) := by
  unfold writePhaseTicks
  repeat' first
    | with_reducible assumption
    | with_reducible apply phaseMoved_keeps
    | with_reducible apply paramPut_keeps
    | with_reducible refine Keeps.ite ?_ (fun _ => ?_)
    | fail_if_no_progress with_reducible refine Keeps.upd ?_ rfl rfl rfl rfl rfl rfl
    | split
    | extract_lets
    | dsimp only

theorem writePhaseFrac_keeps {s : State} {c : Nat} {origin : BitVec 16} {w : Word} (hC : CfgClosed C) (hk : Keeps Q C
    U B s) :
    Keeps Q C U B (writePhaseFrac s c origin w) := by
  unfold writePhaseFrac
  repeat' first
    | with_reducible assumption
    | with_reducible apply fracHand_keeps
    | with_reducible apply paramPut_keeps
    | with_reducible refine Keeps.ite ?_ (fun _ => ?_)
    | fail_if_no_progress with_reducible refine Keeps.upd ?_ rfl rfl rfl rfl rfl rfl
    | split
    | extract_lets
    | dsimp only

theorem confRule_keeps {s : State} {r : Nat} {f : Nat} (hk : Keeps Q C U B s) :
    Keeps Q C U B (confRule s r f) := by
  unfold confRule
  repeat' first
    | with_reducible assumption
    | with_reducible apply twinSend_keeps
    | with_reducible refine Keeps.ite ?_ (fun _ => ?_)
    | fail_if_no_progress with_reducible refine Keeps.upd ?_ rfl rfl rfl rfl rfl rfl
    | intro _ _ _
    | intro _ _
    | split
    | extract_lets
    | dsimp +zetaDelta only
    | dsimp only

theorem writeEnable_keeps {s : State} {r : Nat} {origin : BitVec 16} {w : Word} (hC : CfgClosed C) (hk : Keeps Q C U B
    s) :
    Keeps Q C U B (writeEnable s r origin w) := by
  unfold writeEnable
  repeat' first
    | with_reducible assumption
    | with_reducible apply paramPut_keeps
    | with_reducible apply ruleOff_keeps
    | with_reducible apply modRule_keeps
    | with_reducible apply confRule_keeps
    | with_reducible refine Keeps.ite ?_ (fun _ => ?_)
    | fail_if_no_progress with_reducible refine Keeps.upd ?_ rfl rfl rfl rfl rfl rfl
    | intro _ _ _
    | intro _ _
    | split
    | extract_lets
    | dsimp +zetaDelta only
    | dsimp only

theorem writeWaveSize_keeps {s : State} {w : Nat} {origin : BitVec 16} {v : Word} (hC : CfgClosed C) (hk : Keeps Q C U
    B s) :
    Keeps Q C U B (writeWaveSize s w origin v) := by
  unfold writeWaveSize
  repeat' first
    | with_reducible assumption
    | with_reducible apply paramPut_keeps
    | with_reducible apply forEach_keeps
    | with_reducible refine forEach_keeps ?_ (fun _ _ _ => ?_)
    | with_reducible refine Keeps.ite ?_ (fun _ => ?_)
    | fail_if_no_progress with_reducible refine Keeps.upd ?_ rfl rfl rfl rfl rfl rfl
    | intro _ _ _
    | intro _ _
    | split
    | extract_lets
    | dsimp +zetaDelta only
    | dsimp only

theorem writeAout_keeps {s : State} {origin : BitVec 16} {w : Word} (hk : Keeps Q C U B s) :
    Keeps Q C U B (writeAout s origin w) := by
  unfold writeAout
  repeat' first
    | with_reducible assumption
    | with_reducible apply aoutOff_keeps
    | with_reducible apply logE_keeps
    | with_reducible apply regSet_keeps
    | with_reducible refine Keeps.ite ?_ (fun _ => ?_)
    | fail_if_no_progress with_reducible refine Keeps.upd ?_ rfl rfl rfl rfl rfl rfl
    | split
    | extract_lets
    | dsimp +zetaDelta only
    | dsimp only

theorem putShared_keeps {s : State} {id : Nat} {origin : BitVec 16} {w : Word} (hC : CfgClosed C) (hk : Keeps Q C U B
    s) :
    Keeps Q C U B (putShared s id origin w) := by
  unfold putShared
  repeat' first
    | with_reducible assumption
    | with_reducible apply paramPut_keeps
    | with_reducible apply twinSend_keeps
    | with_reducible apply confRule_keeps
    | with_reducible refine Keeps.ite ?_ (fun _ => ?_)
    | fail_if_no_progress with_reducible refine Keeps.upd ?_ rfl rfl rfl rfl rfl rfl
    | split
    | extract_lets
    | dsimp +zetaDelta only
    | dsimp only

theorem writeParam_keeps {s : State} {id : Nat} {origin : BitVec 16} {w0 : Word} (hC : CfgClosed C) (hk : Keeps Q C U
    B s) :
    Keeps Q C U B (writeParam s id origin w0) := by
  unfold writeParam
  repeat' first
    | with_reducible assumption
    | with_reducible apply writePolicy_keeps
    | with_reducible apply writeFreeTo_keeps
    | with_reducible apply paramPut_keeps
    | with_reducible apply writeAout_keeps
    | with_reducible apply boundsApply_keeps
    | with_reducible apply writeBias_keeps
    | with_reducible apply writeRamp_keeps
    | with_reducible apply modMox_keeps
    | with_reducible apply writeLeadCap_keeps
    | with_reducible apply modHtr_keeps
    | with_reducible apply writePhaseTicks_keeps
    | with_reducible apply writePhaseFrac_keeps
    | with_reducible apply writeEnable_keeps
    | with_reducible apply tallyEmpty_keeps
    | with_reducible apply writeWaveSize_keeps
    | with_reducible apply putShared_keeps
    | with_reducible apply freqNote_keeps
    | with_reducible refine Keeps.ite ?_ (fun _ => ?_)
    | fail_if_no_progress with_reducible refine Keeps.upd ?_ rfl rfl rfl rfl rfl rfl
    | intro _ _ _
    | intro _ _
    | split
    | extract_lets
    | dsimp +zetaDelta only
    | dsimp only

theorem setpApply_keeps {s : State} {origin : BitVec 16} {ps : List (Nat × Word)} (hC : CfgClosed C) (hk : Keeps Q C U
    B s) :
    Keeps Q C U B (setpApply s origin ps) := by
  unfold setpApply
  repeat' first
    | with_reducible assumption
    | with_reducible apply writeParam_keeps
    | with_reducible refine foldl_keeps ?_ (fun _ _ _ => ?_)
    | with_reducible refine foldl1_keeps ?_ (fun _ _ _ => ?_)
    | fail_if_no_progress with_reducible refine Keeps.upd ?_ rfl rfl rfl rfl rfl rfl
    | intro _ _ _
    | intro _ _
    | extract_lets
    | dsimp only

theorem timeMark_keeps {s : State} (hk : Keeps Q C U B s) :
    Keeps Q C U B (timeMark s) := by
  unfold timeMark
  repeat' first
    | with_reducible assumption
    | fail_if_no_progress with_reducible refine Keeps.upd ?_ rfl rfl rfl rfl rfl rfl
    | extract_lets
    | dsimp +zetaDelta only
    | dsimp only

theorem timeNotice_keeps {s : State} {reason : Nat} (hk : Keeps Q C U B s) :
    Keeps Q C U B (timeNotice s reason) := by
  unfold timeNotice
  repeat' first
    | with_reducible assumption
    | fail_if_no_progress with_reducible refine Keeps.upd ?_ rfl rfl rfl rfl rfl rfl
    | extract_lets
    | dsimp only

theorem eraStart_keeps {s : State} {origin : BitVec 16} (hk : Keeps Q C U B s) :
    Keeps Q C U B (eraStart s origin) := by
  unfold eraStart
  repeat' first
    | with_reducible assumption
    | with_reducible apply timeMark_keeps
    | with_reducible apply timeNotice_keeps
    | with_reducible apply logE_keeps
    | fail_if_no_progress with_reducible refine Keeps.upd ?_ rfl rfl rfl rfl rfl rfl
    | extract_lets
    | dsimp +zetaDelta only
    | dsimp only

theorem mapDrop_keeps {s : State} (hk : Keeps Q C U B s) :
    Keeps Q C U B (mapDrop s) := by
  unfold mapDrop
  repeat' first
    | with_reducible assumption
    | fail_if_no_progress with_reducible refine Keeps.upd ?_ rfl rfl rfl rfl rfl rfl
    | extract_lets
    | dsimp only

theorem timeCompare_keeps {s : State} {htick : BitVec 48} {hera : BitVec 16} (hk : Keeps Q C U B s) :
    Keeps Q C U B (timeCompare s htick hera) := by
  unfold timeCompare
  repeat' first
    | with_reducible assumption
    | with_reducible refine Keeps.ite ?_ (fun _ => ?_)
    | fail_if_no_progress with_reducible refine Keeps.upd ?_ rfl rfl rfl rfl rfl rfl
    | split
    | extract_lets
    | dsimp +zetaDelta only
    | dsimp only

theorem stepLog_keeps {s : State} {was : BitVec 48} {target : BitVec 48} (hk : Keeps Q C U B s) :
    Keeps Q C U B (stepLog s was target) := by
  unfold stepLog
  repeat' first
    | with_reducible assumption
    | with_reducible apply logE_keeps
    | fail_if_no_progress with_reducible refine Keeps.upd ?_ rfl rfl rfl rfl rfl rfl
    | extract_lets
    | dsimp +zetaDelta only
    | dsimp only

theorem fixApply_keeps {s : State} (hU : UFree U) (hk : Keeps Q C U B s) :
    Keeps Q C U B (fixApply s) := by
  unfold fixApply
  repeat' first
    | with_reducible assumption
    | with_reducible apply timeMark_keeps
    | with_reducible apply eraStart_keeps
    | with_reducible apply stepLog_keeps
    | with_reducible apply mapDrop_keeps
    | with_reducible apply tallyEvent_keeps
    | with_reducible apply timeNotice_keeps
    | with_reducible refine Keeps.ite ?_ (fun _ => ?_)
    | fail_if_no_progress with_reducible refine Keeps.upd ?_ rfl rfl rfl rfl rfl rfl
    | split
    | extract_lets
    | dsimp +zetaDelta only
    | dsimp only

theorem wrapCheck_keeps {s : State} (hk : Keeps Q C U B s) :
    Keeps Q C U B (wrapCheck s) := by
  unfold wrapCheck
  repeat' first
    | with_reducible assumption
    | with_reducible apply eraStart_keeps
    | with_reducible refine Keeps.ite ?_ (fun _ => ?_)
    | fail_if_no_progress with_reducible refine Keeps.upd ?_ rfl rfl rfl rfl rfl rfl
    | split
    | extract_lets
    | dsimp only

theorem mapSet_keeps {s : State} {o : Int} {left : Nat} {wall : BitVec 64} {tick : BitVec 48} (hk : Keeps Q C U B s) :
    Keeps Q C U B (mapSet s o left wall tick) := by
  unfold mapSet
  repeat' first
    | with_reducible assumption
    | fail_if_no_progress with_reducible refine Keeps.upd ?_ rfl rfl rfl rfl rfl rfl
    | extract_lets
    | dsimp only

theorem timesetLog_keeps {s : State} {mode : Nat} {old : Word} {new : Word} {origin : BitVec 16} (hk : Keeps Q C U B
    s) :
    Keeps Q C U B (timesetLog s mode old new origin) := by
  unfold timesetLog
  repeat' first
    | with_reducible assumption
    | with_reducible apply logE_keeps
    | fail_if_no_progress with_reducible refine Keeps.upd ?_ rfl rfl rfl rfl rfl rfl
    | extract_lets
    | dsimp only

theorem timesetRun_keeps {s : State} {origin : BitVec 16} {wall : BitVec 64} {tick : BitVec 48} (hk : Keeps Q C U B s)
    :
    Keeps Q C U B (timesetRun s origin wall tick) := by
  unfold timesetRun
  repeat' first
    | with_reducible assumption
    | with_reducible apply timesetLog_keeps
    | with_reducible apply mapSet_keeps
    | with_reducible apply eraStart_keeps
    | with_reducible refine Keeps.ite ?_ (fun _ => ?_)
    | fail_if_no_progress with_reducible refine Keeps.upd ?_ rfl rfl rfl rfl rfl rfl
    | split
    | extract_lets
    | dsimp +zetaDelta only
    | dsimp only

theorem slewStep_keeps {s : State} (hk : Keeps Q C U B s) :
    Keeps Q C U B (slewStep s) := by
  unfold slewStep
  repeat' first
    | with_reducible assumption
    | with_reducible refine Keeps.ite ?_ (fun _ => ?_)
    | fail_if_no_progress with_reducible refine Keeps.upd ?_ rfl rfl rfl rfl rfl rfl
    | split
    | extract_lets
    | dsimp only

theorem execSlewStep_keeps {s : State} (hk : Keeps Q C U B s) :
    Keeps Q C U B (outState s (execSlewStep s)) := by
  unfold execSlewStep outState
  try dsimp -zeta only
  repeat' first
    | with_reducible assumption
    | with_reducible apply slewStep_keeps
    | fail_if_no_progress with_reducible refine Keeps.upd ?_ rfl rfl rfl rfl rfl rfl
    | extract_lets
    | dsimp only

theorem nvFree_keeps {s : State} (hk : Keeps Q C U B s) :
    Keeps Q C U B (nvFree s) := by
  unfold nvFree
  repeat' first
    | with_reducible assumption
    | fail_if_no_progress with_reducible refine Keeps.upd ?_ rfl rfl rfl rfl rfl rfl
    | extract_lets
    | dsimp only

theorem sealStart_keeps {s : State} {t : TaskRec} (hk : Keeps Q C U B s) :
    Keeps Q C U B (sealStart s t) := by
  unfold sealStart
  repeat' first
    | with_reducible assumption
    | with_reducible apply taskEnd_keeps
    | with_reducible apply nvFree_keeps
    | with_reducible apply logE_keeps
    | with_reducible refine Keeps.ite ?_ (fun _ => ?_)
    | fail_if_no_progress with_reducible refine Keeps.upd ?_ rfl rfl rfl rfl rfl rfl
    | split
    | extract_lets
    | dsimp +zetaDelta only
    | dsimp only

theorem nvStage_keeps {s : State} (hk : Keeps Q C U B s) :
    Keeps Q C U B (nvStage s) := by
  unfold nvStage
  repeat' first
    | with_reducible assumption
    | with_reducible apply sealStart_keeps
    | with_reducible refine Keeps.ite ?_ (fun _ => ?_)
    | fail_if_no_progress with_reducible refine Keeps.upd ?_ rfl rfl rfl rfl rfl rfl
    | split
    | extract_lets
    | dsimp +zetaDelta only
    | dsimp only

theorem nvFail_keeps {s : State} {origin : BitVec 16} {region : Nat} {code : Nat} (hk : Keeps Q C U B s) :
    Keeps Q C U B (nvFail s origin region code) := by
  unfold nvFail
  repeat' first
    | with_reducible assumption
    | with_reducible apply logE_keeps
    | fail_if_no_progress with_reducible refine Keeps.upd ?_ rfl rfl rfl rfl rfl rfl
    | extract_lets
    | dsimp only

theorem saveNext_keeps {s : State} {t : TaskRec} {m : Nat} {region : Nat} (hk : Keeps Q C U B s) :
    Keeps Q C U B (saveNext s t m region) := by
  unfold saveNext
  repeat' first
    | with_reducible assumption
    | with_reducible apply taskMod_keeps
    | with_reducible apply taskEnd_keeps
    | with_reducible apply nvFree_keeps
    | with_reducible refine Keeps.ite ?_ (fun _ => ?_)
    | fail_if_no_progress with_reducible refine Keeps.upd ?_ rfl rfl rfl rfl rfl rfl
    | intro _ _ _
    | intro _ _
    | split
    | extract_lets
    | dsimp only

theorem saveGood_keeps {s : State} {t : TaskRec} {m : Nat} {region : Nat} {c : CfgImage × CopyImage} (hC : CfgClosed
    C) (hk : Keeps Q C U B s) :
    Keeps Q C U B (saveGood s t m region c) := by
  unfold saveGood
  repeat' first
    | with_reducible assumption
    | with_reducible apply saveNext_keeps
    | with_reducible apply logE_keeps
    | with_reducible refine Keeps.ite ?_ (fun _ => ?_)
    | fail_if_no_progress with_reducible refine Keeps.upd ?_ rfl rfl rfl rfl rfl rfl
    | split
    | extract_lets
    | dsimp +zetaDelta only
    | dsimp only

theorem saveBad_keeps {s : State} {t : TaskRec} {region : Nat} (hC : CfgClosed C) (hk : Keeps Q C U B s) :
    Keeps Q C U B (saveBad s t region) := by
  unfold saveBad
  repeat' first
    | with_reducible assumption
    | with_reducible apply taskEnd_keeps
    | with_reducible apply nvFail_keeps
    | with_reducible apply nvTear_keeps
    | fail_if_no_progress with_reducible refine Keeps.upd ?_ rfl rfl rfl rfl rfl rfl
    | extract_lets
    | dsimp only

theorem execNvsaveDone_keeps {region2 : Bool} {ok : Bool} {s : State} (hC : CfgClosed C) (hk : Keeps Q C U B s) :
    Keeps Q C U B (outState s (execNvsaveDone region2 ok s)) := by
  unfold execNvsaveDone outState
  try dsimp -zeta only
  repeat' first
    | with_reducible assumption
    | with_reducible apply saveGood_keeps
    | with_reducible apply saveBad_keeps
    | with_reducible refine Keeps.ite ?_ (fun _ => ?_)
    | fail_if_no_progress with_reducible refine Keeps.upd ?_ rfl rfl rfl rfl rfl rfl
    | split
    | extract_lets
    | dsimp +zetaDelta only
    | dsimp only

theorem loadPut_keeps {s : State} {ps : List (Nat × Word)} (hC : CfgClosed C) (hk : Keeps Q C U B s) :
    Keeps Q C U B (loadPut s ps) := by
  unfold loadPut
  repeat' first
    | with_reducible assumption
    | with_reducible apply freqNote_keeps
    | with_reducible apply setParam_keeps
    | with_reducible refine foldl_keeps ?_ (fun _ _ _ => ?_)
    | with_reducible refine foldl1_keeps ?_ (fun _ _ _ => ?_)
    | with_reducible refine Keeps.ite ?_ (fun _ => ?_)
    | fail_if_no_progress with_reducible refine Keeps.upd ?_ rfl rfl rfl rfl rfl rfl
    | intro _ _ _
    | intro _ _
    | split
    | extract_lets
    | dsimp only

theorem loadEffect_keeps {s : State} {origin : BitVec 16} {id : Nat} (hk : Keeps Q C U B s) :
    Keeps Q C U B (loadEffect s origin id) := by
  unfold loadEffect
  repeat' first
    | with_reducible assumption
    | with_reducible apply regSet_keeps
    | with_reducible apply boundsApply_keeps
    | with_reducible apply zAbortRun_keeps
    | with_reducible apply rampStart_keeps
    | with_reducible apply modMox_keeps
    | with_reducible apply modHtr_keeps
    | with_reducible apply phaseMoved_keeps
    | with_reducible apply fracHand_keeps
    | with_reducible apply confRule_keeps
    | with_reducible apply modRule_keeps
    | with_reducible apply ruleOff_keeps
    | with_reducible apply tallyEmpty_keeps
    | with_reducible apply logFull_keeps
    | with_reducible apply twinSend_keeps
    | with_reducible refine Keeps.ite ?_ (fun _ => ?_)
    | fail_if_no_progress with_reducible refine Keeps.upd ?_ rfl rfl rfl rfl rfl rfl
    | intro _ _ _
    | intro _ _
    | split
    | extract_lets
    | dsimp +zetaDelta only
    | dsimp only

theorem wavesMoved_keeps {s0 : State} {s : State} (hk : Keeps Q C U B s0) (hk1 : Keeps Q C U B s) :
    Keeps Q C U B (wavesMoved s0 s) := by
  unfold wavesMoved
  repeat' first
    | with_reducible assumption
    | with_reducible apply forEach_keeps
    | with_reducible refine forEach_keeps ?_ (fun _ _ _ => ?_)
    | with_reducible refine Keeps.ite ?_ (fun _ => ?_)
    | fail_if_no_progress with_reducible refine Keeps.upd ?_ rfl rfl rfl rfl rfl rfl
    | intro _ _ _
    | intro _ _
    | split
    | extract_lets
    | dsimp only

theorem loadCal_keeps {s : State} {i : CfgImage} (hk : Keeps Q C U B s) :
    Keeps Q C U B (loadCal s i) := by
  unfold loadCal
  repeat' first
    | with_reducible assumption
    | with_reducible apply forEach_keeps
    | with_reducible apply modChain_keeps
    | with_reducible refine forEach_keeps ?_ (fun _ _ _ => ?_)
    | fail_if_no_progress with_reducible refine Keeps.upd ?_ rfl rfl rfl rfl rfl rfl
    | intro _ _ _
    | intro _ _
    | extract_lets
    | dsimp only

theorem loadCfg_keeps {s : State} {origin : BitVec 16} {i : CfgImage} (hC : CfgClosed C) (hk : Keeps Q C U B s) :
    Keeps Q C U B (loadCfg s origin i) := by
  unfold loadCfg
  repeat' first
    | with_reducible assumption
    | with_reducible apply logE_keeps
    | with_reducible apply forEach_keeps
    | with_reducible apply rampCatch_keeps
    | with_reducible apply loadCal_keeps
    | with_reducible apply loadPut_keeps
    | with_reducible apply wavesMoved_keeps
    | with_reducible apply loadEffect_keeps
    | with_reducible refine forEach_keeps ?_ (fun _ _ _ => ?_)
    | with_reducible refine foldl_keeps ?_ (fun _ _ _ => ?_)
    | with_reducible refine foldl1_keeps ?_ (fun _ _ _ => ?_)
    | fail_if_no_progress with_reducible refine Keeps.upd ?_ rfl rfl rfl rfl rfl rfl
    | intro _ _ _
    | intro _ _
    | extract_lets
    | dsimp +zetaDelta only
    | dsimp only

theorem loadWaves_keeps {s : State} {ws : List (Nat × List (BitVec 16))} (hk : Keeps Q C U B s) :
    Keeps Q C U B (loadWaves s ws) := by
  unfold loadWaves
  repeat' first
    | with_reducible assumption
    | with_reducible refine foldl_keeps ?_ (fun _ _ _ => ?_)
    | with_reducible refine foldl1_keeps ?_ (fun _ _ _ => ?_)
    | with_reducible refine Keeps.ite ?_ (fun _ => ?_)
    | fail_if_no_progress with_reducible refine Keeps.upd ?_ rfl rfl rfl rfl rfl rfl
    | intro _ _ _
    | intro _ _
    | split
    | extract_lets
    | dsimp only

theorem loadCopies_keeps {s : State} {i : CopyImage} (hk : Keeps Q C U B s) :
    Keeps Q C U B (loadCopies s i) := by
  unfold loadCopies
  repeat' first
    | with_reducible assumption
    | with_reducible apply loadWaves_keeps
    | fail_if_no_progress with_reducible refine Keeps.upd ?_ rfl rfl rfl rfl rfl rfl
    | extract_lets
    | dsimp only

theorem loadNext_keeps {s : State} {t : TaskRec} {m : Nat} {region : Nat} (hk : Keeps Q C U B s) :
    Keeps Q C U B (loadNext s t m region) := by
  unfold loadNext
  repeat' first
    | with_reducible assumption
    | with_reducible apply taskMod_keeps
    | with_reducible apply taskEnd_keeps
    | with_reducible refine Keeps.ite ?_ (fun _ => ?_)
    | fail_if_no_progress with_reducible refine Keeps.upd ?_ rfl rfl rfl rfl rfl rfl
    | intro _ _ _
    | intro _ _
    | split
    | extract_lets
    | dsimp only

theorem loadEnd_keeps {s : State} {t : TaskRec} {region : Nat} {code : Nat} (hk : Keeps Q C U B s) :
    Keeps Q C U B (loadEnd s t region code) := by
  unfold loadEnd
  repeat' first
    | with_reducible assumption
    | with_reducible apply taskEnd_keeps
    | with_reducible apply nvFail_keeps
    | fail_if_no_progress with_reducible refine Keeps.upd ?_ rfl rfl rfl rfl rfl rfl
    | extract_lets
    | dsimp only

theorem loadRegion_keeps {s : State} {t : TaskRec} {m : Nat} {region : Nat} (hC : CfgClosed C) (hk : Keeps Q C U B s)
    :
    Keeps Q C U B (loadRegion s t m region) := by
  unfold loadRegion
  repeat' first
    | with_reducible assumption
    | with_reducible apply loadEnd_keeps
    | with_reducible apply taskEnd_keeps
    | with_reducible apply loadNext_keeps
    | with_reducible apply loadCfg_keeps
    | with_reducible apply logE_keeps
    | with_reducible apply loadCopies_keeps
    | with_reducible refine Keeps.ite ?_ (fun _ => ?_)
    | fail_if_no_progress with_reducible refine Keeps.upd ?_ rfl rfl rfl rfl rfl rfl
    | split
    | extract_lets
    | dsimp only

theorem execNvLoadApply_keeps {region2 : Bool} {s : State} (hC : CfgClosed C) (hk : Keeps Q C U B s) :
    Keeps Q C U B (outState s (execNvLoadApply region2 s)) := by
  unfold execNvLoadApply outState
  try dsimp -zeta only
  repeat' first
    | with_reducible assumption
    | with_reducible apply loadRegion_keeps
    | with_reducible refine Keeps.ite ?_ (fun _ => ?_)
    | fail_if_no_progress with_reducible refine Keeps.upd ?_ rfl rfl rfl rfl rfl rfl
    | split
    | extract_lets
    | dsimp +zetaDelta only
    | dsimp only

theorem calLog_keeps {s : State} {origin : BitVec 16} {subject : Nat} {old : Word} {new : Word} (hk : Keeps Q C U B s)
    :
    Keeps Q C U B (calLog s origin subject old new) := by
  unfold calLog
  repeat' first
    | with_reducible assumption
    | with_reducible apply logE_keeps
    | with_reducible refine Keeps.ite ?_ (fun _ => ?_)
    | fail_if_no_progress with_reducible refine Keeps.upd ?_ rfl rfl rfl rfl rfl rfl
    | split
    | extract_lets
    | dsimp only

theorem execCalwriteDone_keeps {ok : Bool} {s : State} (hC : CfgClosed C) (hk : Keeps Q C U B s) :
    Keeps Q C U B (outState s (execCalwriteDone ok s)) := by
  unfold execCalwriteDone outState
  try dsimp -zeta only
  repeat' first
    | with_reducible assumption
    | with_reducible apply saveBad_keeps
    | with_reducible apply modChain_keeps
    | with_reducible apply calLog_keeps
    | with_reducible apply taskEnd_keeps
    | with_reducible apply nvFree_keeps
    | with_reducible refine Keeps.ite ?_ (fun _ => ?_)
    | fail_if_no_progress with_reducible refine Keeps.upd ?_ rfl rfl rfl rfl rfl rfl
    | intro _ _ _
    | intro _ _
    | split
    | extract_lets
    | dsimp +zetaDelta only
    | dsimp only

theorem execRightsRecordWrite_keeps {ok : Bool} {s : State} (hC : CfgClosed C) (hk : Keeps Q C U B s) :
    Keeps Q C U B (outState s (execRightsRecordWrite ok s)) := by
  unfold execRightsRecordWrite outState
  try dsimp -zeta only
  repeat' first
    | with_reducible assumption
    | with_reducible apply saveBad_keeps
    | with_reducible apply taskEnd_keeps
    | with_reducible apply nvFree_keeps
    | with_reducible refine Keeps.ite ?_ (fun _ => ?_)
    | fail_if_no_progress with_reducible refine Keeps.upd ?_ rfl rfl rfl rfl rfl rfl
    | split
    | extract_lets
    | dsimp +zetaDelta only
    | dsimp only

theorem sealWrite_keeps {s : State} {t : TaskRec} {ok : Bool} (hk : Keeps Q C U B s) :
    Keeps Q C U B (sealWrite s t ok) := by
  unfold sealWrite
  repeat' first
    | with_reducible assumption
    | with_reducible apply nvFail_keeps
    | with_reducible refine Keeps.ite ?_ (fun _ => ?_)
    | fail_if_no_progress with_reducible refine Keeps.upd ?_ rfl rfl rfl rfl rfl rfl
    | split
    | extract_lets
    | dsimp +zetaDelta only
    | dsimp only

theorem sealTask_keeps {s : State} {t : TaskRec} {ok : Bool} {done : State → State} (hg : ∀ t, Keeps Q C U B t → Keeps
    Q C U B (done t)) (hk : Keeps Q C U B s) :
    Keeps Q C U B (sealTask s t ok done) := by
  unfold sealTask
  repeat' first
    | with_reducible assumption
    | with_reducible apply taskEnd_keeps
    | with_reducible apply nvFree_keeps
    | with_reducible apply sealWrite_keeps
    | with_reducible apply hg
    | with_reducible refine Keeps.ite ?_ (fun _ => ?_)
    | fail_if_no_progress with_reducible refine Keeps.upd ?_ rfl rfl rfl rfl rfl rfl
    | split
    | extract_lets
    | dsimp +zetaDelta only
    | dsimp only

theorem execLogSealTask_keeps {ok : Bool} {s : State} (hk : Keeps Q C U B s) :
    Keeps Q C U B (outState s (execLogSealTask ok s)) := by
  unfold execLogSealTask outState
  try dsimp -zeta only
  repeat' first
    | with_reducible assumption
    | with_reducible apply sealTask_keeps
    | with_reducible apply taskEnd_keeps
    | fail_if_no_progress with_reducible refine Keeps.upd ?_ rfl rfl rfl rfl rfl rfl
    | intro _ _ _
    | intro _ _
    | split
    | extract_lets
    | dsimp only

theorem execDormantArm_keeps {ok : Bool} {s : State} (hU : UFree U) (hk : Keeps Q C U B s) :
    Keeps Q C U B (outState s (execDormantArm ok s)) := by
  unfold execDormantArm outState
  try dsimp -zeta only
  repeat' first
    | with_reducible assumption
    | with_reducible apply sealTask_keeps
    | with_reducible apply taskEnd_keeps
    | with_reducible refine Keeps.ite ?_ (fun _ => ?_)
    | fail_if_no_progress with_reducible refine Keeps.updU hU ?_ rfl rfl rfl rfl rfl
    | fail_if_no_progress with_reducible refine Keeps.upd ?_ rfl rfl rfl rfl rfl rfl
    | intro _ _ _
    | intro _ _
    | split
    | extract_lets
    | dsimp only

end Sys2Proof.Machine
end

