-- ==== Sys2Proof/Laws/KeepsPackets.lean ====
section
/-! SUPPORT. What opcodes, packets and decisions leave alone (Keeps): one lemma per operation. -/

set_option linter.unusedTactic false
set_option linter.unusedVariables false
set_option linter.unreachableTactic false

namespace Sys2Proof.Machine

variable {Q : List Instr} {C : List (Nat × Word) → Prop} {U : UnitSt → Prop} {B : Prop}

theorem opDone_keeps {s : State} {data : List Byte} (hk : Keeps Q C U B s) :
    Keeps Q C U B (opDone s data).1 := by
  unfold opDone
  repeat' first
    | with_reducible assumption
    | fail_if_no_progress with_reducible refine Keeps.upd ?_ rfl rfl rfl rfl rfl rfl
    | extract_lets
    | dsimp only

theorem opFail_keeps {s : State} {status : Nat} (hk : Keeps Q C U B s) :
    Keeps Q C U B (opFail s status).1 := by
  unfold opFail
  repeat' first
    | with_reducible assumption
    | fail_if_no_progress with_reducible refine Keeps.upd ?_ rfl rfl rfl rfl rfl rfl
    | extract_lets
    | dsimp only

theorem guarded_keeps {s : State} {gs : List (Bool × Nat)} {run : OpResult} (hr : Keeps Q C U B run.1) (hk : Keeps Q C
    U B s) :
    Keeps Q C U B (guarded s gs run).1 := by
  unfold guarded
  repeat' first
    | with_reducible assumption
    | with_reducible apply opFail_keeps
    | fail_if_no_progress with_reducible refine Keeps.upd ?_ rfl rfl rfl rfl rfl rfl
    | intro _ _ _
    | intro _ _
    | split
    | extract_lets
    | dsimp only

theorem bulkRead_keeps {s : State} {c : Ctx} {bytes : List Byte} (hk : Keeps Q C U B s) :
    Keeps Q C U B (bulkRead s c bytes).1 := by
  unfold bulkRead
  repeat' first
    | with_reducible assumption
    | with_reducible apply opDone_keeps
    | with_reducible refine Keeps.ite ?_ (fun _ => ?_)
    | fail_if_no_progress with_reducible refine Keeps.upd ?_ rfl rfl rfl rfl rfl rfl
    | split
    | extract_lets
    | dsimp +zetaDelta only
    | dsimp only

theorem dupSet_keeps {s : State} {p : Packet} {a : Answer} {wait : Option Byte} (hk : Keeps Q C U B s) :
    Keeps Q C U B (dupSet s p a wait) := by
  unfold dupSet
  repeat' first
    | with_reducible assumption
    | fail_if_no_progress with_reducible refine Keeps.upd ?_ rfl rfl rfl rfl rfl rfl
    | extract_lets
    | dsimp only

theorem replyAdd_keeps {s : State} {p : Packet} {a : Answer} {wait : Option Byte} (hk : Keeps Q C U B s) :
    Keeps Q C U B (replyAdd s p a wait) := by
  unfold replyAdd
  repeat' first
    | with_reducible assumption
    | fail_if_no_progress with_reducible refine Keeps.upd ?_ rfl rfl rfl rfl rfl rfl
    | extract_lets
    | dsimp +zetaDelta only
    | dsimp only

theorem rejectLog_keeps {s : State} {p : Packet} {a : Answer} {origin : BitVec 16} {subject : Nat} (hk : Keeps Q C U B
    s) :
    Keeps Q C U B (rejectLog s p a origin subject) := by
  unfold rejectLog
  repeat' first
    | with_reducible assumption
    | with_reducible apply logE_keeps
    | with_reducible refine Keeps.ite ?_ (fun _ => ?_)
    | fail_if_no_progress with_reducible refine Keeps.upd ?_ rfl rfl rfl rfl rfl rfl
    | split
    | extract_lets
    | dsimp +zetaDelta only
    | dsimp only

theorem rejectEvent_keeps {s : State} {p : Packet} {a : Answer} (hk : Keeps Q C U B s) :
    Keeps Q C U B (rejectEvent s p a) := by
  unfold rejectEvent
  repeat' first
    | with_reducible assumption
    | with_reducible apply queueEvent_keeps
    | with_reducible refine Keeps.ite ?_ (fun _ => ?_)
    | fail_if_no_progress with_reducible refine Keeps.upd ?_ rfl rfl rfl rfl rfl rfl
    | split
    | extract_lets
    | dsimp +zetaDelta only
    | dsimp only

theorem rejectNote_keeps {s : State} {p : Packet} {a : Answer} (hk : Keeps Q C U B s) :
    Keeps Q C U B (rejectNote s p a) := by
  unfold rejectNote
  repeat' first
    | with_reducible assumption
    | with_reducible apply rejectEvent_keeps
    | with_reducible apply rejectLog_keeps
    | with_reducible refine Keeps.ite ?_ (fun _ => ?_)
    | fail_if_no_progress with_reducible refine Keeps.upd ?_ rfl rfl rfl rfl rfl rfl
    | split
    | extract_lets
    | dsimp only

theorem packetFinish_keeps {s : State} {p : Packet} {a : Answer} {wait : Option Byte} (hk : Keeps Q C U B s) :
    Keeps Q C U B (packetFinish s p a wait) := by
  unfold packetFinish
  repeat' first
    | with_reducible assumption
    | with_reducible apply rejectNote_keeps
    | with_reducible apply dupSet_keeps
    | with_reducible apply replyAdd_keeps
    | with_reducible refine Keeps.ite ?_ (fun _ => ?_)
    | fail_if_no_progress with_reducible refine Keeps.upd ?_ rfl rfl rfl rfl rfl rfl
    | split
    | extract_lets
    | dsimp +zetaDelta only
    | dsimp only

theorem stopHeld_keeps {s : State} {free : Bool} {run : State → OpResult} (hk : Keeps Q C U B s)
    (hr : ∀ t : State, Keeps Q C U B t → Keeps Q C U B (run t).1) :
    Keeps Q C U B (stopHeld s free run).1 := by
  unfold stopHeld
  repeat' first
    | with_reducible assumption
    | with_reducible apply opFail_keeps
    | with_reducible apply hr
    | split

theorem longRefused_keeps {s : State} {c : Ctx} {opc : Nat} {reason : Nat} (hk : Keeps Q C U B s) :
    Keeps Q C U B (longRefused s c opc reason).1 := by
  unfold longRefused
  repeat' first
    | with_reducible assumption
    | with_reducible apply logE_keeps
    | fail_if_no_progress with_reducible refine Keeps.upd ?_ rfl rfl rfl rfl rfl rfl
    | extract_lets
    | dsimp only

theorem longNote_keeps {s : State} {n : Nat} {v : Option Verdict} (hk : Keeps Q C U B s) :
    Keeps Q C U B (longNote s n v) := by
  unfold longNote
  repeat' first
    | with_reducible assumption
    | with_reducible apply dueAdd_keeps
    | with_reducible apply taskMod_keeps
    | with_reducible refine Keeps.ite ?_ (fun _ => ?_)
    | fail_if_no_progress with_reducible refine Keeps.upd ?_ rfl rfl rfl rfl rfl rfl
    | intro _ _ _
    | intro _ _
    | split
    | extract_lets
    | dsimp only

theorem longRun_keeps {s : State} {c : Ctx} {opc : Nat} {cls : TaskClass} {obj : TaskObj} {go : State → Nat → State}
    (hg : ∀ t i, Keeps Q C U B t → Keeps Q C U B (go t i)) (hk : Keeps Q C U B s) :
    Keeps Q C U B (longRun s c opc cls obj go).1 := by
  unfold longRun
  repeat' first
    | with_reducible assumption
    | with_reducible apply longRefused_keeps
    | with_reducible apply longNote_keeps
    | with_reducible apply taskNew_keeps
    | with_reducible apply hg
    | with_reducible refine Keeps.ite ?_ (fun _ => ?_)
    | fail_if_no_progress with_reducible refine Keeps.upd ?_ rfl rfl rfl rfl rfl rfl
    | split
    | extract_lets
    | dsimp +zetaDelta only
    | dsimp only

theorem choreRun_keeps {s : State} {c : Ctx} {opc : Nat} {obj : TaskObj} (hk : Keeps Q C U B s) :
    Keeps Q C U B (choreRun s c opc obj).1 := by
  unfold choreRun
  repeat' first
    | with_reducible assumption
    | with_reducible apply longRun_keeps
    | with_reducible apply nvBegin_keeps
    | with_reducible refine Keeps.ite ?_ (fun _ => ?_)
    | fail_if_no_progress with_reducible refine Keeps.upd ?_ rfl rfl rfl rfl rfl rfl
    | intro _ _ _
    | intro _ _
    | split
    | extract_lets
    | dsimp only

theorem opHello_keeps {s : State} {_c : Ctx} {_pl : List Byte} (hk : Keeps Q C U B s) :
    Keeps Q C U B (opHello s _c _pl).1 := by
  unfold opHello
  repeat' first
    | with_reducible assumption
    | with_reducible apply opDone_keeps
    | fail_if_no_progress with_reducible refine Keeps.upd ?_ rfl rfl rfl rfl rfl rfl
    | extract_lets
    | dsimp only

theorem opNop_keeps {s : State} {_c : Ctx} {_pl : List Byte} (hk : Keeps Q C U B s) :
    Keeps Q C U B (opNop s _c _pl).1 := by
  unfold opNop
  repeat' first
    | with_reducible assumption
    | with_reducible apply opDone_keeps
    | fail_if_no_progress with_reducible refine Keeps.upd ?_ rfl rfl rfl rfl rfl rfl
    | extract_lets
    | dsimp only

theorem opGetp_keeps {s : State} {_c : Ctx} {pl : List Byte} (hk : Keeps Q C U B s) :
    Keeps Q C U B (opGetp s _c pl).1 := by
  unfold opGetp
  repeat' first
    | with_reducible assumption
    | with_reducible apply opDone_keeps
    | fail_if_no_progress with_reducible refine Keeps.upd ?_ rfl rfl rfl rfl rfl rfl
    | intro _ _ _
    | intro _ _
    | extract_lets
    | dsimp only

theorem opSetp_keeps {s : State} {c : Ctx} {pl : List Byte} (hC : CfgClosed C) (hk : Keeps Q C U B s) :
    Keeps Q C U B (opSetp s c pl).1 := by
  unfold opSetp
  repeat' first
    | with_reducible assumption
    | with_reducible apply opDone_keeps
    | with_reducible apply setpApply_keeps
    | fail_if_no_progress with_reducible refine Keeps.upd ?_ rfl rfl rfl rfl rfl rfl
    | split
    | extract_lets
    | dsimp +zetaDelta only
    | dsimp only

theorem opGetblk_keeps {s : State} {c : Ctx} {pl : List Byte} (hk : Keeps Q C U B s) :
    Keeps Q C U B (opGetblk s c pl).1 := by
  unfold opGetblk
  repeat' first
    | with_reducible assumption
    | with_reducible apply guarded_keeps
    | with_reducible apply opDone_keeps
    | with_reducible apply bulkRead_keeps
    | with_reducible refine Keeps.ite ?_ (fun _ => ?_)
    | fail_if_no_progress with_reducible refine Keeps.upd ?_ rfl rfl rfl rfl rfl rfl
    | intro _ _ _
    | intro _ _
    | split
    | extract_lets
    | dsimp +zetaDelta only
    | dsimp only

theorem stateTaken_keeps {s : State} (hU : UFree U) (hk : Keeps Q C U B s) :
    Keeps Q C U B (stateTaken s) := by
  unfold stateTaken
  repeat' first
    | with_reducible assumption
    | with_reducible refine Keeps.ite ?_ (fun _ => ?_)
    | fail_if_no_progress with_reducible refine Keeps.updU hU ?_ rfl rfl rfl rfl rfl
    | fail_if_no_progress with_reducible refine Keeps.upd ?_ rfl rfl rfl rfl rfl rfl
    | intro _ _ _
    | intro _ _
    | split
    | extract_lets
    | dsimp only

theorem stateEnter_keeps {s : State} {t : Nat} {origin : BitVec 16} (hU : UFree U) (hk : Keeps Q C U B s) :
    Keeps Q C U B (stateEnter s t origin) := by
  unfold stateEnter
  repeat' first
    | with_reducible assumption
    | with_reducible apply enterIdle_keeps
    | with_reducible apply enterRun_keeps
    | with_reducible apply enterVigil_keeps
    | with_reducible apply enterSafe_keeps
    | with_reducible refine Keeps.ite ?_ (fun _ => ?_)
    | fail_if_no_progress with_reducible refine Keeps.upd ?_ rfl rfl rfl rfl rfl rfl
    | split
    | extract_lets
    | dsimp only

theorem dormantTask_keeps {s : State} {c : Ctx} (hk : Keeps Q C U B s) :
    Keeps Q C U B (dormantTask s c).1 := by
  unfold dormantTask
  repeat' first
    | with_reducible assumption
    | with_reducible apply longRun_keeps
    | with_reducible apply twinSplit_keeps
    | with_reducible apply nvBegin_keeps
    | with_reducible refine Keeps.ite ?_ (fun _ => ?_)
    | fail_if_no_progress with_reducible refine Keeps.upd ?_ rfl rfl rfl rfl rfl rfl
    | intro _ _ _
    | intro _ _
    | split
    | extract_lets
    | dsimp +zetaDelta only
    | dsimp only

theorem opState_keeps {s : State} {c : Ctx} {pl : List Byte} (hU : UFree U) (hk : Keeps Q C U B s) :
    Keeps Q C U B (opState s c pl).1 := by
  unfold opState
  repeat' first
    | with_reducible assumption
    | with_reducible apply opDone_keeps
    | with_reducible apply guarded_keeps
    | with_reducible apply dormantTask_keeps
    | with_reducible apply stateEnter_keeps
    | with_reducible refine Keeps.ite ?_ (fun _ => ?_)
    | fail_if_no_progress with_reducible refine Keeps.upd ?_ rfl rfl rfl rfl rfl rfl
    | split
    | extract_lets
    | dsimp +zetaDelta only
    | dsimp only

theorem opReset_keeps {s : State} {c : Ctx} {pl : List Byte} (hU : UFree U) (hk : Keeps Q C U B s) :
    Keeps Q C U B (opReset s c pl).1 := by
  unfold opReset
  repeat' first
    | with_reducible assumption
    | with_reducible apply twinSend_keeps
    | with_reducible apply guarded_keeps
    | with_reducible apply opDone_keeps
    | with_reducible apply logE_keeps
    | with_reducible refine Keeps.ite ?_ (fun _ => ?_)
    | fail_if_no_progress with_reducible refine Keeps.updU hU ?_ rfl rfl rfl rfl rfl
    | fail_if_no_progress with_reducible refine Keeps.upd ?_ rfl rfl rfl rfl rfl rfl
    | split
    | extract_lets
    | dsimp +zetaDelta only
    | dsimp only

theorem rightsTask_keeps {s : State} (hk : Keeps Q C U B s) :
    Keeps Q C U B (rightsTask s) := by
  unfold rightsTask
  repeat' first
    | with_reducible assumption
    | with_reducible apply autoTask_keeps
    | with_reducible refine Keeps.ite ?_ (fun _ => ?_)
    | fail_if_no_progress with_reducible refine Keeps.upd ?_ rfl rfl rfl rfl rfl rfl
    | split
    | extract_lets
    | dsimp only

theorem roleSet_keeps {s : State} {client : Nat} {role : Nat} {origin : BitVec 16} (hk : Keeps Q C U B s) :
    Keeps Q C U B (roleSet s client role origin) := by
  unfold roleSet
  repeat' first
    | with_reducible assumption
    | with_reducible apply rightsTask_keeps
    | with_reducible apply logE_keeps
    | with_reducible refine Keeps.ite ?_ (fun _ => ?_)
    | fail_if_no_progress with_reducible refine Keeps.upd ?_ rfl rfl rfl rfl rfl rfl
    | split
    | extract_lets
    | dsimp +zetaDelta only
    | dsimp only

theorem claimFailed_keeps {s : State} (hk : Keeps Q C U B s) :
    Keeps Q C U B (claimFailed s) := by
  unfold claimFailed
  repeat' first
    | with_reducible assumption
    | fail_if_no_progress with_reducible refine Keeps.upd ?_ rfl rfl rfl rfl rfl rfl
    | extract_lets
    | dsimp only

theorem opClaim_keeps {s : State} {c : Ctx} {pl : List Byte} (hk : Keeps Q C U B s) :
    Keeps Q C U B (opClaim s c pl).1 := by
  unfold opClaim
  repeat' first
    | with_reducible assumption
    | with_reducible apply guarded_keeps
    | with_reducible apply opDone_keeps
    | with_reducible apply opFail_keeps
    | with_reducible apply claimFailed_keeps
    | with_reducible apply roleSet_keeps
    | with_reducible refine Keeps.ite ?_ (fun _ => ?_)
    | fail_if_no_progress with_reducible refine Keeps.upd ?_ rfl rfl rfl rfl rfl rfl
    | split
    | extract_lets
    | dsimp +zetaDelta only
    | dsimp only

theorem opGrant_keeps {s : State} {c : Ctx} {pl : List Byte} (hk : Keeps Q C U B s) :
    Keeps Q C U B (opGrant s c pl).1 := by
  unfold opGrant
  repeat' first
    | with_reducible assumption
    | with_reducible apply guarded_keeps
    | with_reducible apply opDone_keeps
    | with_reducible apply roleSet_keeps
    | fail_if_no_progress with_reducible refine Keeps.upd ?_ rfl rfl rfl rfl rfl rfl
    | extract_lets
    | dsimp +zetaDelta only
    | dsimp only

theorem opRelease_keeps {s : State} {c : Ctx} {_pl : List Byte} (hk : Keeps Q C U B s) :
    Keeps Q C U B (opRelease s c _pl).1 := by
  unfold opRelease
  repeat' first
    | with_reducible assumption
    | with_reducible apply opDone_keeps
    | with_reducible apply roleSet_keeps
    | fail_if_no_progress with_reducible refine Keeps.upd ?_ rfl rfl rfl rfl rfl rfl
    | extract_lets
    | dsimp only

theorem opLogread_keeps {s : State} {c : Ctx} {pl : List Byte} (hk : Keeps Q C U B s) :
    Keeps Q C U B (opLogread s c pl).1 := by
  unfold opLogread
  repeat' first
    | with_reducible assumption
    | with_reducible apply guarded_keeps
    | with_reducible apply opDone_keeps
    | with_reducible apply bulkRead_keeps
    | with_reducible refine Keeps.ite ?_ (fun _ => ?_)
    | fail_if_no_progress with_reducible refine Keeps.upd ?_ rfl rfl rfl rfl rfl rfl
    | split
    | extract_lets
    | dsimp +zetaDelta only
    | dsimp only

theorem opLogseal_keeps {s : State} {c : Ctx} {_pl : List Byte} (hk : Keeps Q C U B s) :
    Keeps Q C U B (opLogseal s c _pl).1 := by
  unfold opLogseal
  repeat' first
    | with_reducible assumption
    | with_reducible apply guarded_keeps
    | with_reducible apply choreRun_keeps
    | fail_if_no_progress with_reducible refine Keeps.upd ?_ rfl rfl rfl rfl rfl rfl
    | extract_lets
    | dsimp only

theorem opLogmark_keeps {s : State} {c : Ctx} {pl : List Byte} (hk : Keeps Q C U B s) :
    Keeps Q C U B (opLogmark s c pl).1 := by
  unfold opLogmark
  repeat' first
    | with_reducible assumption
    | with_reducible apply opDone_keeps
    | with_reducible apply logE_keeps
    | fail_if_no_progress with_reducible refine Keeps.upd ?_ rfl rfl rfl rfl rfl rfl
    | extract_lets
    | dsimp only

theorem opTimeset_keeps {s : State} {c : Ctx} {pl : List Byte} (hk : Keeps Q C U B s) :
    Keeps Q C U B (opTimeset s c pl).1 := by
  unfold opTimeset
  repeat' first
    | with_reducible assumption
    | with_reducible apply guarded_keeps
    | with_reducible apply opDone_keeps
    | with_reducible apply timesetRun_keeps
    | fail_if_no_progress with_reducible refine Keeps.upd ?_ rfl rfl rfl rfl rfl rfl
    | extract_lets
    | dsimp +zetaDelta only
    | dsimp only

theorem opTimeq_keeps {s : State} {_c : Ctx} {_pl : List Byte} (hk : Keeps Q C U B s) :
    Keeps Q C U B (opTimeq s _c _pl).1 := by
  unfold opTimeq
  repeat' first
    | with_reducible assumption
    | with_reducible apply opDone_keeps
    | fail_if_no_progress with_reducible refine Keeps.upd ?_ rfl rfl rfl rfl rfl rfl
    | extract_lets
    | dsimp only

theorem opChstart_keeps {s : State} {c : Ctx} {pl : List Byte} (hk : Keeps Q C U B s) :
    Keeps Q C U B (opChstart s c pl).1 := by
  unfold opChstart
  repeat' first
    | with_reducible assumption
    | with_reducible apply guarded_keeps
    | with_reducible apply opDone_keeps
    | with_reducible apply forEach_keeps
    | with_reducible apply chanStart_keeps
    | with_reducible refine forEach_keeps ?_ (fun _ _ _ => ?_)
    | fail_if_no_progress with_reducible refine Keeps.upd ?_ rfl rfl rfl rfl rfl rfl
    | intro _ _ _
    | intro _ _
    | extract_lets
    | dsimp +zetaDelta only
    | dsimp only

theorem chanCommandStop_keeps {s : State} {ch : Nat} {origin : BitVec 16} (hk : Keeps Q C U B s) :
    Keeps Q C U B (chanCommandStop s ch origin) := by
  unfold chanCommandStop
  repeat' first
    | with_reducible assumption
    | with_reducible apply chanHalt_keeps
    | with_reducible apply zAbortChan_keeps
    | with_reducible apply bridgeEnd_keeps
    | with_reducible refine Keeps.ite ?_ (fun _ => ?_)
    | fail_if_no_progress with_reducible refine Keeps.upd ?_ rfl rfl rfl rfl rfl rfl
    | split
    | extract_lets
    | dsimp +zetaDelta only
    | dsimp only

theorem opChstop_keeps {s : State} {c : Ctx} {pl : List Byte} (hk : Keeps Q C U B s) :
    Keeps Q C U B (opChstop s c pl).1 := by
  unfold opChstop
  repeat' first
    | with_reducible assumption
    | with_reducible apply guarded_keeps
    | with_reducible apply opDone_keeps
    | with_reducible apply forEach_keeps
    | with_reducible apply chanCommandStop_keeps
    | with_reducible refine forEach_keeps ?_ (fun _ _ _ => ?_)
    | fail_if_no_progress with_reducible refine Keeps.upd ?_ rfl rfl rfl rfl rfl rfl
    | intro _ _ _
    | intro _ _
    | extract_lets
    | dsimp +zetaDelta only
    | dsimp only

theorem opSnap_keeps {s : State} {c : Ctx} {pl : List Byte} (hk : Keeps Q C U B s) :
    Keeps Q C U B (opSnap s c pl).1 := by
  unfold opSnap
  repeat' first
    | with_reducible assumption
    | with_reducible apply guarded_keeps
    | with_reducible apply taskNew_keeps
    | with_reducible apply forEach_keeps
    | with_reducible apply snapStart_keeps
    | with_reducible refine forEach_keeps ?_ (fun _ _ _ => ?_)
    | fail_if_no_progress with_reducible refine Keeps.upd ?_ rfl rfl rfl rfl rfl rfl
    | intro _ _ _
    | intro _ _
    | extract_lets
    | dsimp +zetaDelta only
    | dsimp only

theorem opRange_keeps {s : State} {c : Ctx} {pl : List Byte} (hk : Keeps Q C U B s) :
    Keeps Q C U B (opRange s c pl).1 := by
  unfold opRange
  repeat' first
    | with_reducible assumption
    | with_reducible apply guarded_keeps
    | with_reducible apply opDone_keeps
    | with_reducible apply rangeAsk_keeps
    | with_reducible refine Keeps.ite ?_ (fun _ => ?_)
    | fail_if_no_progress with_reducible refine Keeps.upd ?_ rfl rfl rfl rfl rfl rfl
    | split
    | extract_lets
    | dsimp +zetaDelta only
    | dsimp only

theorem opStream_keeps {s : State} {_c : Ctx} {pl : List Byte} (hk : Keeps Q C U B s) :
    Keeps Q C U B (opStream s _c pl).1 := by
  unfold opStream
  repeat' first
    | with_reducible assumption
    | with_reducible apply guarded_keeps
    | with_reducible apply opDone_keeps
    | with_reducible apply streamOff_keeps
    | with_reducible refine Keeps.ite ?_ (fun _ => ?_)
    | fail_if_no_progress with_reducible refine Keeps.upd ?_ rfl rfl rfl rfl rfl rfl
    | split
    | extract_lets
    | dsimp +zetaDelta only
    | dsimp only

theorem opFirload_keeps {s : State} {c : Ctx} {pl : List Byte} (hk : Keeps Q C U B s) :
    Keeps Q C U B (opFirload s c pl).1 := by
  unfold opFirload
  repeat' first
    | with_reducible assumption
    | with_reducible apply guarded_keeps
    | with_reducible apply opDone_keeps
    | with_reducible apply logE_keeps
    | fail_if_no_progress with_reducible refine Keeps.upd ?_ rfl rfl rfl rfl rfl rfl
    | extract_lets
    | dsimp +zetaDelta only
    | dsimp only

theorem opFirsel_keeps {s : State} {c : Ctx} {pl : List Byte} (hC : CfgClosed C) (hk : Keeps Q C U B s) :
    Keeps Q C U B (opFirsel s c pl).1 := by
  unfold opFirsel
  repeat' first
    | with_reducible assumption
    | with_reducible apply guarded_keeps
    | with_reducible apply opDone_keeps
    | with_reducible apply logE_keeps
    | with_reducible apply setParam_keeps
    | with_reducible refine Keeps.ite ?_ (fun _ => ?_)
    | fail_if_no_progress with_reducible refine Keeps.upd ?_ rfl rfl rfl rfl rfl rfl
    | split
    | extract_lets
    | dsimp +zetaDelta only
    | dsimp only

theorem opDcfreeze_keeps {s : State} {c : Ctx} {pl : List Byte} (hk : Keeps Q C U B s) :
    Keeps Q C U B (opDcfreeze s c pl).1 := by
  unfold opDcfreeze
  repeat' first
    | with_reducible assumption
    | with_reducible apply guarded_keeps
    | with_reducible apply opDone_keeps
    | with_reducible apply forEach_keeps
    | with_reducible apply logE_keeps
    | with_reducible apply modChain_keeps
    | with_reducible refine forEach_keeps ?_ (fun _ _ _ => ?_)
    | with_reducible refine Keeps.ite ?_ (fun _ => ?_)
    | fail_if_no_progress with_reducible refine Keeps.upd ?_ rfl rfl rfl rfl rfl rfl
    | intro _ _ _
    | intro _ _
    | split
    | extract_lets
    | dsimp +zetaDelta only
    | dsimp only

theorem opSyncnow_keeps {s : State} {c : Ctx} {_pl : List Byte} (hk : Keeps Q C U B s) :
    Keeps Q C U B (opSyncnow s c _pl).1 := by
  unfold opSyncnow
  repeat' first
    | with_reducible assumption
    | with_reducible apply opDone_keeps
    | with_reducible apply syncRun_keeps
    | with_reducible refine Keeps.ite ?_ (fun _ => ?_)
    | fail_if_no_progress with_reducible refine Keeps.upd ?_ rfl rfl rfl rfl rfl rfl
    | split
    | extract_lets
    | dsimp +zetaDelta only
    | dsimp only

theorem opCalwrite_keeps {s : State} {c : Ctx} {pl : List Byte} (hk : Keeps Q C U B s) :
    Keeps Q C U B (opCalwrite s c pl).1 := by
  unfold opCalwrite
  repeat' first
    | with_reducible assumption
    | with_reducible apply guarded_keeps
    | with_reducible apply choreRun_keeps
    | fail_if_no_progress with_reducible refine Keeps.upd ?_ rfl rfl rfl rfl rfl rfl
    | extract_lets
    | dsimp +zetaDelta only
    | dsimp only

theorem biasOn_keeps {s : State} {c : Ctx} {k : Nat} (hk : Keeps Q C U B s) :
    Keeps Q C U B (biasOn s c k).1 := by
  unfold biasOn
  repeat' first
    | with_reducible assumption
    | with_reducible apply cellEnable_keeps
    | with_reducible apply taskNew_keeps
    | fail_if_no_progress with_reducible refine Keeps.upd ?_ rfl rfl rfl rfl rfl rfl
    | extract_lets
    | dsimp +zetaDelta only
    | dsimp only

theorem biasOff_keeps {s : State} {c : Ctx} {k : Nat} (hk : Keeps Q C U B s) :
    Keeps Q C U B (biasOff s c k).1 := by
  unfold biasOff
  repeat' first
    | with_reducible assumption
    | with_reducible apply zAbortRun_keeps
    | with_reducible apply cellClose_keeps
    | with_reducible apply taskNew_keeps
    | with_reducible refine Keeps.ite ?_ (fun _ => ?_)
    | fail_if_no_progress with_reducible refine Keeps.upd ?_ rfl rfl rfl rfl rfl rfl
    | split
    | extract_lets
    | dsimp +zetaDelta only
    | dsimp only

theorem opBias_keeps {s : State} {c : Ctx} {pl : List Byte} (hk : Keeps Q C U B s) :
    Keeps Q C U B (opBias s c pl).1 := by
  unfold opBias
  repeat' first
    | with_reducible assumption
    | with_reducible apply guarded_keeps
    | with_reducible apply opDone_keeps
    | with_reducible apply biasOn_keeps
    | with_reducible apply biasOff_keeps
    | with_reducible refine Keeps.ite ?_ (fun _ => ?_)
    | fail_if_no_progress with_reducible refine Keeps.upd ?_ rfl rfl rfl rfl rfl rfl
    | split
    | extract_lets
    | dsimp +zetaDelta only
    | dsimp only

theorem opWaveload_keeps {s : State} {c : Ctx} {pl : List Byte} (hk : Keeps Q C U B s) :
    Keeps Q C U B (opWaveload s c pl).1 := by
  unfold opWaveload
  repeat' first
    | with_reducible assumption
    | with_reducible apply guarded_keeps
    | with_reducible apply opDone_keeps
    | with_reducible apply logE_keeps
    | fail_if_no_progress with_reducible refine Keeps.upd ?_ rfl rfl rfl rfl rfl rfl
    | extract_lets
    | dsimp +zetaDelta only
    | dsimp only

theorem playStart_keeps {s : State} {t : Nat} {w : Nat} {k : Nat} {repeats : Nat} {origin : BitVec 16} (hk : Keeps Q C
    U B s) :
    Keeps Q C U B (playStart s t w k repeats origin) := by
  unfold playStart
  repeat' first
    | with_reducible assumption
    | with_reducible apply logE_keeps
    | with_reducible apply modPlay_keeps
    | with_reducible apply biasTo_keeps
    | with_reducible apply modCell_keeps
    | with_reducible refine Keeps.ite ?_ (fun _ => ?_)
    | fail_if_no_progress with_reducible refine Keeps.upd ?_ rfl rfl rfl rfl rfl rfl
    | intro _ _ _
    | intro _ _
    | split
    | extract_lets
    | dsimp +zetaDelta only
    | dsimp only

theorem opWaveplay_keeps {s : State} {c : Ctx} {pl : List Byte} (hk : Keeps Q C U B s) :
    Keeps Q C U B (opWaveplay s c pl).1 := by
  unfold opWaveplay
  repeat' first
    | with_reducible assumption
    | with_reducible apply guarded_keeps
    | with_reducible apply opDone_keeps
    | with_reducible apply playStart_keeps
    | fail_if_no_progress with_reducible refine Keeps.upd ?_ rfl rfl rfl rfl rfl rfl
    | extract_lets
    | dsimp +zetaDelta only
    | dsimp only

theorem opWavestop_keeps {s : State} {c : Ctx} {pl : List Byte} (hk : Keeps Q C U B s) :
    Keeps Q C U B (opWavestop s c pl).1 := by
  unfold opWavestop
  repeat' first
    | with_reducible assumption
    | with_reducible apply guarded_keeps
    | with_reducible apply opDone_keeps
    | with_reducible apply forEach_keeps
    | with_reducible apply playEnd_keeps
    | with_reducible refine forEach_keeps ?_ (fun _ _ _ => ?_)
    | with_reducible refine Keeps.ite ?_ (fun _ => ?_)
    | fail_if_no_progress with_reducible refine Keeps.upd ?_ rfl rfl rfl rfl rfl rfl
    | intro _ _ _
    | intro _ _
    | split
    | extract_lets
    | dsimp +zetaDelta only
    | dsimp only

theorem opAoutset_keeps {s : State} {c : Ctx} {pl : List Byte} (hk : Keeps Q C U B s) :
    Keeps Q C U B (opAoutset s c pl).1 := by
  unfold opAoutset
  repeat' first
    | with_reducible assumption
    | with_reducible apply guarded_keeps
    | with_reducible apply opDone_keeps
    | with_reducible apply logE_keeps
    | with_reducible refine Keeps.ite ?_ (fun _ => ?_)
    | fail_if_no_progress with_reducible refine Keeps.upd ?_ rfl rfl rfl rfl rfl rfl
    | split
    | extract_lets
    | dsimp +zetaDelta only
    | dsimp only

theorem opAoutrange_keeps {s : State} {c : Ctx} {pl : List Byte} (hk : Keeps Q C U B s) :
    Keeps Q C U B (opAoutrange s c pl).1 := by
  unfold opAoutrange
  repeat' first
    | with_reducible assumption
    | with_reducible apply guarded_keeps
    | with_reducible apply opDone_keeps
    | with_reducible apply logE_keeps
    | with_reducible apply regSet_keeps
    | with_reducible refine Keeps.ite ?_ (fun _ => ?_)
    | fail_if_no_progress with_reducible refine Keeps.upd ?_ rfl rfl rfl rfl rfl rfl
    | split
    | extract_lets
    | dsimp +zetaDelta only
    | dsimp only

theorem opProfload_keeps {s : State} {c : Ctx} {pl : List Byte} (hk : Keeps Q C U B s) :
    Keeps Q C U B (opProfload s c pl).1 := by
  unfold opProfload
  repeat' first
    | with_reducible assumption
    | with_reducible apply guarded_keeps
    | with_reducible apply opDone_keeps
    | with_reducible apply logE_keeps
    | fail_if_no_progress with_reducible refine Keeps.upd ?_ rfl rfl rfl rfl rfl rfl
    | extract_lets
    | dsimp +zetaDelta only
    | dsimp only

theorem heatFirst_keeps {s : State} {n : Nat} {v : Option Verdict} (hk : Keeps Q C U B s) :
    Keeps Q C U B (heatFirst s n v) := by
  unfold heatFirst
  repeat' first
    | with_reducible assumption
    | with_reducible apply heatDeferred_keeps
    | with_reducible apply heatGranted_keeps
    | with_reducible apply modHtr_keeps
    | with_reducible refine Keeps.ite ?_ (fun _ => ?_)
    | fail_if_no_progress with_reducible refine Keeps.upd ?_ rfl rfl rfl rfl rfl rfl
    | intro _ _ _
    | intro _ _
    | split
    | extract_lets
    | dsimp only

theorem profileGo_keeps {c : Ctx} {h : Nat} {p : Nat} {s : State} {n : Nat} (hk : Keeps Q C U B s) :
    Keeps Q C U B (profileGo c h p s n) := by
  unfold profileGo
  repeat' first
    | with_reducible assumption
    | with_reducible apply heatStart_keeps
    | with_reducible apply heatFirst_keeps
    | with_reducible apply heaterLoop_keeps
    | with_reducible refine Keeps.ite ?_ (fun _ => ?_)
    | fail_if_no_progress with_reducible refine Keeps.upd ?_ rfl rfl rfl rfl rfl rfl
    | split
    | extract_lets
    | dsimp +zetaDelta only
    | dsimp only

theorem opHeatrun_keeps {s : State} {c : Ctx} {pl : List Byte} (hk : Keeps Q C U B s) :
    Keeps Q C U B (opHeatrun s c pl).1 := by
  unfold opHeatrun
  repeat' first
    | with_reducible assumption
    | with_reducible apply guarded_keeps
    | with_reducible apply longRun_keeps
    | with_reducible apply profileGo_keeps
    | fail_if_no_progress with_reducible refine Keeps.upd ?_ rfl rfl rfl rfl rfl rfl
    | extract_lets
    | dsimp +zetaDelta only
    | dsimp only

theorem opLeadcal_keeps {s : State} {c : Ctx} {pl : List Byte} (hk : Keeps Q C U B s) :
    Keeps Q C U B (opLeadcal s c pl).1 := by
  unfold opLeadcal
  repeat' first
    | with_reducible assumption
    | with_reducible apply guarded_keeps
    | with_reducible apply longRun_keeps
    | with_reducible apply heatFirst_keeps
    | with_reducible apply leadStart_keeps
    | fail_if_no_progress with_reducible refine Keeps.upd ?_ rfl rfl rfl rfl rfl rfl
    | intro _ _ _
    | intro _ _
    | extract_lets
    | dsimp +zetaDelta only
    | dsimp only

theorem opHeatstop_keeps {s : State} {c : Ctx} {pl : List Byte} (hk : Keeps Q C U B s) :
    Keeps Q C U B (opHeatstop s c pl).1 := by
  unfold opHeatstop
  repeat' first
    | with_reducible assumption
    | with_reducible apply guarded_keeps
    | with_reducible apply opDone_keeps
    | with_reducible apply forEach_keeps
    | with_reducible apply htrEnd_keeps
    | with_reducible refine forEach_keeps ?_ (fun _ _ _ => ?_)
    | fail_if_no_progress with_reducible refine Keeps.upd ?_ rfl rfl rfl rfl rfl rfl
    | intro _ _ _
    | intro _ _
    | extract_lets
    | dsimp +zetaDelta only
    | dsimp only

theorem zGo_keeps {v : Option Verdict} {chs : List Nat} {s : State} {n : Nat} (hk : Keeps Q C U B s) :
    Keeps Q C U B (zGo v chs s n) := by
  unfold zGo
  repeat' first
    | with_reducible assumption
    | with_reducible apply zEnqueue_keeps
    | with_reducible apply zGranted_keeps
    | with_reducible refine Keeps.ite ?_ (fun _ => ?_)
    | fail_if_no_progress with_reducible refine Keeps.upd ?_ rfl rfl rfl rfl rfl rfl
    | split
    | extract_lets
    | dsimp +zetaDelta only
    | dsimp only

theorem opZcheck_keeps {s : State} {c : Ctx} {pl : List Byte} (hk : Keeps Q C U B s) :
    Keeps Q C U B (opZcheck s c pl).1 := by
  unfold opZcheck
  repeat' first
    | with_reducible assumption
    | with_reducible apply guarded_keeps
    | with_reducible apply opDone_keeps
    | with_reducible apply longRun_keeps
    | with_reducible apply zGo_keeps
    | with_reducible refine Keeps.ite ?_ (fun _ => ?_)
    | fail_if_no_progress with_reducible refine Keeps.upd ?_ rfl rfl rfl rfl rfl rfl
    | intro _ _ _
    | intro _ _
    | split
    | extract_lets
    | dsimp +zetaDelta only
    | dsimp only

theorem masterAsk_keeps {s : State} {arm : Bool} {armId : BitVec 16} (hk : Keeps Q C U B s) :
    Keeps Q C U B (masterAsk s arm armId) := by
  unfold masterAsk
  repeat' first
    | with_reducible assumption
    | with_reducible refine Keeps.ite ?_ (fun _ => ?_)
    | fail_if_no_progress with_reducible refine Keeps.upd ?_ rfl rfl rfl rfl rfl rfl
    | split
    | extract_lets
    | dsimp only

theorem opTriparm_keeps {s : State} {c : Ctx} {pl : List Byte} (hk : Keeps Q C U B s) :
    Keeps Q C U B (opTriparm s c pl).1 := by
  unfold opTriparm
  repeat' first
    | with_reducible assumption
    | with_reducible apply guarded_keeps
    | with_reducible apply opDone_keeps
    | with_reducible apply masterAsk_keeps
    | with_reducible apply tripArm_keeps
    | fail_if_no_progress with_reducible refine Keeps.upd ?_ rfl rfl rfl rfl rfl rfl
    | extract_lets
    | dsimp +zetaDelta only
    | dsimp only

theorem disarmRun_keeps {s : State} {m : Nat} {origin : BitVec 16} (hk : Keeps Q C U B s) :
    Keeps Q C U B (disarmRun s m origin) := by
  unfold disarmRun
  repeat' first
    | with_reducible assumption
    | with_reducible apply tripDisarm_keeps
    | with_reducible apply masterAsk_keeps
    | with_reducible refine Keeps.ite ?_ (fun _ => ?_)
    | fail_if_no_progress with_reducible refine Keeps.upd ?_ rfl rfl rfl rfl rfl rfl
    | split
    | extract_lets
    | dsimp +zetaDelta only
    | dsimp only

theorem opTripdisarm_keeps {s : State} {c : Ctx} {pl : List Byte} (hk : Keeps Q C U B s) :
    Keeps Q C U B (opTripdisarm s c pl).1 := by
  unfold opTripdisarm
  repeat' first
    | with_reducible assumption
    | with_reducible apply opDone_keeps
    | with_reducible apply disarmRun_keeps
    | fail_if_no_progress with_reducible refine Keeps.upd ?_ rfl rfl rfl rfl rfl rfl
    | extract_lets
    | dsimp only

theorem opTripforce_keeps {s : State} {_c : Ctx} {pl : List Byte} (hk : Keeps Q C U B s) :
    Keeps Q C U B (opTripforce s _c pl).1 := by
  unfold opTripforce
  repeat' first
    | with_reducible assumption
    | with_reducible apply guarded_keeps
    | with_reducible apply opDone_keeps
    | with_reducible apply tripTake_keeps
    | fail_if_no_progress with_reducible refine Keeps.upd ?_ rfl rfl rfl rfl rfl rfl
    | extract_lets
    | dsimp +zetaDelta only
    | dsimp only

theorem opCapread_keeps {s : State} {c : Ctx} {pl : List Byte} (hk : Keeps Q C U B s) :
    Keeps Q C U B (opCapread s c pl).1 := by
  unfold opCapread
  repeat' first
    | with_reducible assumption
    | with_reducible apply guarded_keeps
    | with_reducible apply opDone_keeps
    | with_reducible apply bulkRead_keeps
    | with_reducible refine Keeps.ite ?_ (fun _ => ?_)
    | fail_if_no_progress with_reducible refine Keeps.upd ?_ rfl rfl rfl rfl rfl rfl
    | split
    | extract_lets
    | dsimp +zetaDelta only
    | dsimp only

theorem opCapstat_keeps {s : State} {_c : Ctx} {_pl : List Byte} (hk : Keeps Q C U B s) :
    Keeps Q C U B (opCapstat s _c _pl).1 := by
  unfold opCapstat
  repeat' first
    | with_reducible assumption
    | with_reducible apply opDone_keeps
    | fail_if_no_progress with_reducible refine Keeps.upd ?_ rfl rfl rfl rfl rfl rfl
    | intro _ _ _
    | intro _ _
    | extract_lets
    | dsimp only

theorem capClear_keeps {s : State} {origin : BitVec 16} (hk : Keeps Q C U B s) :
    Keeps Q C U B (capClear s origin) := by
  unfold capClear
  repeat' first
    | with_reducible assumption
    | with_reducible apply capClose_keeps
    | with_reducible apply capOpen_keeps
    | with_reducible refine Keeps.ite ?_ (fun _ => ?_)
    | fail_if_no_progress with_reducible refine Keeps.upd ?_ rfl rfl rfl rfl rfl rfl
    | split
    | extract_lets
    | dsimp +zetaDelta only
    | dsimp only

theorem opCapclear_keeps {s : State} {c : Ctx} {_pl : List Byte} (hk : Keeps Q C U B s) :
    Keeps Q C U B (opCapclear s c _pl).1 := by
  unfold opCapclear
  repeat' first
    | with_reducible assumption
    | with_reducible apply opDone_keeps
    | with_reducible apply capClear_keeps
    | fail_if_no_progress with_reducible refine Keeps.upd ?_ rfl rfl rfl rfl rfl rfl
    | extract_lets
    | dsimp only

theorem ackRule_keeps {s : State} {origin : BitVec 16} {r : Nat} (hk : Keeps Q C U B s) :
    Keeps Q C U B (ackRule s origin r) := by
  unfold ackRule
  repeat' first
    | with_reducible assumption
    | with_reducible apply logE_keeps
    | with_reducible apply alarmTo_keeps
    | with_reducible apply modRule_keeps
    | with_reducible refine Keeps.ite ?_ (fun _ => ?_)
    | fail_if_no_progress with_reducible refine Keeps.upd ?_ rfl rfl rfl rfl rfl rfl
    | intro _ _ _
    | intro _ _
    | split
    | extract_lets
    | dsimp only

theorem opAlarmack_keeps {s : State} {c : Ctx} {pl : List Byte} (hk : Keeps Q C U B s) :
    Keeps Q C U B (opAlarmack s c pl).1 := by
  unfold opAlarmack
  repeat' first
    | with_reducible assumption
    | with_reducible apply opDone_keeps
    | with_reducible apply forEach_keeps
    | with_reducible apply ackRule_keeps
    | with_reducible refine forEach_keeps ?_ (fun _ _ _ => ?_)
    | fail_if_no_progress with_reducible refine Keeps.upd ?_ rfl rfl rfl rfl rfl rfl
    | intro _ _ _
    | intro _ _
    | extract_lets
    | dsimp only

theorem opTallyread_keeps {s : State} {_c : Ctx} {pl : List Byte} (hk : Keeps Q C U B s) :
    Keeps Q C U B (opTallyread s _c pl).1 := by
  unfold opTallyread
  repeat' first
    | with_reducible assumption
    | with_reducible apply guarded_keeps
    | with_reducible apply opDone_keeps
    | fail_if_no_progress with_reducible refine Keeps.upd ?_ rfl rfl rfl rfl rfl rfl
    | extract_lets
    | dsimp +zetaDelta only
    | dsimp only

theorem tallyUndo_keeps {s : State} {i : Nat} (hk : Keeps Q C U B s) :
    Keeps Q C U B (tallyUndo s i) := by
  unfold tallyUndo
  repeat' first
    | with_reducible assumption
    | with_reducible apply forEach_keeps
    | with_reducible apply modFront_keeps
    | with_reducible apply modHtr_keeps
    | with_reducible refine forEach_keeps ?_ (fun _ _ _ => ?_)
    | with_reducible refine Keeps.ite ?_ (fun _ => ?_)
    | fail_if_no_progress with_reducible refine Keeps.upd ?_ rfl rfl rfl rfl rfl rfl
    | intro _ _ _
    | intro _ _
    | split
    | extract_lets
    | dsimp only

theorem tallyClear_keeps {s : State} {origin : BitVec 16} {i : Nat} (hk : Keeps Q C U B s) :
    Keeps Q C U B (tallyClear s origin i) := by
  unfold tallyClear
  repeat' first
    | with_reducible assumption
    | with_reducible apply tallyEmpty_keeps
    | with_reducible apply tallyUndo_keeps
    | with_reducible apply logE_keeps
    | with_reducible refine Keeps.ite ?_ (fun _ => ?_)
    | fail_if_no_progress with_reducible refine Keeps.upd ?_ rfl rfl rfl rfl rfl rfl
    | intro _ _ _
    | intro _ _
    | split
    | extract_lets
    | dsimp +zetaDelta only
    | dsimp only

theorem opTallyclear_keeps {s : State} {c : Ctx} {pl : List Byte} (hk : Keeps Q C U B s) :
    Keeps Q C U B (opTallyclear s c pl).1 := by
  unfold opTallyclear
  repeat' first
    | with_reducible assumption
    | with_reducible apply guarded_keeps
    | with_reducible apply opDone_keeps
    | with_reducible apply forEach_keeps
    | with_reducible apply tallyClear_keeps
    | with_reducible refine forEach_keeps ?_ (fun _ _ _ => ?_)
    | with_reducible refine Keeps.ite ?_ (fun _ => ?_)
    | fail_if_no_progress with_reducible refine Keeps.upd ?_ rfl rfl rfl rfl rfl rfl
    | intro _ _ _
    | intro _ _
    | split
    | extract_lets
    | dsimp +zetaDelta only
    | dsimp only

theorem joinStart_keeps {s : State} {c : Ctx} {mode : Nat} {partner : Nat} (hk : Keeps Q C U B s) :
    Keeps Q C U B (joinStart s c mode partner).1 := by
  unfold joinStart
  repeat' first
    | with_reducible assumption
    | with_reducible apply taskNew_keeps
    | fail_if_no_progress with_reducible refine Keeps.upd ?_ rfl rfl rfl rfl rfl rfl
    | extract_lets
    | dsimp +zetaDelta only
    | dsimp only

theorem opTwinjoin_keeps {s : State} {c : Ctx} {pl : List Byte} (hk : Keeps Q C U B s) :
    Keeps Q C U B (opTwinjoin s c pl).1 := by
  unfold opTwinjoin
  repeat' first
    | with_reducible assumption
    | with_reducible apply guarded_keeps
    | with_reducible apply longRefused_keeps
    | with_reducible apply joinStart_keeps
    | with_reducible refine Keeps.ite ?_ (fun _ => ?_)
    | fail_if_no_progress with_reducible refine Keeps.upd ?_ rfl rfl rfl rfl rfl rfl
    | split
    | extract_lets
    | dsimp +zetaDelta only
    | dsimp only

theorem opTwinsplit_keeps {s : State} {c : Ctx} {_pl : List Byte} (hk : Keeps Q C U B s) :
    Keeps Q C U B (opTwinsplit s c _pl).1 := by
  unfold opTwinsplit
  repeat' first
    | with_reducible assumption
    | with_reducible apply opDone_keeps
    | with_reducible apply twinSplit_keeps
    | with_reducible apply joinEndSend_keeps
    | with_reducible refine Keeps.ite ?_ (fun _ => ?_)
    | fail_if_no_progress with_reducible refine Keeps.upd ?_ rfl rfl rfl rfl rfl rfl
    | split
    | extract_lets
    | dsimp only

theorem opTwinstat_keeps {s : State} {_c : Ctx} {_pl : List Byte} (hk : Keeps Q C U B s) :
    Keeps Q C U B (opTwinstat s _c _pl).1 := by
  unfold opTwinstat
  repeat' first
    | with_reducible assumption
    | with_reducible apply opDone_keeps
    | fail_if_no_progress with_reducible refine Keeps.upd ?_ rfl rfl rfl rfl rfl rfl
    | extract_lets
    | dsimp +zetaDelta only
    | dsimp only

theorem opNvsave_keeps {s : State} {c : Ctx} {pl : List Byte} (hk : Keeps Q C U B s) :
    Keeps Q C U B (opNvsave s c pl).1 := by
  unfold opNvsave
  repeat' first
    | with_reducible assumption
    | with_reducible apply guarded_keeps
    | with_reducible apply choreRun_keeps
    | fail_if_no_progress with_reducible refine Keeps.upd ?_ rfl rfl rfl rfl rfl rfl
    | extract_lets
    | dsimp +zetaDelta only
    | dsimp only

theorem opNvload_keeps {s : State} {c : Ctx} {pl : List Byte} (hk : Keeps Q C U B s) :
    Keeps Q C U B (opNvload s c pl).1 := by
  unfold opNvload
  repeat' first
    | with_reducible assumption
    | with_reducible apply guarded_keeps
    | with_reducible apply choreRun_keeps
    | fail_if_no_progress with_reducible refine Keeps.upd ?_ rfl rfl rfl rfl rfl rfl
    | extract_lets
    | dsimp +zetaDelta only
    | dsimp only

theorem opTaskq_keeps {s : State} {_c : Ctx} {pl : List Byte} (hk : Keeps Q C U B s) :
    Keeps Q C U B (opTaskq s _c pl).1 := by
  unfold opTaskq
  repeat' first
    | with_reducible assumption
    | with_reducible apply opDone_keeps
    | with_reducible refine Keeps.ite ?_ (fun _ => ?_)
    | fail_if_no_progress with_reducible refine Keeps.upd ?_ rfl rfl rfl rfl rfl rfl
    | split
    | extract_lets
    | dsimp +zetaDelta only
    | dsimp only

theorem opRationq_keeps {s : State} {_c : Ctx} {_pl : List Byte} (hk : Keeps Q C U B s) :
    Keeps Q C U B (opRationq s _c _pl).1 := by
  unfold opRationq
  repeat' first
    | with_reducible assumption
    | with_reducible apply opDone_keeps
    | fail_if_no_progress with_reducible refine Keeps.upd ?_ rfl rfl rfl rfl rfl rfl
    | extract_lets
    | dsimp +zetaDelta only
    | dsimp only

theorem opFieldread_keeps {s : State} {c : Ctx} {pl : List Byte} (hk : Keeps Q C U B s) :
    Keeps Q C U B (opFieldread s c pl).1 := by
  unfold opFieldread
  repeat' first
    | with_reducible assumption
    | fail_if_no_progress with_reducible refine Keeps.upd ?_ rfl rfl rfl rfl rfl rfl
    | extract_lets
    | dsimp +zetaDelta only
    | dsimp only

theorem opPins_keeps {s : State} {_c : Ctx} {_pl : List Byte} (hk : Keeps Q C U B s) :
    Keeps Q C U B (opPins s _c _pl).1 := by
  unfold opPins
  repeat' first
    | with_reducible assumption
    | with_reducible apply opDone_keeps
    | fail_if_no_progress with_reducible refine Keeps.upd ?_ rfl rfl rfl rfl rfl rfl
    | extract_lets
    | dsimp only

theorem opDiag_keeps {s : State} {c : Ctx} {pl : List Byte} (hk : Keeps Q C U B s) :
    Keeps Q C U B (opDiag s c pl).1 := by
  unfold opDiag
  repeat' first
    | with_reducible assumption
    | with_reducible apply opFieldread_keeps
    | with_reducible apply opPins_keeps
    | with_reducible apply opFail_keeps
    | fail_if_no_progress with_reducible refine Keeps.upd ?_ rfl rfl rfl rfl rfl rfl
    | split
    | extract_lets
    | dsimp only

theorem opUnit_keeps {s : State} {c : Ctx} {opc : Nat} {pl : List Byte} (hC : CfgClosed C) (hU : UFree U) (hk : Keeps
    Q C U B s) :
    Keeps Q C U B (opUnit s c opc pl).1 := by
  unfold opUnit
  repeat' first
    | with_reducible assumption
    | with_reducible apply opNop_keeps
    | with_reducible apply opHello_keeps
    | with_reducible apply opGetp_keeps
    | with_reducible apply opSetp_keeps
    | with_reducible apply opGetblk_keeps
    | with_reducible apply opState_keeps
    | with_reducible apply opReset_keeps
    | with_reducible apply opClaim_keeps
    | with_reducible apply opGrant_keeps
    | with_reducible apply opRelease_keeps
    | with_reducible apply opLogread_keeps
    | with_reducible apply opLogseal_keeps
    | with_reducible apply opLogmark_keeps
    | with_reducible apply opTimeset_keeps
    | with_reducible apply opTimeq_keeps
    | with_reducible apply opChstart_keeps
    | with_reducible apply opChstop_keeps
    | with_reducible apply opRange_keeps
    | with_reducible apply opSnap_keeps
    | with_reducible apply opStream_keeps
    | with_reducible apply opFirload_keeps
    | with_reducible apply opFirsel_keeps
    | with_reducible apply opDcfreeze_keeps
    | with_reducible apply opSyncnow_keeps
    | with_reducible apply opBias_keeps
    | with_reducible apply opFail_keeps
    | fail_if_no_progress with_reducible refine Keeps.upd ?_ rfl rfl rfl rfl rfl rfl
    | split
    | extract_lets
    | dsimp only

theorem opRun_keeps {s : State} {c : Ctx} {opc : Nat} {pl : List Byte} (hC : CfgClosed C) (hU : UFree U) (hk : Keeps Q
    C U B s) :
    Keeps Q C U B (opRun s c opc pl).1 := by
  unfold opRun
  repeat' first
    | with_reducible assumption
    | with_reducible apply opWaveplay_keeps
    | with_reducible apply opWavestop_keeps
    | with_reducible apply opWaveload_keeps
    | with_reducible apply opHeatrun_keeps
    | with_reducible apply opHeatstop_keeps
    | with_reducible apply opProfload_keeps
    | with_reducible apply opLeadcal_keeps
    | with_reducible apply opZcheck_keeps
    | with_reducible apply opTriparm_keeps
    | with_reducible apply opTripdisarm_keeps
    | with_reducible apply opTripforce_keeps
    | with_reducible apply opCapread_keeps
    | with_reducible apply opCapstat_keeps
    | with_reducible apply opCapclear_keeps
    | with_reducible apply opAlarmack_keeps
    | with_reducible apply opTallyread_keeps
    | with_reducible apply opTallyclear_keeps
    | with_reducible apply opAoutset_keeps
    | with_reducible apply opAoutrange_keeps
    | with_reducible apply opTwinjoin_keeps
    | with_reducible apply opTwinsplit_keeps
    | with_reducible apply opTwinstat_keeps
    | with_reducible apply opNvsave_keeps
    | with_reducible apply opNvload_keeps
    | with_reducible apply opCalwrite_keeps
    | with_reducible apply opTaskq_keeps
    | with_reducible apply opRationq_keeps
    | with_reducible apply opDiag_keeps
    | with_reducible apply opUnit_keeps
    | fail_if_no_progress with_reducible refine Keeps.upd ?_ rfl rfl rfl rfl rfl rfl
    | split
    | extract_lets
    | dsimp only

theorem stateAsked_keeps {s : State} {p : Packet} (hU : UFree U) (hk : Keeps Q C U B s) :
    Keeps Q C U B (stateAsked s p) := by
  unfold stateAsked
  repeat' first
    | with_reducible assumption
    | with_reducible apply stateTaken_keeps
    | with_reducible refine Keeps.ite ?_ (fun _ => ?_)
    | fail_if_no_progress with_reducible refine Keeps.upd ?_ rfl rfl rfl rfl rfl rfl
    | split
    | extract_lets
    | dsimp only

theorem stepsRun_keeps {s0 : State} {c : Ctx} {p : Packet} (hC : CfgClosed C) (hU : UFree U) (hk : Keeps Q C U B s0) :
    Keeps Q C U B (stepsRun s0 c p).1 := by
  unfold stepsRun
  repeat' first
    | with_reducible assumption
    | with_reducible apply stateAsked_keeps
    | with_reducible apply opFail_keeps
    | with_reducible apply stopHeld_keeps
    | with_reducible apply opRun_keeps
    | with_reducible refine Keeps.ite ?_ (fun _ => ?_)
    | fail_if_no_progress with_reducible refine Keeps.upd ?_ rfl rfl rfl rfl rfl rfl
    | intro _ _ _
    | intro _ _
    | split
    | extract_lets
    | dsimp +zetaDelta only
    | dsimp only

theorem ownRun_keeps {s : State} {p : Packet} {v : Option Verdict} (hC : CfgClosed C) (hU : UFree U) (hk : Keeps Q C U
    B s) :
    Keeps Q C U B (ownRun s p v).1 := by
  unfold ownRun
  repeat' first
    | with_reducible assumption
    | with_reducible apply stepsRun_keeps
    | fail_if_no_progress with_reducible refine Keeps.upd ?_ rfl rfl rfl rfl rfl rfl
    | extract_lets
    | dsimp only

theorem farRun_keeps {s : State} {p : Packet} {v : Option Verdict} (hC : CfgClosed C) (hU : UFree U) (hk : Keeps Q C U
    B s) :
    Keeps Q C U B (farRun s p v).1 := by
  unfold farRun
  repeat' first
    | with_reducible assumption
    | with_reducible apply stepsRun_keeps
    | fail_if_no_progress with_reducible refine Keeps.upd ?_ rfl rfl rfl rfl rfl rfl
    | extract_lets
    | dsimp only

theorem fwdSend_keeps {s : State} {p : Packet} {own : Option (List Byte)} {far : List Byte} (hk : Keeps Q C U B s) :
    Keeps Q C U B (fwdSend s p own far) := by
  unfold fwdSend
  repeat' first
    | with_reducible assumption
    | with_reducible apply twinSend_keeps
    | with_reducible refine Keeps.ite ?_ (fun _ => ?_)
    | fail_if_no_progress with_reducible refine Keeps.upd ?_ rfl rfl rfl rfl rfl rfl
    | intro _ _ _
    | intro _ _
    | split
    | extract_lets
    | dsimp +zetaDelta only
    | dsimp only

theorem packetBad_keeps {s : State} {p : Packet} (hk : Keeps Q C U B s) :
    Keeps Q C U B (packetBad s p) := by
  unfold packetBad
  repeat' first
    | with_reducible assumption
    | with_reducible apply replyAdd_keeps
    | with_reducible apply rejectLog_keeps
    | fail_if_no_progress with_reducible refine Keeps.upd ?_ rfl rfl rfl rfl rfl rfl
    | extract_lets
    | dsimp +zetaDelta only
    | dsimp only

theorem packetEnd_keeps {s : State} {p : Packet} {go : State} (hg : Keeps Q C U B go) (hk : Keeps Q C U B s) :
    Keeps Q C U B (packetEnd s p go) := by
  unfold packetEnd
  repeat' first
    | with_reducible assumption
    | with_reducible apply packetBad_keeps
    | with_reducible apply replyAdd_keeps
    | with_reducible apply packetFinish_keeps
    | with_reducible refine Keeps.ite ?_ (fun _ => ?_)
    | fail_if_no_progress with_reducible refine Keeps.upd ?_ rfl rfl rfl rfl rfl rfl
    | split
    | extract_lets
    | dsimp only

theorem resultEnd_keeps {r : OpResult} {p : Packet} (hk : Keeps Q C U B r.1) :
    Keeps Q C U B (resultEnd r p) := by
  unfold resultEnd
  repeat' first
    | with_reducible assumption
    | with_reducible apply packetFinish_keeps
    | fail_if_no_progress with_reducible refine Keeps.upd ?_ rfl rfl rfl rfl rfl rfl
    | split
    | extract_lets
    | dsimp only

theorem leadAnswer_keeps {s : State} {f : Fwd} {v : Option Verdict} (hC : CfgClosed C) (hU : UFree U) (hk : Keeps Q C
    U B s) :
    Keeps Q C U B (leadAnswer s f v).1 := by
  unfold leadAnswer
  repeat' first
    | with_reducible assumption
    | with_reducible apply ownRun_keeps
    | with_reducible apply opFail_keeps
    | with_reducible apply opDone_keeps
    | with_reducible refine Keeps.ite ?_ (fun _ => ?_)
    | fail_if_no_progress with_reducible refine Keeps.upd ?_ rfl rfl rfl rfl rfl rfl
    | intro _ _ _
    | intro _ _
    | split
    | extract_lets
    | dsimp +zetaDelta only
    | dsimp only

theorem fwdMod_keeps {s : State} {h : Byte} {g : Fwd → Fwd} (hk : Keeps Q C U B s) :
    Keeps Q C U B (fwdMod s h g) := by
  unfold fwdMod
  repeat' first
    | with_reducible assumption
    | with_reducible refine Keeps.ite ?_ (fun _ => ?_)
    | fail_if_no_progress with_reducible refine Keeps.upd ?_ rfl rfl rfl rfl rfl rfl
    | intro _ _ _
    | intro _ _
    | split
    | extract_lets
    | dsimp only

theorem farNote_keeps {s : State} {f : Fwd} (hk : Keeps Q C U B s) :
    Keeps Q C U B (farNote s f) := by
  unfold farNote
  repeat' first
    | with_reducible assumption
    | with_reducible refine foldl_keeps ?_ (fun _ _ _ => ?_)
    | with_reducible refine foldl1_keeps ?_ (fun _ _ _ => ?_)
    | with_reducible refine Keeps.ite ?_ (fun _ => ?_)
    | fail_if_no_progress with_reducible refine Keeps.upd ?_ rfl rfl rfl rfl rfl rfl
    | intro _ _ _
    | intro _ _
    | split
    | extract_lets
    | dsimp +zetaDelta only
    | dsimp only

theorem fwdApply_keeps {s : State} {f : Fwd} {v : Option Verdict} (hC : CfgClosed C) (hU : UFree U) (hk : Keeps Q C U
    B s) :
    Keeps Q C U B (fwdApply s f v) := by
  unfold fwdApply
  repeat' first
    | with_reducible assumption
    | with_reducible apply leadAnswer_keeps
    | with_reducible apply farNote_keeps
    | with_reducible apply fwdMod_keeps
    | with_reducible apply dupSet_keeps
    | with_reducible apply replyAdd_keeps
    | with_reducible apply packetFinish_keeps
    | with_reducible refine Keeps.ite ?_ (fun _ => ?_)
    | fail_if_no_progress with_reducible refine Keeps.upd ?_ rfl rfl rfl rfl rfl rfl
    | intro _ _ _
    | intro _ _
    | split
    | extract_lets
    | dsimp +zetaDelta only
    | dsimp only

theorem fwdExec_keeps {s : State} {f : Fwd} {v : Option Verdict} (hC : CfgClosed C) (hU : UFree U) (hk : Keeps Q C U B
    s) :
    Keeps Q C U B (fwdExec s f v) := by
  unfold fwdExec
  repeat' first
    | with_reducible assumption
    | with_reducible apply fwdApply_keeps
    | with_reducible apply packetFinish_keeps
    | with_reducible refine Keeps.ite ?_ (fun _ => ?_)
    | fail_if_no_progress with_reducible refine Keeps.upd ?_ rfl rfl rfl rfl rfl rfl
    | split
    | extract_lets
    | dsimp only

theorem execTaken_keeps {s : State} {t : Taken} (hC : CfgClosed C) (hU : UFree U) (hk : Keeps Q C U B s) :
    Keeps Q C U B (execTaken s t) := by
  unfold execTaken
  repeat' first
    | with_reducible assumption
    | with_reducible apply packetEnd_keeps
    | with_reducible apply fwdExec_keeps
    | with_reducible apply packetFinish_keeps
    | with_reducible apply resultEnd_keeps
    | with_reducible apply ownRun_keeps
    | with_reducible refine Keeps.ite ?_ (fun _ => ?_)
    | fail_if_no_progress with_reducible refine Keeps.upd ?_ rfl rfl rfl rfl rfl rfl
    | split
    | extract_lets
    | dsimp only

theorem execTrial_keeps {s : State} {t : Taken} (hC : CfgClosed C) (hU : UFree U) (hk : Keeps Q C U B s) :
    Keeps Q C U B (execTrial s t).1 := by
  unfold execTrial
  repeat' first
    | with_reducible assumption
    | with_reducible apply leadAnswer_keeps
    | with_reducible apply resultEnd_keeps
    | with_reducible apply ownRun_keeps
    | with_reducible apply packetEnd_keeps
    | fail_if_no_progress with_reducible refine Keeps.upd ?_ rfl rfl rfl rfl rfl rfl
    | split
    | extract_lets
    | dsimp +zetaDelta only
    | dsimp only

theorem slotAhead_keeps {s : State} (hk : Keeps Q C U B s) :
    Keeps Q C U B (slotAhead s) := by
  unfold slotAhead
  repeat' first
    | with_reducible assumption
    | with_reducible refine Keeps.ite ?_ (fun _ => ?_)
    | fail_if_no_progress with_reducible refine Keeps.upd ?_ rfl rfl rfl rfl rfl rfl
    | intro _ _ _
    | intro _ _
    | split
    | extract_lets
    | dsimp only

theorem takenTrial_keeps {s : State} (hC : CfgClosed C) (hU : UFree U) (hk : Keeps Q C U B s) :
    Keeps Q C U B (takenTrial s) := by
  unfold takenTrial
  repeat' first
    | with_reducible assumption
    | with_reducible apply execTrial_keeps
    | with_reducible apply slotAhead_keeps
    | with_reducible refine foldl_keeps ?_ (fun _ _ _ => ?_)
    | with_reducible refine foldl1_keeps ?_ (fun _ _ _ => ?_)
    | fail_if_no_progress with_reducible refine Keeps.upd ?_ rfl rfl rfl rfl rfl rfl
    | intro _ _ _
    | intro _ _
    | extract_lets
    | dsimp only

theorem packetTake_keeps {s : State} {p : Packet} (hk : Keeps Q C U B s) : Keeps Q C U B (packetTake s p) := by
  unfold packetTake
  extract_lets t add trial
  have ha : ∀ (t : Taken) (x : State), Keeps Q C U B x → Keeps Q C U B (add t x) :=
    fun _ _ h => h.same rfl rfl rfl rfl rfl rfl
  clear_value add trial
  split
  · exact ha _ _ hk
  · split
    · exact ha _ _ hk
    · split
      · exact ha _ _ (fwdSend_keeps hk)
      · exact ha _ _ (Keeps.ite (twinSend_keeps hk) (fun _ => hk))

theorem leadDecideOne_keeps {x : State × State} {t : Taken} (hk : Keeps Q C U B x.1) : Keeps Q C U B (leadDecideOne x t).1 := by
  unfold leadDecideOne
  extract_lets r
  clear_value r
  split
  · exact hk
  · split
    · exact hk
    · exact twinSend_keeps (fwdMod_keeps hk)

theorem leadDecide_keeps {s : State} (hk : Keeps Q C U B s) :
    Keeps Q C U B (leadDecide s) := by
  unfold leadDecide
  repeat' first
    | with_reducible assumption
    | with_reducible apply leadDecideOne_keeps
    | with_reducible apply slotAhead_keeps
    | with_reducible refine foldl_keeps ?_ (fun _ _ _ => ?_)
    | with_reducible refine foldl1_keeps ?_ (fun _ _ _ => ?_)
    | fail_if_no_progress with_reducible refine Keeps.upd ?_ rfl rfl rfl rfl rfl rfl
    | intro _ _ _
    | intro _ _
    | extract_lets
    | dsimp only

theorem execLeadPacketDecide_keeps {s : State} (hk : Keeps Q C U B s) :
    Keeps Q C U B (outState s (execLeadPacketDecide s)) := by
  unfold execLeadPacketDecide outState
  try dsimp -zeta only
  repeat' first
    | with_reducible assumption
    | with_reducible apply leadDecide_keeps
    | with_reducible refine Keeps.ite ?_ (fun _ => ?_)
    | fail_if_no_progress with_reducible refine Keeps.upd ?_ rfl rfl rfl rfl rfl rfl
    | intro _ _ _
    | intro _ _
    | split
    | extract_lets
    | dsimp only

theorem farTrial_keeps {s : State} (hC : CfgClosed C) (hU : UFree U) (hk : Keeps Q C U B s) :
    Keeps Q C U B (farTrial s) := by
  unfold farTrial
  repeat' first
    | with_reducible assumption
    | with_reducible apply farRun_keeps
    | with_reducible refine foldl_keeps ?_ (fun _ _ _ => ?_)
    | with_reducible refine foldl1_keeps ?_ (fun _ _ _ => ?_)
    | with_reducible refine Keeps.ite ?_ (fun _ => ?_)
    | fail_if_no_progress with_reducible refine Keeps.upd ?_ rfl rfl rfl rfl rfl rfl
    | intro _ _ _
    | intro _ _
    | split
    | extract_lets
    | dsimp only

theorem fwdTake_keeps {s : State} {h : Byte} {src : Byte} {seq : Byte} {opc : Byte} {pl : List Byte} (hC : CfgClosed
    C) (hU : UFree U) (hk : Keeps Q C U B s) :
    Keeps Q C U B (fwdTake s h src seq opc pl) := by
  unfold fwdTake
  repeat' first
    | with_reducible assumption
    | with_reducible apply farRun_keeps
    | with_reducible apply farTrial_keeps
    | with_reducible apply twinSend_keeps
    | with_reducible refine Keeps.ite ?_ (fun _ => ?_)
    | fail_if_no_progress with_reducible refine Keeps.upd ?_ rfl rfl rfl rfl rfl rfl
    | split
    | extract_lets
    | dsimp +zetaDelta only
    | dsimp only

theorem execTwinFwd_keeps {handle : Byte} {client : Byte} {seq : Byte} {opc : Byte} {payload : List Byte} {s : State}
    (hC : CfgClosed C) (hU : UFree U) (hk : Keeps Q C U B s) :
    Keeps Q C U B (outState s (execTwinFwd handle client seq opc payload s)) := by
  unfold execTwinFwd outState
  try dsimp -zeta only
  repeat' first
    | with_reducible assumption
    | with_reducible apply fwdTake_keeps
    | with_reducible refine Keeps.ite ?_ (fun _ => ?_)
    | fail_if_no_progress with_reducible refine Keeps.upd ?_ rfl rfl rfl rfl rfl rfl
    | split
    | extract_lets
    | dsimp only

theorem verdictTake_keeps {s : State} {h : Byte} {status : Byte} {pos : Byte} (hk : Keeps Q C U B s) :
    Keeps Q C U B (verdictTake s h status pos) := by
  unfold verdictTake
  repeat' first
    | with_reducible assumption
    | with_reducible apply fwdMod_keeps
    | with_reducible refine Keeps.ite ?_ (fun _ => ?_)
    | fail_if_no_progress with_reducible refine Keeps.upd ?_ rfl rfl rfl rfl rfl rfl
    | intro _ _ _
    | intro _ _
    | split
    | extract_lets
    | dsimp only

theorem execTwinVerdict_keeps {handle : Byte} {status : Byte} {pos : Byte} {s : State} (hk : Keeps Q C U B s) :
    Keeps Q C U B (outState s (execTwinVerdict handle status pos s)) := by
  unfold execTwinVerdict outState
  try dsimp -zeta only
  repeat' first
    | with_reducible assumption
    | with_reducible apply verdictTake_keeps
    | with_reducible refine Keeps.ite ?_ (fun _ => ?_)
    | fail_if_no_progress with_reducible refine Keeps.upd ?_ rfl rfl rfl rfl rfl rfl
    | split
    | extract_lets
    | dsimp only

theorem commitTake_keeps {s : State} {h : Byte} {apply : Byte} (hk : Keeps Q C U B s) :
    Keeps Q C U B (commitTake s h apply) := by
  unfold commitTake
  repeat' first
    | with_reducible assumption
    | with_reducible apply twinSend_keeps
    | with_reducible refine Keeps.ite ?_ (fun _ => ?_)
    | fail_if_no_progress with_reducible refine Keeps.upd ?_ rfl rfl rfl rfl rfl rfl
    | intro _ _ _
    | intro _ _
    | split
    | extract_lets
    | dsimp only

theorem execTwinCommit_keeps {handle : Byte} {apply : Byte} {s : State} (hk : Keeps Q C U B s) :
    Keeps Q C U B (outState s (execTwinCommit handle apply s)) := by
  unfold execTwinCommit outState
  try dsimp -zeta only
  repeat' first
    | with_reducible assumption
    | with_reducible apply commitTake_keeps
    | with_reducible refine Keeps.ite ?_ (fun _ => ?_)
    | fail_if_no_progress with_reducible refine Keeps.upd ?_ rfl rfl rfl rfl rfl rfl
    | split
    | extract_lets
    | dsimp only

theorem farApply_keeps {x : State × List (Byte × List (List Byte))} {f : FwdIn} (hC : CfgClosed C) (hU : UFree U) (hk
    : Keeps Q C U B x.1) :
    Keeps Q C U B (farApply x f).1 := by
  unfold farApply
  repeat' first
    | with_reducible assumption
    | with_reducible apply farRun_keeps
    | with_reducible refine Keeps.ite ?_ (fun _ => ?_)
    | fail_if_no_progress with_reducible refine Keeps.upd ?_ rfl rfl rfl rfl rfl rfl
    | intro _ _ _
    | intro _ _
    | split
    | extract_lets
    | dsimp +zetaDelta only
    | dsimp only

theorem farExec_keeps {s : State} {parts : List FwdIn} (hC : CfgClosed C) (hU : UFree U) (hk : Keeps Q C U B s) :
    Keeps Q C U B (farExec s parts) := by
  unfold farExec
  repeat' first
    | with_reducible assumption
    | with_reducible apply farApply_keeps
    | with_reducible refine foldl_keeps ?_ (fun _ _ _ => ?_)
    | with_reducible refine foldl1_keeps ?_ (fun _ _ _ => ?_)
    | fail_if_no_progress with_reducible refine Keeps.upd ?_ rfl rfl rfl rfl rfl rfl
    | intro _ _ _
    | intro _ _
    | extract_lets
    | dsimp +zetaDelta only
    | dsimp only

theorem ackTake_keeps {s : State} {h : Byte} (hk : Keeps Q C U B s) :
    Keeps Q C U B (ackTake s h) := by
  unfold ackTake
  repeat' first
    | with_reducible assumption
    | with_reducible apply fwdMod_keeps
    | with_reducible refine Keeps.ite ?_ (fun _ => ?_)
    | fail_if_no_progress with_reducible refine Keeps.upd ?_ rfl rfl rfl rfl rfl rfl
    | intro _ _ _
    | intro _ _
    | split
    | extract_lets
    | dsimp only

theorem execTwinAck_keeps {handle : Byte} {s : State} (hk : Keeps Q C U B s) :
    Keeps Q C U B (outState s (execTwinAck handle s)) := by
  unfold execTwinAck outState
  try dsimp -zeta only
  repeat' first
    | with_reducible assumption
    | with_reducible apply ackTake_keeps
    | with_reducible refine Keeps.ite ?_ (fun _ => ?_)
    | fail_if_no_progress with_reducible refine Keeps.upd ?_ rfl rfl rfl rfl rfl rfl
    | split
    | extract_lets
    | dsimp only

theorem laneOpen_keeps {s : State} {f : Fwd} {a : Answer} (hk : Keeps Q C U B s) :
    Keeps Q C U B (laneOpen s f a) := by
  unfold laneOpen
  repeat' first
    | with_reducible assumption
    | with_reducible refine Keeps.ite ?_ (fun _ => ?_)
    | fail_if_no_progress with_reducible refine Keeps.upd ?_ rfl rfl rfl rfl rfl rfl
    | split
    | extract_lets
    | dsimp +zetaDelta only
    | dsimp only

theorem laneTake_keeps {s : State} {h : Byte} {offset : Byte} {data : List Byte} (hk : Keeps Q C U B s) :
    Keeps Q C U B (laneTake s h offset data) := by
  unfold laneTake
  repeat' first
    | with_reducible assumption
    | with_reducible refine Keeps.ite ?_ (fun _ => ?_)
    | fail_if_no_progress with_reducible refine Keeps.upd ?_ rfl rfl rfl rfl rfl rfl
    | split
    | extract_lets
    | dsimp only

theorem fwdRelease_keeps {s : State} {f : Fwd} (hk : Keeps Q C U B s) :
    Keeps Q C U B (fwdRelease s f) := by
  unfold fwdRelease
  repeat' first
    | with_reducible assumption
    | with_reducible apply rejectNote_keeps
    | with_reducible apply laneOpen_keeps
    | with_reducible refine Keeps.ite ?_ (fun _ => ?_)
    | fail_if_no_progress with_reducible refine Keeps.upd ?_ rfl rfl rfl rfl rfl rfl
    | intro _ _ _
    | intro _ _
    | split
    | extract_lets
    | dsimp +zetaDelta only
    | dsimp only

theorem replyMore_keeps {s : State} {f : Fwd} {a : Answer} (hk : Keeps Q C U B s) :
    Keeps Q C U B (replyMore s f a) := by
  unfold replyMore
  repeat' first
    | with_reducible assumption
    | with_reducible refine Keeps.ite ?_ (fun _ => ?_)
    | fail_if_no_progress with_reducible refine Keeps.upd ?_ rfl rfl rfl rfl rfl rfl
    | split
    | extract_lets
    | dsimp +zetaDelta only
    | dsimp only

theorem answerTake_keeps {s : State} {h : Byte} {status : Byte} {rlen : Byte} {offset : Byte} {data : List Byte} (hk :
    Keeps Q C U B s) :
    Keeps Q C U B (answerTake s h status rlen offset data) := by
  unfold answerTake
  repeat' first
    | with_reducible assumption
    | with_reducible apply laneTake_keeps
    | with_reducible apply fwdMod_keeps
    | with_reducible apply replyMore_keeps
    | with_reducible apply fwdRelease_keeps
    | with_reducible refine Keeps.ite ?_ (fun _ => ?_)
    | fail_if_no_progress with_reducible refine Keeps.upd ?_ rfl rfl rfl rfl rfl rfl
    | intro _ _ _
    | intro _ _
    | split
    | extract_lets
    | dsimp +zetaDelta only
    | dsimp only

theorem execTwinAnswer_keeps {handle : Byte} {status : Byte} {rlen : Byte} {offset : Byte} {data : List Byte} {s :
    State} (hk : Keeps Q C U B s) :
    Keeps Q C U B (outState s (execTwinAnswer handle status rlen offset data s)) := by
  unfold execTwinAnswer outState
  try dsimp -zeta only
  repeat' first
    | with_reducible assumption
    | with_reducible apply answerTake_keeps
    | with_reducible refine Keeps.ite ?_ (fun _ => ?_)
    | fail_if_no_progress with_reducible refine Keeps.upd ?_ rfl rfl rfl rfl rfl rfl
    | split
    | extract_lets
    | dsimp only

theorem repliesLate_keeps {s : State} (hk : Keeps Q C U B s) :
    Keeps Q C U B (repliesLate s) := by
  unfold repliesLate
  repeat' first
    | with_reducible assumption
    | with_reducible refine Keeps.ite ?_ (fun _ => ?_)
    | fail_if_no_progress with_reducible refine Keeps.upd ?_ rfl rfl rfl rfl rfl rfl
    | intro _ _ _
    | intro _ _
    | split
    | extract_lets
    | dsimp +zetaDelta only
    | dsimp only

theorem packetsRun_keeps {s : State} (hC : CfgClosed C) (hU : UFree U) (hk : Keeps Q C U B s) :
    Keeps Q C U B (packetsRun s) := by
  unfold packetsRun
  repeat' first
    | with_reducible assumption
    | with_reducible apply execTaken_keeps
    | with_reducible apply repliesLate_keeps
    | with_reducible apply farExec_keeps
    | with_reducible refine foldl_keeps ?_ (fun _ _ _ => ?_)
    | with_reducible refine foldl1_keeps ?_ (fun _ _ _ => ?_)
    | with_reducible refine Keeps.ite ?_ (fun _ => ?_)
    | fail_if_no_progress with_reducible refine Keeps.upd ?_ rfl rfl rfl rfl rfl rfl
    | intro _ _ _
    | intro _ _
    | split
    | extract_lets
    | dsimp +zetaDelta only
    | dsimp only

theorem splitRun_keeps {s : State} (hC : CfgClosed C) (hU : UFree U) (hk : Keeps Q C U B s) :
    Keeps Q C U B (splitRun s) := by
  unfold splitRun
  repeat' first
    | with_reducible assumption
    | with_reducible apply twinSplit_keeps
    | with_reducible apply farExec_keeps
    | fail_if_no_progress with_reducible refine Keeps.upd ?_ rfl rfl rfl rfl rfl rfl
    | split
    | extract_lets
    | dsimp only

theorem rowRun_keeps {s : State} {h : Hdr} {opc : Nat} {pl : List Byte} (hC : CfgClosed C) (hU : UFree U) (hk : Keeps
    Q C U B s) :
    Keeps Q C U B (rowRun s h opc pl) := by
  unfold rowRun
  repeat' first
    | with_reducible assumption
    | with_reducible apply execTrial_keeps
    | with_reducible apply packetTake_keeps
    | with_reducible apply execTaken_keeps
    | with_reducible refine Keeps.ite ?_ (fun _ => ?_)
    | fail_if_no_progress with_reducible refine Keeps.upd ?_ rfl rfl rfl rfl rfl rfl
    | split
    | extract_lets
    | dsimp +zetaDelta only
    | dsimp only

theorem execNop_keeps {h : Hdr} {s : State} (hC : CfgClosed C) (hU : UFree U) (hk : Keeps Q C U B s) :
    Keeps Q C U B (outState s (execNop h s)) := by
  unfold execNop outState
  try dsimp -zeta only
  repeat' first
    | with_reducible assumption
    | with_reducible apply rowRun_keeps
    | fail_if_no_progress with_reducible refine Keeps.upd ?_ rfl rfl rfl rfl rfl rfl
    | extract_lets
    | dsimp only

theorem execHello_keeps {h : Hdr} {s : State} (hC : CfgClosed C) (hU : UFree U) (hk : Keeps Q C U B s) :
    Keeps Q C U B (outState s (execHello h s)) := by
  unfold execHello outState
  try dsimp -zeta only
  repeat' first
    | with_reducible assumption
    | with_reducible apply rowRun_keeps
    | fail_if_no_progress with_reducible refine Keeps.upd ?_ rfl rfl rfl rfl rfl rfl
    | extract_lets
    | dsimp only

theorem execGetp_keeps {h : Hdr} {ids : List Pid} {s : State} (hC : CfgClosed C) (hU : UFree U) (hk : Keeps Q C U B s)
    :
    Keeps Q C U B (outState s (execGetp h ids s)) := by
  unfold execGetp outState
  try dsimp -zeta only
  repeat' first
    | with_reducible assumption
    | with_reducible apply rowRun_keeps
    | fail_if_no_progress with_reducible refine Keeps.upd ?_ rfl rfl rfl rfl rfl rfl
    | intro _ _ _
    | intro _ _
    | extract_lets
    | dsimp only

theorem execSetp_keeps {h : Hdr} {pairs : List (Pid × Word)} {s : State} (hC : CfgClosed C) (hU : UFree U) (hk : Keeps
    Q C U B s) :
    Keeps Q C U B (outState s (execSetp h pairs s)) := by
  unfold execSetp outState
  try dsimp -zeta only
  repeat' first
    | with_reducible assumption
    | with_reducible apply rowRun_keeps
    | fail_if_no_progress with_reducible refine Keeps.upd ?_ rfl rfl rfl rfl rfl rfl
    | extract_lets
    | dsimp only

theorem execGetblk_keeps {h : Hdr} {first : Pid} {count : Byte} {via : Byte} {s : State} (hC : CfgClosed C) (hU :
    UFree U) (hk : Keeps Q C U B s) :
    Keeps Q C U B (outState s (execGetblk h first count via s)) := by
  unfold execGetblk outState
  try dsimp -zeta only
  repeat' first
    | with_reducible assumption
    | with_reducible apply rowRun_keeps
    | fail_if_no_progress with_reducible refine Keeps.upd ?_ rfl rfl rfl rfl rfl rfl
    | extract_lets
    | dsimp only

theorem execStateQuery_keeps {h : Hdr} {s : State} (hC : CfgClosed C) (hU : UFree U) (hk : Keeps Q C U B s) :
    Keeps Q C U B (outState s (execStateQuery h s)) := by
  unfold execStateQuery outState
  try dsimp -zeta only
  repeat' first
    | with_reducible assumption
    | with_reducible apply rowRun_keeps
    | fail_if_no_progress with_reducible refine Keeps.upd ?_ rfl rfl rfl rfl rfl rfl
    | extract_lets
    | dsimp only

theorem execStateIdle_keeps {h : Hdr} {s : State} (hC : CfgClosed C) (hU : UFree U) (hk : Keeps Q C U B s) :
    Keeps Q C U B (outState s (execStateIdle h s)) := by
  unfold execStateIdle outState
  try dsimp -zeta only
  repeat' first
    | with_reducible assumption
    | with_reducible apply rowRun_keeps
    | fail_if_no_progress with_reducible refine Keeps.upd ?_ rfl rfl rfl rfl rfl rfl
    | extract_lets
    | dsimp only

theorem execStateRun_keeps {h : Hdr} {s : State} (hC : CfgClosed C) (hU : UFree U) (hk : Keeps Q C U B s) :
    Keeps Q C U B (outState s (execStateRun h s)) := by
  unfold execStateRun outState
  try dsimp -zeta only
  repeat' first
    | with_reducible assumption
    | with_reducible apply rowRun_keeps
    | fail_if_no_progress with_reducible refine Keeps.upd ?_ rfl rfl rfl rfl rfl rfl
    | extract_lets
    | dsimp only

theorem execStateVigil_keeps {h : Hdr} {s : State} (hC : CfgClosed C) (hU : UFree U) (hk : Keeps Q C U B s) :
    Keeps Q C U B (outState s (execStateVigil h s)) := by
  unfold execStateVigil outState
  try dsimp -zeta only
  repeat' first
    | with_reducible assumption
    | with_reducible apply rowRun_keeps
    | fail_if_no_progress with_reducible refine Keeps.upd ?_ rfl rfl rfl rfl rfl rfl
    | extract_lets
    | dsimp only

theorem execStateSafe_keeps {h : Hdr} {s : State} (hC : CfgClosed C) (hU : UFree U) (hk : Keeps Q C U B s) :
    Keeps Q C U B (outState s (execStateSafe h s)) := by
  unfold execStateSafe outState
  try dsimp -zeta only
  repeat' first
    | with_reducible assumption
    | with_reducible apply rowRun_keeps
    | fail_if_no_progress with_reducible refine Keeps.upd ?_ rfl rfl rfl rfl rfl rfl
    | extract_lets
    | dsimp only

theorem execStateDormant_keeps {h : Hdr} {s : State} (hC : CfgClosed C) (hU : UFree U) (hk : Keeps Q C U B s) :
    Keeps Q C U B (outState s (execStateDormant h s)) := by
  unfold execStateDormant outState
  try dsimp -zeta only
  repeat' first
    | with_reducible assumption
    | with_reducible apply rowRun_keeps
    | fail_if_no_progress with_reducible refine Keeps.upd ?_ rfl rfl rfl rfl rfl rfl
    | extract_lets
    | dsimp only

theorem execResetCmd_keeps {h : Hdr} {s : State} (hC : CfgClosed C) (hU : UFree U) (hk : Keeps Q C U B s) :
    Keeps Q C U B (outState s (execResetCmd h s)) := by
  unfold execResetCmd outState
  try dsimp -zeta only
  repeat' first
    | with_reducible assumption
    | with_reducible apply rowRun_keeps
    | fail_if_no_progress with_reducible refine Keeps.upd ?_ rfl rfl rfl rfl rfl rfl
    | extract_lets
    | dsimp only

theorem execResetDefaults_keeps {h : Hdr} {s : State} (hC : CfgClosed C) (hU : UFree U) (hk : Keeps Q C U B s) :
    Keeps Q C U B (outState s (execResetDefaults h s)) := by
  unfold execResetDefaults outState
  try dsimp -zeta only
  repeat' first
    | with_reducible assumption
    | with_reducible apply rowRun_keeps
    | fail_if_no_progress with_reducible refine Keeps.upd ?_ rfl rfl rfl rfl rfl rfl
    | extract_lets
    | dsimp only

theorem execClaimCoded_keeps {h : Hdr} {role : Byte} {code : BitVec 64} {s : State} (hC : CfgClosed C) (hU : UFree U)
    (hk : Keeps Q C U B s) :
    Keeps Q C U B (outState s (execClaimCoded h role code s)) := by
  unfold execClaimCoded outState
  try dsimp -zeta only
  repeat' first
    | with_reducible assumption
    | with_reducible apply rowRun_keeps
    | fail_if_no_progress with_reducible refine Keeps.upd ?_ rfl rfl rfl rfl rfl rfl
    | extract_lets
    | dsimp only

theorem execClaimQuery_keeps {h : Hdr} {role : Byte} {s : State} (hC : CfgClosed C) (hU : UFree U) (hk : Keeps Q C U B
    s) :
    Keeps Q C U B (outState s (execClaimQuery h role s)) := by
  unfold execClaimQuery outState
  try dsimp -zeta only
  repeat' first
    | with_reducible assumption
    | with_reducible apply rowRun_keeps
    | fail_if_no_progress with_reducible refine Keeps.upd ?_ rfl rfl rfl rfl rfl rfl
    | extract_lets
    | dsimp only

theorem execGrant_keeps {h : Hdr} {client : Byte} {role : Byte} {s : State} (hC : CfgClosed C) (hU : UFree U) (hk :
    Keeps Q C U B s) :
    Keeps Q C U B (outState s (execGrant h client role s)) := by
  unfold execGrant outState
  try dsimp -zeta only
  repeat' first
    | with_reducible assumption
    | with_reducible apply rowRun_keeps
    | fail_if_no_progress with_reducible refine Keeps.upd ?_ rfl rfl rfl rfl rfl rfl
    | extract_lets
    | dsimp only

theorem execRelease_keeps {h : Hdr} {s : State} (hC : CfgClosed C) (hU : UFree U) (hk : Keeps Q C U B s) :
    Keeps Q C U B (outState s (execRelease h s)) := by
  unfold execRelease outState
  try dsimp -zeta only
  repeat' first
    | with_reducible assumption
    | with_reducible apply rowRun_keeps
    | fail_if_no_progress with_reducible refine Keeps.upd ?_ rfl rfl rfl rfl rfl rfl
    | extract_lets
    | dsimp only

theorem execLogread_keeps {h : Hdr} {source : Byte} {first : Word} {count : BitVec 16} {via : Byte} {s : State} (hC :
    CfgClosed C) (hU : UFree U) (hk : Keeps Q C U B s) :
    Keeps Q C U B (outState s (execLogread h source first count via s)) := by
  unfold execLogread outState
  try dsimp -zeta only
  repeat' first
    | with_reducible assumption
    | with_reducible apply rowRun_keeps
    | fail_if_no_progress with_reducible refine Keeps.upd ?_ rfl rfl rfl rfl rfl rfl
    | extract_lets
    | dsimp only

theorem execLogseal_keeps {h : Hdr} {s : State} (hC : CfgClosed C) (hU : UFree U) (hk : Keeps Q C U B s) :
    Keeps Q C U B (outState s (execLogseal h s)) := by
  unfold execLogseal outState
  try dsimp -zeta only
  repeat' first
    | with_reducible assumption
    | with_reducible apply rowRun_keeps
    | fail_if_no_progress with_reducible refine Keeps.upd ?_ rfl rfl rfl rfl rfl rfl
    | extract_lets
    | dsimp only

theorem execLogmark_keeps {h : Hdr} {mark : BitVec 16} {value : Word} {s : State} (hC : CfgClosed C) (hU : UFree U)
    (hk : Keeps Q C U B s) :
    Keeps Q C U B (outState s (execLogmark h mark value s)) := by
  unfold execLogmark outState
  try dsimp -zeta only
  repeat' first
    | with_reducible assumption
    | with_reducible apply rowRun_keeps
    | fail_if_no_progress with_reducible refine Keeps.upd ?_ rfl rfl rfl rfl rfl rfl
    | extract_lets
    | dsimp only

theorem execLogFreeTo_keeps {h : Hdr} {seq : Word} {s : State} (hC : CfgClosed C) (hU : UFree U) (hk : Keeps Q C U B
    s) :
    Keeps Q C U B (outState s (execLogFreeTo h seq s)) := by
  unfold execLogFreeTo outState
  try dsimp -zeta only
  repeat' first
    | with_reducible assumption
    | with_reducible apply rowRun_keeps
    | fail_if_no_progress with_reducible refine Keeps.upd ?_ rfl rfl rfl rfl rfl rfl
    | extract_lets
    | dsimp only

theorem execLogPolicy_keeps {h : Hdr} {policy : Word} {s : State} (hC : CfgClosed C) (hU : UFree U) (hk : Keeps Q C U
    B s) :
    Keeps Q C U B (outState s (execLogPolicy h policy s)) := by
  unfold execLogPolicy outState
  try dsimp -zeta only
  repeat' first
    | with_reducible assumption
    | with_reducible apply rowRun_keeps
    | fail_if_no_progress with_reducible refine Keeps.upd ?_ rfl rfl rfl rfl rfl rfl
    | extract_lets
    | dsimp only

theorem execTimeset_keeps {h : Hdr} {wall : BitVec 64} {tick : BitVec 48} {s : State} (hC : CfgClosed C) (hU : UFree
    U) (hk : Keeps Q C U B s) :
    Keeps Q C U B (outState s (execTimeset h wall tick s)) := by
  unfold execTimeset outState
  try dsimp -zeta only
  repeat' first
    | with_reducible assumption
    | with_reducible apply rowRun_keeps
    | fail_if_no_progress with_reducible refine Keeps.upd ?_ rfl rfl rfl rfl rfl rfl
    | extract_lets
    | dsimp only

theorem execTimeq_keeps {h : Hdr} {s : State} (hC : CfgClosed C) (hU : UFree U) (hk : Keeps Q C U B s) :
    Keeps Q C U B (outState s (execTimeq h s)) := by
  unfold execTimeq outState
  try dsimp -zeta only
  repeat' first
    | with_reducible assumption
    | with_reducible apply rowRun_keeps
    | fail_if_no_progress with_reducible refine Keeps.upd ?_ rfl rfl rfl rfl rfl rfl
    | extract_lets
    | dsimp only

theorem execChstart_keeps {h : Hdr} {mask : Mask} {s : State} (hC : CfgClosed C) (hU : UFree U) (hk : Keeps Q C U B s)
    :
    Keeps Q C U B (outState s (execChstart h mask s)) := by
  unfold execChstart outState
  try dsimp -zeta only
  repeat' first
    | with_reducible assumption
    | with_reducible apply rowRun_keeps
    | fail_if_no_progress with_reducible refine Keeps.upd ?_ rfl rfl rfl rfl rfl rfl
    | extract_lets
    | dsimp only

theorem execChstop_keeps {h : Hdr} {mask : Mask} {s : State} (hC : CfgClosed C) (hU : UFree U) (hk : Keeps Q C U B s)
    :
    Keeps Q C U B (outState s (execChstop h mask s)) := by
  unfold execChstop outState
  try dsimp -zeta only
  repeat' first
    | with_reducible assumption
    | with_reducible apply rowRun_keeps
    | fail_if_no_progress with_reducible refine Keeps.upd ?_ rfl rfl rfl rfl rfl rfl
    | extract_lets
    | dsimp only

theorem execRange_keeps {h : Hdr} {channel : Byte} {range : Byte} {s : State} (hC : CfgClosed C) (hU : UFree U) (hk :
    Keeps Q C U B s) :
    Keeps Q C U B (outState s (execRange h channel range s)) := by
  unfold execRange outState
  try dsimp -zeta only
  repeat' first
    | with_reducible assumption
    | with_reducible apply rowRun_keeps
    | fail_if_no_progress with_reducible refine Keeps.upd ?_ rfl rfl rfl rfl rfl rfl
    | extract_lets
    | dsimp only

theorem execSnap_keeps {h : Hdr} {mask : Mask} {s : State} (hC : CfgClosed C) (hU : UFree U) (hk : Keeps Q C U B s) :
    Keeps Q C U B (outState s (execSnap h mask s)) := by
  unfold execSnap outState
  try dsimp -zeta only
  repeat' first
    | with_reducible assumption
    | with_reducible apply rowRun_keeps
    | fail_if_no_progress with_reducible refine Keeps.upd ?_ rfl rfl rfl rfl rfl rfl
    | extract_lets
    | dsimp only

theorem execStream_keeps {h : Hdr} {mask : Mask} {divider : BitVec 16} {s : State} (hC : CfgClosed C) (hU : UFree U)
    (hk : Keeps Q C U B s) :
    Keeps Q C U B (outState s (execStream h mask divider s)) := by
  unfold execStream outState
  try dsimp -zeta only
  repeat' first
    | with_reducible assumption
    | with_reducible apply rowRun_keeps
    | fail_if_no_progress with_reducible refine Keeps.upd ?_ rfl rfl rfl rfl rfl rfl
    | extract_lets
    | dsimp only

theorem execFirload_keeps {h : Hdr} {set : Byte} {first : Byte} {coeffs : List (BitVec 24)} {s : State} (hC :
    CfgClosed C) (hU : UFree U) (hk : Keeps Q C U B s) :
    Keeps Q C U B (outState s (execFirload h set first coeffs s)) := by
  unfold execFirload outState
  try dsimp -zeta only
  repeat' first
    | with_reducible assumption
    | with_reducible apply rowRun_keeps
    | fail_if_no_progress with_reducible refine Keeps.upd ?_ rfl rfl rfl rfl rfl rfl
    | intro _ _ _
    | intro _ _
    | extract_lets
    | dsimp only

theorem execFirsel_keeps {h : Hdr} {channel : Byte} {index : Byte} {set : Byte} {s : State} (hC : CfgClosed C) (hU :
    UFree U) (hk : Keeps Q C U B s) :
    Keeps Q C U B (outState s (execFirsel h channel index set s)) := by
  unfold execFirsel outState
  try dsimp -zeta only
  repeat' first
    | with_reducible assumption
    | with_reducible apply rowRun_keeps
    | fail_if_no_progress with_reducible refine Keeps.upd ?_ rfl rfl rfl rfl rfl rfl
    | extract_lets
    | dsimp only

theorem execDcfreeze_keeps {h : Hdr} {mask : Mask} {freeze : Byte} {s : State} (hC : CfgClosed C) (hU : UFree U) (hk :
    Keeps Q C U B s) :
    Keeps Q C U B (outState s (execDcfreeze h mask freeze s)) := by
  unfold execDcfreeze outState
  try dsimp -zeta only
  repeat' first
    | with_reducible assumption
    | with_reducible apply rowRun_keeps
    | fail_if_no_progress with_reducible refine Keeps.upd ?_ rfl rfl rfl rfl rfl rfl
    | extract_lets
    | dsimp only

theorem execSyncnow_keeps {h : Hdr} {s : State} (hC : CfgClosed C) (hU : UFree U) (hk : Keeps Q C U B s) :
    Keeps Q C U B (outState s (execSyncnow h s)) := by
  unfold execSyncnow outState
  try dsimp -zeta only
  repeat' first
    | with_reducible assumption
    | with_reducible apply rowRun_keeps
    | fail_if_no_progress with_reducible refine Keeps.upd ?_ rfl rfl rfl rfl rfl rfl
    | extract_lets
    | dsimp only

theorem execCalwrite_keeps {h : Hdr} {channel : Byte} {gain : Word} {offset : Word} {s : State} (hC : CfgClosed C) (hU
    : UFree U) (hk : Keeps Q C U B s) :
    Keeps Q C U B (outState s (execCalwrite h channel gain offset s)) := by
  unfold execCalwrite outState
  try dsimp -zeta only
  repeat' first
    | with_reducible assumption
    | with_reducible apply rowRun_keeps
    | fail_if_no_progress with_reducible refine Keeps.upd ?_ rfl rfl rfl rfl rfl rfl
    | extract_lets
    | dsimp only

theorem execBiasEnable_keeps {h : Hdr} {cell : Byte} {s : State} (hC : CfgClosed C) (hU : UFree U) (hk : Keeps Q C U B
    s) :
    Keeps Q C U B (outState s (execBiasEnable h cell s)) := by
  unfold execBiasEnable outState
  try dsimp -zeta only
  repeat' first
    | with_reducible assumption
    | with_reducible apply rowRun_keeps
    | fail_if_no_progress with_reducible refine Keeps.upd ?_ rfl rfl rfl rfl rfl rfl
    | extract_lets
    | dsimp only

theorem execBiasDisable_keeps {h : Hdr} {cell : Byte} {s : State} (hC : CfgClosed C) (hU : UFree U) (hk : Keeps Q C U
    B s) :
    Keeps Q C U B (outState s (execBiasDisable h cell s)) := by
  unfold execBiasDisable outState
  try dsimp -zeta only
  repeat' first
    | with_reducible assumption
    | with_reducible apply rowRun_keeps
    | fail_if_no_progress with_reducible refine Keeps.upd ?_ rfl rfl rfl rfl rfl rfl
    | extract_lets
    | dsimp only

theorem execCellBiasWrite_keeps {h : Hdr} {k : Fin 4} {value : Word} {s : State} (hC : CfgClosed C) (hU : UFree U) (hk
    : Keeps Q C U B s) :
    Keeps Q C U B (outState s (execCellBiasWrite h k value s)) := by
  unfold execCellBiasWrite outState
  try dsimp -zeta only
  repeat' first
    | with_reducible assumption
    | with_reducible apply rowRun_keeps
    | fail_if_no_progress with_reducible refine Keeps.upd ?_ rfl rfl rfl rfl rfl rfl
    | extract_lets
    | dsimp only

theorem execCellRampWrite_keeps {h : Hdr} {k : Fin 4} {value : Word} {s : State} (hC : CfgClosed C) (hU : UFree U) (hk
    : Keeps Q C U B s) :
    Keeps Q C U B (outState s (execCellRampWrite h k value s)) := by
  unfold execCellRampWrite outState
  try dsimp -zeta only
  repeat' first
    | with_reducible assumption
    | with_reducible apply rowRun_keeps
    | fail_if_no_progress with_reducible refine Keeps.upd ?_ rfl rfl rfl rfl rfl rfl
    | extract_lets
    | dsimp only

theorem execAutorangeWrite_keeps {h : Hdr} {c : Fin 12} {field : Fin 3} {value : Word} {s : State} (hC : CfgClosed C)
    (hU : UFree U) (hk : Keeps Q C U B s) :
    Keeps Q C U B (outState s (execAutorangeWrite h c field value s)) := by
  unfold execAutorangeWrite outState
  try dsimp -zeta only
  repeat' first
    | with_reducible assumption
    | with_reducible apply rowRun_keeps
    | with_reducible refine Keeps.ite ?_ (fun _ => ?_)
    | fail_if_no_progress with_reducible refine Keeps.upd ?_ rfl rfl rfl rfl rfl rfl
    | split
    | extract_lets
    | dsimp only

theorem execLeadCapture_keeps {h : Hdr} {n : Fin 4} {value : Word} {s : State} (hC : CfgClosed C) (hU : UFree U) (hk :
    Keeps Q C U B s) :
    Keeps Q C U B (outState s (execLeadCapture h n value s)) := by
  unfold execLeadCapture outState
  try dsimp -zeta only
  repeat' first
    | with_reducible assumption
    | with_reducible apply rowRun_keeps
    | fail_if_no_progress with_reducible refine Keeps.upd ?_ rfl rfl rfl rfl rfl rfl
    | extract_lets
    | dsimp only

theorem execPhaseTicks_keeps {h : Hdr} {c : Fin 14} {value : Word} {s : State} (hC : CfgClosed C) (hU : UFree U) (hk :
    Keeps Q C U B s) :
    Keeps Q C U B (outState s (execPhaseTicks h c value s)) := by
  unfold execPhaseTicks outState
  try dsimp -zeta only
  repeat' first
    | with_reducible assumption
    | with_reducible apply rowRun_keeps
    | fail_if_no_progress with_reducible refine Keeps.upd ?_ rfl rfl rfl rfl rfl rfl
    | extract_lets
    | dsimp only

theorem execPhaseFrac_keeps {h : Hdr} {c : Fin 14} {value : Word} {s : State} (hC : CfgClosed C) (hU : UFree U) (hk :
    Keeps Q C U B s) :
    Keeps Q C U B (outState s (execPhaseFrac h c value s)) := by
  unfold execPhaseFrac outState
  try dsimp -zeta only
  repeat' first
    | with_reducible assumption
    | with_reducible apply rowRun_keeps
    | fail_if_no_progress with_reducible refine Keeps.upd ?_ rfl rfl rfl rfl rfl rfl
    | extract_lets
    | dsimp only

theorem execCableClk_keeps {h : Hdr} {value : Word} {s : State} (hC : CfgClosed C) (hU : UFree U) (hk : Keeps Q C U B
    s) :
    Keeps Q C U B (outState s (execCableClk h value s)) := by
  unfold execCableClk outState
  try dsimp -zeta only
  repeat' first
    | with_reducible assumption
    | with_reducible apply rowRun_keeps
    | fail_if_no_progress with_reducible refine Keeps.upd ?_ rfl rfl rfl rfl rfl rfl
    | extract_lets
    | dsimp only

theorem execRidgeTerm_keeps {h : Hdr} {value : Word} {s : State} (hC : CfgClosed C) (hU : UFree U) (hk : Keeps Q C U B
    s) :
    Keeps Q C U B (outState s (execRidgeTerm h value s)) := by
  unfold execRidgeTerm outState
  try dsimp -zeta only
  repeat' first
    | with_reducible assumption
    | with_reducible apply rowRun_keeps
    | fail_if_no_progress with_reducible refine Keeps.upd ?_ rfl rfl rfl rfl rfl rfl
    | extract_lets
    | dsimp only

theorem execTallyWindowWrite_keeps {h : Hdr} {n : Fin 24} {window : Bool} {value : Word} {s : State} (hC : CfgClosed
    C) (hU : UFree U) (hk : Keeps Q C U B s) :
    Keeps Q C U B (outState s (execTallyWindowWrite h n window value s)) := by
  unfold execTallyWindowWrite outState
  try dsimp -zeta only
  repeat' first
    | with_reducible assumption
    | with_reducible apply rowRun_keeps
    | with_reducible refine Keeps.ite ?_ (fun _ => ?_)
    | fail_if_no_progress with_reducible refine Keeps.upd ?_ rfl rfl rfl rfl rfl rfl
    | split
    | extract_lets
    | dsimp only

theorem execAlarmEnable_keeps {h : Hdr} {r : Fin 16} {value : Word} {s : State} (hC : CfgClosed C) (hU : UFree U) (hk
    : Keeps Q C U B s) :
    Keeps Q C U B (outState s (execAlarmEnable h r value s)) := by
  unfold execAlarmEnable outState
  try dsimp -zeta only
  repeat' first
    | with_reducible assumption
    | with_reducible apply rowRun_keeps
    | fail_if_no_progress with_reducible refine Keeps.upd ?_ rfl rfl rfl rfl rfl rfl
    | extract_lets
    | dsimp only

theorem execWaveSize_keeps {h : Hdr} {w : Fin 16} {value : Word} {s : State} (hC : CfgClosed C) (hU : UFree U) (hk :
    Keeps Q C U B s) :
    Keeps Q C U B (outState s (execWaveSize h w value s)) := by
  unfold execWaveSize outState
  try dsimp -zeta only
  repeat' first
    | with_reducible assumption
    | with_reducible apply rowRun_keeps
    | fail_if_no_progress with_reducible refine Keeps.upd ?_ rfl rfl rfl rfl rfl rfl
    | extract_lets
    | dsimp only

theorem execAoutEnable_keeps {h : Hdr} {value : Word} {s : State} (hC : CfgClosed C) (hU : UFree U) (hk : Keeps Q C U
    B s) :
    Keeps Q C U B (outState s (execAoutEnable h value s)) := by
  unfold execAoutEnable outState
  try dsimp -zeta only
  repeat' first
    | with_reducible assumption
    | with_reducible apply rowRun_keeps
    | fail_if_no_progress with_reducible refine Keeps.upd ?_ rfl rfl rfl rfl rfl rfl
    | extract_lets
    | dsimp only

theorem execAlarmack_keeps {h : Hdr} {mask : BitVec 16} {s : State} (hC : CfgClosed C) (hU : UFree U) (hk : Keeps Q C
    U B s) :
    Keeps Q C U B (outState s (execAlarmack h mask s)) := by
  unfold execAlarmack outState
  try dsimp -zeta only
  repeat' first
    | with_reducible assumption
    | with_reducible apply rowRun_keeps
    | fail_if_no_progress with_reducible refine Keeps.upd ?_ rfl rfl rfl rfl rfl rfl
    | extract_lets
    | dsimp only

theorem execTallyread_keeps {h : Hdr} {source : Byte} {s : State} (hC : CfgClosed C) (hU : UFree U) (hk : Keeps Q C U
    B s) :
    Keeps Q C U B (outState s (execTallyread h source s)) := by
  unfold execTallyread outState
  try dsimp -zeta only
  repeat' first
    | with_reducible assumption
    | with_reducible apply rowRun_keeps
    | fail_if_no_progress with_reducible refine Keeps.upd ?_ rfl rfl rfl rfl rfl rfl
    | extract_lets
    | dsimp only

theorem execTallyclear_keeps {h : Hdr} {source : Byte} {s : State} (hC : CfgClosed C) (hU : UFree U) (hk : Keeps Q C U
    B s) :
    Keeps Q C U B (outState s (execTallyclear h source s)) := by
  unfold execTallyclear outState
  try dsimp -zeta only
  repeat' first
    | with_reducible assumption
    | with_reducible apply rowRun_keeps
    | fail_if_no_progress with_reducible refine Keeps.upd ?_ rfl rfl rfl rfl rfl rfl
    | extract_lets
    | dsimp only

theorem execHeatrun_keeps {h : Hdr} {heater : Byte} {profile : Byte} {s : State} (hC : CfgClosed C) (hU : UFree U) (hk
    : Keeps Q C U B s) :
    Keeps Q C U B (outState s (execHeatrun h heater profile s)) := by
  unfold execHeatrun outState
  try dsimp -zeta only
  repeat' first
    | with_reducible assumption
    | with_reducible apply rowRun_keeps
    | fail_if_no_progress with_reducible refine Keeps.upd ?_ rfl rfl rfl rfl rfl rfl
    | extract_lets
    | dsimp only

theorem execHeatstop_keeps {h : Hdr} {mask : Byte} {s : State} (hC : CfgClosed C) (hU : UFree U) (hk : Keeps Q C U B
    s) :
    Keeps Q C U B (outState s (execHeatstop h mask s)) := by
  unfold execHeatstop outState
  try dsimp -zeta only
  repeat' first
    | with_reducible assumption
    | with_reducible apply rowRun_keeps
    | fail_if_no_progress with_reducible refine Keeps.upd ?_ rfl rfl rfl rfl rfl rfl
    | extract_lets
    | dsimp only

theorem execProfload_keeps {h : Hdr} {profile : Byte} {first : Byte} {steps : List (BitVec 64)} {s : State} (hC :
    CfgClosed C) (hU : UFree U) (hk : Keeps Q C U B s) :
    Keeps Q C U B (outState s (execProfload h profile first steps s)) := by
  unfold execProfload outState
  try dsimp -zeta only
  repeat' first
    | with_reducible assumption
    | with_reducible apply rowRun_keeps
    | fail_if_no_progress with_reducible refine Keeps.upd ?_ rfl rfl rfl rfl rfl rfl
    | intro _ _ _
    | intro _ _
    | extract_lets
    | dsimp only

theorem execLeadcal_keeps {h : Hdr} {heater : Byte} {s : State} (hC : CfgClosed C) (hU : UFree U) (hk : Keeps Q C U B
    s) :
    Keeps Q C U B (outState s (execLeadcal h heater s)) := by
  unfold execLeadcal outState
  try dsimp -zeta only
  repeat' first
    | with_reducible assumption
    | with_reducible apply rowRun_keeps
    | fail_if_no_progress with_reducible refine Keeps.upd ?_ rfl rfl rfl rfl rfl rfl
    | extract_lets
    | dsimp only

theorem execZcheck_keeps {h : Hdr} {mask : Mask} {s : State} (hC : CfgClosed C) (hU : UFree U) (hk : Keeps Q C U B s)
    :
    Keeps Q C U B (outState s (execZcheck h mask s)) := by
  unfold execZcheck outState
  try dsimp -zeta only
  repeat' first
    | with_reducible assumption
    | with_reducible apply rowRun_keeps
    | fail_if_no_progress with_reducible refine Keeps.upd ?_ rfl rfl rfl rfl rfl rfl
    | extract_lets
    | dsimp only

theorem execTriparm_keeps {h : Hdr} {mask : Byte} {armId : BitVec 16} {s : State} (hC : CfgClosed C) (hU : UFree U)
    (hk : Keeps Q C U B s) :
    Keeps Q C U B (outState s (execTriparm h mask armId s)) := by
  unfold execTriparm outState
  try dsimp -zeta only
  repeat' first
    | with_reducible assumption
    | with_reducible apply rowRun_keeps
    | fail_if_no_progress with_reducible refine Keeps.upd ?_ rfl rfl rfl rfl rfl rfl
    | extract_lets
    | dsimp only

theorem execTripdisarm_keeps {h : Hdr} {mask : Byte} {s : State} (hC : CfgClosed C) (hU : UFree U) (hk : Keeps Q C U B
    s) :
    Keeps Q C U B (outState s (execTripdisarm h mask s)) := by
  unfold execTripdisarm outState
  try dsimp -zeta only
  repeat' first
    | with_reducible assumption
    | with_reducible apply rowRun_keeps
    | fail_if_no_progress with_reducible refine Keeps.upd ?_ rfl rfl rfl rfl rfl rfl
    | extract_lets
    | dsimp only

theorem execTripforce_keeps {h : Hdr} {slot : Byte} {s : State} (hC : CfgClosed C) (hU : UFree U) (hk : Keeps Q C U B
    s) :
    Keeps Q C U B (outState s (execTripforce h slot s)) := by
  unfold execTripforce outState
  try dsimp -zeta only
  repeat' first
    | with_reducible assumption
    | with_reducible apply rowRun_keeps
    | fail_if_no_progress with_reducible refine Keeps.upd ?_ rfl rfl rfl rfl rfl rfl
    | extract_lets
    | dsimp only

theorem execCapread_keeps {h : Hdr} {first : Word} {count : BitVec 16} {via : Byte} {s : State} (hC : CfgClosed C) (hU
    : UFree U) (hk : Keeps Q C U B s) :
    Keeps Q C U B (outState s (execCapread h first count via s)) := by
  unfold execCapread outState
  try dsimp -zeta only
  repeat' first
    | with_reducible assumption
    | with_reducible apply rowRun_keeps
    | fail_if_no_progress with_reducible refine Keeps.upd ?_ rfl rfl rfl rfl rfl rfl
    | extract_lets
    | dsimp only

theorem execCapstat_keeps {h : Hdr} {s : State} (hC : CfgClosed C) (hU : UFree U) (hk : Keeps Q C U B s) :
    Keeps Q C U B (outState s (execCapstat h s)) := by
  unfold execCapstat outState
  try dsimp -zeta only
  repeat' first
    | with_reducible assumption
    | with_reducible apply rowRun_keeps
    | fail_if_no_progress with_reducible refine Keeps.upd ?_ rfl rfl rfl rfl rfl rfl
    | extract_lets
    | dsimp only

theorem execCapclear_keeps {h : Hdr} {s : State} (hC : CfgClosed C) (hU : UFree U) (hk : Keeps Q C U B s) :
    Keeps Q C U B (outState s (execCapclear h s)) := by
  unfold execCapclear outState
  try dsimp -zeta only
  repeat' first
    | with_reducible assumption
    | with_reducible apply rowRun_keeps
    | fail_if_no_progress with_reducible refine Keeps.upd ?_ rfl rfl rfl rfl rfl rfl
    | extract_lets
    | dsimp only

theorem execAoutset_keeps {h : Hdr} {code : BitVec 16} {s : State} (hC : CfgClosed C) (hU : UFree U) (hk : Keeps Q C U
    B s) :
    Keeps Q C U B (outState s (execAoutset h code s)) := by
  unfold execAoutset outState
  try dsimp -zeta only
  repeat' first
    | with_reducible assumption
    | with_reducible apply rowRun_keeps
    | fail_if_no_progress with_reducible refine Keeps.upd ?_ rfl rfl rfl rfl rfl rfl
    | extract_lets
    | dsimp only

theorem execAoutrange_keeps {h : Hdr} {range : Byte} {s : State} (hC : CfgClosed C) (hU : UFree U) (hk : Keeps Q C U B
    s) :
    Keeps Q C U B (outState s (execAoutrange h range s)) := by
  unfold execAoutrange outState
  try dsimp -zeta only
  repeat' first
    | with_reducible assumption
    | with_reducible apply rowRun_keeps
    | fail_if_no_progress with_reducible refine Keeps.upd ?_ rfl rfl rfl rfl rfl rfl
    | extract_lets
    | dsimp only

theorem execWaveload_keeps {h : Hdr} {wave : Byte} {first : BitVec 16} {points : List (BitVec 16)} {s : State} (hC :
    CfgClosed C) (hU : UFree U) (hk : Keeps Q C U B s) :
    Keeps Q C U B (outState s (execWaveload h wave first points s)) := by
  unfold execWaveload outState
  try dsimp -zeta only
  repeat' first
    | with_reducible assumption
    | with_reducible apply rowRun_keeps
    | fail_if_no_progress with_reducible refine Keeps.upd ?_ rfl rfl rfl rfl rfl rfl
    | intro _ _ _
    | intro _ _
    | extract_lets
    | dsimp only

theorem execWaveplay_keeps {h : Hdr} {wave : Byte} {target : Byte} {period : BitVec 16} {repeats : BitVec 16} {s :
    State} (hC : CfgClosed C) (hU : UFree U) (hk : Keeps Q C U B s) :
    Keeps Q C U B (outState s (execWaveplay h wave target period repeats s)) := by
  unfold execWaveplay outState
  try dsimp -zeta only
  repeat' first
    | with_reducible assumption
    | with_reducible apply rowRun_keeps
    | fail_if_no_progress with_reducible refine Keeps.upd ?_ rfl rfl rfl rfl rfl rfl
    | extract_lets
    | dsimp only

theorem execWavestop_keeps {h : Hdr} {target : Byte} {s : State} (hC : CfgClosed C) (hU : UFree U) (hk : Keeps Q C U B
    s) :
    Keeps Q C U B (outState s (execWavestop h target s)) := by
  unfold execWavestop outState
  try dsimp -zeta only
  repeat' first
    | with_reducible assumption
    | with_reducible apply rowRun_keeps
    | fail_if_no_progress with_reducible refine Keeps.upd ?_ rfl rfl rfl rfl rfl rfl
    | extract_lets
    | dsimp only

theorem execTwinjoin_keeps {h : Hdr} {mode : Byte} {partner : Byte} {s : State} (hC : CfgClosed C) (hU : UFree U) (hk
    : Keeps Q C U B s) :
    Keeps Q C U B (outState s (execTwinjoin h mode partner s)) := by
  unfold execTwinjoin outState
  try dsimp -zeta only
  repeat' first
    | with_reducible assumption
    | with_reducible apply rowRun_keeps
    | fail_if_no_progress with_reducible refine Keeps.upd ?_ rfl rfl rfl rfl rfl rfl
    | extract_lets
    | dsimp only

theorem execTwinsplit_keeps {h : Hdr} {s : State} (hC : CfgClosed C) (hU : UFree U) (hk : Keeps Q C U B s) :
    Keeps Q C U B (outState s (execTwinsplit h s)) := by
  unfold execTwinsplit outState
  try dsimp -zeta only
  repeat' first
    | with_reducible assumption
    | with_reducible apply rowRun_keeps
    | fail_if_no_progress with_reducible refine Keeps.upd ?_ rfl rfl rfl rfl rfl rfl
    | extract_lets
    | dsimp only

theorem execTwinstat_keeps {h : Hdr} {s : State} (hC : CfgClosed C) (hU : UFree U) (hk : Keeps Q C U B s) :
    Keeps Q C U B (outState s (execTwinstat h s)) := by
  unfold execTwinstat outState
  try dsimp -zeta only
  repeat' first
    | with_reducible assumption
    | with_reducible apply rowRun_keeps
    | fail_if_no_progress with_reducible refine Keeps.upd ?_ rfl rfl rfl rfl rfl rfl
    | extract_lets
    | dsimp only

theorem execNvsave_keeps {h : Hdr} {mask : Byte} {s : State} (hC : CfgClosed C) (hU : UFree U) (hk : Keeps Q C U B s)
    :
    Keeps Q C U B (outState s (execNvsave h mask s)) := by
  unfold execNvsave outState
  try dsimp -zeta only
  repeat' first
    | with_reducible assumption
    | with_reducible apply rowRun_keeps
    | fail_if_no_progress with_reducible refine Keeps.upd ?_ rfl rfl rfl rfl rfl rfl
    | extract_lets
    | dsimp only

theorem execNvload_keeps {h : Hdr} {mask : Byte} {s : State} (hC : CfgClosed C) (hU : UFree U) (hk : Keeps Q C U B s)
    :
    Keeps Q C U B (outState s (execNvload h mask s)) := by
  unfold execNvload outState
  try dsimp -zeta only
  repeat' first
    | with_reducible assumption
    | with_reducible apply rowRun_keeps
    | fail_if_no_progress with_reducible refine Keeps.upd ?_ rfl rfl rfl rfl rfl rfl
    | extract_lets
    | dsimp only

theorem execTaskq_keeps {h : Hdr} {task : Byte} {s : State} (hC : CfgClosed C) (hU : UFree U) (hk : Keeps Q C U B s) :
    Keeps Q C U B (outState s (execTaskq h task s)) := by
  unfold execTaskq outState
  try dsimp -zeta only
  repeat' first
    | with_reducible assumption
    | with_reducible apply rowRun_keeps
    | fail_if_no_progress with_reducible refine Keeps.upd ?_ rfl rfl rfl rfl rfl rfl
    | extract_lets
    | dsimp only

theorem execRationq_keeps {h : Hdr} {s : State} (hC : CfgClosed C) (hU : UFree U) (hk : Keeps Q C U B s) :
    Keeps Q C U B (outState s (execRationq h s)) := by
  unfold execRationq outState
  try dsimp -zeta only
  repeat' first
    | with_reducible assumption
    | with_reducible apply rowRun_keeps
    | fail_if_no_progress with_reducible refine Keeps.upd ?_ rfl rfl rfl rfl rfl rfl
    | extract_lets
    | dsimp only

theorem execFieldread_keeps {h : Hdr} {address : Byte} {s : State} (hC : CfgClosed C) (hU : UFree U) (hk : Keeps Q C U
    B s) :
    Keeps Q C U B (outState s (execFieldread h address s)) := by
  unfold execFieldread outState
  try dsimp -zeta only
  repeat' first
    | with_reducible assumption
    | with_reducible apply rowRun_keeps
    | fail_if_no_progress with_reducible refine Keeps.upd ?_ rfl rfl rfl rfl rfl rfl
    | extract_lets
    | dsimp only

theorem execPins_keeps {h : Hdr} {s : State} (hC : CfgClosed C) (hU : UFree U) (hk : Keeps Q C U B s) :
    Keeps Q C U B (outState s (execPins h s)) := by
  unfold execPins outState
  try dsimp -zeta only
  repeat' first
    | with_reducible assumption
    | with_reducible apply rowRun_keeps
    | fail_if_no_progress with_reducible refine Keeps.upd ?_ rfl rfl rfl rfl rfl rfl
    | extract_lets
    | dsimp only

theorem firstLoop_keeps {s : State} {t : TaskRec} (hk : Keeps Q C U B s) :
    Keeps Q C U B (firstLoop s t) := by
  unfold firstLoop
  repeat' first
    | with_reducible assumption
    | with_reducible apply heaterLoop_keeps
    | fail_if_no_progress with_reducible refine Keeps.upd ?_ rfl rfl rfl rfl rfl rfl
    | split
    | extract_lets
    | dsimp only

theorem trialTaken_keeps {x : State × List (Nat × Option Req)} {it : Nat × Taken} (hC : CfgClosed C) (hU : UFree U)
    (hk : Keeps Q C U B x.1) :
    Keeps Q C U B (trialTaken x it).1 := by
  unfold trialTaken
  repeat' first
    | with_reducible assumption
    | with_reducible apply ownRun_keeps
    | with_reducible refine Keeps.ite ?_ (fun _ => ?_)
    | fail_if_no_progress with_reducible refine Keeps.upd ?_ rfl rfl rfl rfl rfl rfl
    | split
    | extract_lets
    | dsimp +zetaDelta only
    | dsimp only

theorem trialFar_keeps {x : State × List (Nat × Option Req)} {it : Nat × FwdIn} (hC : CfgClosed C) (hU : UFree U) (hk
    : Keeps Q C U B x.1) :
    Keeps Q C U B (trialFar x it).1 := by
  unfold trialFar
  repeat' first
    | with_reducible assumption
    | with_reducible apply farRun_keeps
    | with_reducible refine Keeps.ite ?_ (fun _ => ?_)
    | fail_if_no_progress with_reducible refine Keeps.upd ?_ rfl rfl rfl rfl rfl rfl
    | split
    | extract_lets
    | dsimp +zetaDelta only
    | dsimp only

theorem trialIdle_keeps {s : State} {l : List (Nat × Option Req)} (hk : Keeps Q C U B s) :
    Keeps Q C U B (trialIdle s l) := by
  unfold trialIdle
  repeat' first
    | with_reducible assumption
    | with_reducible apply packetVerdict_keeps
    | with_reducible refine foldl_keeps ?_ (fun _ _ _ => ?_)
    | with_reducible refine foldl1_keeps ?_ (fun _ _ _ => ?_)
    | with_reducible refine Keeps.ite ?_ (fun _ => ?_)
    | fail_if_no_progress with_reducible refine Keeps.upd ?_ rfl rfl rfl rfl rfl rfl
    | intro _ _ _
    | intro _ _
    | split
    | extract_lets
    | dsimp only

theorem decideAlone_keeps {s : State} (hk : Keeps Q C U B s) :
    Keeps Q C U B (decideAlone s) := by
  unfold decideAlone
  repeat' first
    | with_reducible assumption
    | with_reducible apply trialIdle_keeps
    | with_reducible apply decideRun_keeps
    | fail_if_no_progress with_reducible refine Keeps.upd ?_ rfl rfl rfl rfl rfl rfl
    | extract_lets
    | dsimp +zetaDelta only
    | dsimp only

theorem execSchedulerDecision_keeps {s : State} (hk : Keeps Q C U B s) :
    Keeps Q C U B (outState s (execSchedulerDecision s)) := by
  unfold execSchedulerDecision outState
  try dsimp -zeta only
  repeat' first
    | with_reducible assumption
    | with_reducible apply decideAlone_keeps
    | with_reducible refine Keeps.ite ?_ (fun _ => ?_)
    | fail_if_no_progress with_reducible refine Keeps.upd ?_ rfl rfl rfl rfl rfl rfl
    | split
    | extract_lets
    | dsimp only

theorem decidePair_keeps {s : State} (hk : Keeps Q C U B s) :
    Keeps Q C U B (decidePair s) := by
  unfold decidePair
  repeat' first
    | with_reducible assumption
    | with_reducible apply decideRun_keeps
    | with_reducible apply trialIdle_keeps
    | with_reducible apply twinSend_keeps
    | with_reducible refine Keeps.ite ?_ (fun _ => ?_)
    | fail_if_no_progress with_reducible refine Keeps.upd ?_ rfl rfl rfl rfl rfl rfl
    | intro _ _ _
    | intro _ _
    | split
    | extract_lets
    | dsimp +zetaDelta only
    | dsimp only

theorem execPairDecision_keeps {s : State} (hk : Keeps Q C U B s) :
    Keeps Q C U B (outState s (execPairDecision s)) := by
  unfold execPairDecision outState
  try dsimp -zeta only
  repeat' first
    | with_reducible assumption
    | with_reducible apply decidePair_keeps
    | with_reducible refine Keeps.ite ?_ (fun _ => ?_)
    | fail_if_no_progress with_reducible refine Keeps.upd ?_ rfl rfl rfl rfl rfl rfl
    | split
    | extract_lets
    | dsimp only

theorem execTwinReq_keeps {caps : TailCaps} {reqs : List TailReq} {s : State} (hk : Keeps Q C U B s) :
    Keeps Q C U B (outState s (execTwinReq caps reqs s)) := by
  unfold execTwinReq outState
  try dsimp -zeta only
  repeat' first
    | with_reducible assumption
    | with_reducible refine Keeps.ite ?_ (fun _ => ?_)
    | fail_if_no_progress with_reducible refine Keeps.upd ?_ rfl rfl rfl rfl rfl rfl
    | split
    | extract_lets
    | dsimp only

theorem tailAsk_keeps {s0 : State} (hk : Keeps Q C U B s0) :
    Keeps Q C U B (tailAsk s0) := by
  unfold tailAsk
  repeat' first
    | with_reducible assumption
    | with_reducible apply loopsRun_keeps
    | with_reducible apply owedCreate_keeps
    | with_reducible apply trialIdle_keeps
    | with_reducible apply twinSend_keeps
    | with_reducible apply askedNone_keeps
    | with_reducible apply applyVerdicts_keeps
    | fail_if_no_progress with_reducible refine Keeps.upd ?_ rfl rfl rfl rfl rfl rfl
    | intro _ _ _
    | intro _ _
    | extract_lets
    | dsimp +zetaDelta only
    | dsimp only

theorem grantOne_keeps {s : State} {g : Byte × Byte} (hk : Keeps Q C U B s) :
    Keeps Q C U B (grantOne s g) := by
  unfold grantOne
  repeat' first
    | with_reducible assumption
    | with_reducible apply applyVerdicts_keeps
    | with_reducible refine Keeps.ite ?_ (fun _ => ?_)
    | fail_if_no_progress with_reducible refine Keeps.upd ?_ rfl rfl rfl rfl rfl rfl
    | intro _ _ _
    | intro _ _
    | split
    | extract_lets
    | dsimp +zetaDelta only
    | dsimp only

theorem grantTake_keeps {s : State} {gs : List (Byte × Byte)} (hk : Keeps Q C U B s) :
    Keeps Q C U B (grantTake s gs) := by
  unfold grantTake
  repeat' first
    | with_reducible assumption
    | with_reducible apply grantOne_keeps
    | with_reducible refine foldl_keeps ?_ (fun _ _ _ => ?_)
    | with_reducible refine foldl1_keeps ?_ (fun _ _ _ => ?_)
    | fail_if_no_progress with_reducible refine Keeps.upd ?_ rfl rfl rfl rfl rfl rfl
    | intro _ _ _
    | intro _ _
    | extract_lets
    | dsimp +zetaDelta only
    | dsimp only

theorem execTwinGrant_keeps {outcomes : List (Byte × Byte)} {s : State} (hk : Keeps Q C U B s) :
    Keeps Q C U B (outState s (execTwinGrant outcomes s)) := by
  unfold execTwinGrant outState
  try dsimp -zeta only
  repeat' first
    | with_reducible assumption
    | with_reducible apply grantTake_keeps
    | with_reducible refine Keeps.ite ?_ (fun _ => ?_)
    | fail_if_no_progress with_reducible refine Keeps.upd ?_ rfl rfl rfl rfl rfl rfl
    | split
    | extract_lets
    | dsimp only

theorem execTailGrantTimeout_keeps {s : State} (hk : Keeps Q C U B s) :
    Keeps Q C U B (outState s (execTailGrantTimeout s)) := by
  unfold execTailGrantTimeout outState
  try dsimp -zeta only
  repeat' first
    | with_reducible assumption
    | with_reducible apply grantTake_keeps
    | with_reducible refine Keeps.ite ?_ (fun _ => ?_)
    | fail_if_no_progress with_reducible refine Keeps.upd ?_ rfl rfl rfl rfl rfl rfl
    | intro _ _ _
    | intro _ _
    | split
    | extract_lets
    | dsimp only

theorem execPeriodicCheckDue_keeps {s : State} (hk : Keeps Q C U B s) :
    Keeps Q C U B (outState s (execPeriodicCheckDue s)) := by
  unfold execPeriodicCheckDue outState
  try dsimp -zeta only
  repeat' first
    | with_reducible assumption
    | with_reducible apply periodicCreate_keeps
    | with_reducible refine Keeps.ite ?_ (fun _ => ?_)
    | fail_if_no_progress with_reducible refine Keeps.upd ?_ rfl rfl rfl rfl rfl rfl
    | split
    | extract_lets
    | dsimp only

end Sys2Proof.Machine
end

