-- ==== Sys2Proof/Laws/KeepsRing.lean ====
section
/-! SUPPORT. What the ring, boot, the slot, the pole link and the tick leave alone (Keeps): one lemma per operation. -/

set_option linter.unusedTactic false
set_option linter.unusedVariables false
set_option linter.unreachableTactic false

namespace Sys2Proof.Machine

variable {Q : List Instr} {C : List (Nat × Word) → Prop} {U : UnitSt → Prop} {B : Prop}

theorem outPut_keeps {s : State} {a : Nat} {n : Nat} {v : Nat} (hk : Keeps Q C U B s) :
    Keeps Q C U B (outPut s a n v) := by
  unfold outPut
  repeat' first
    | with_reducible assumption
    | fail_if_no_progress with_reducible refine Keeps.upd ?_ rfl rfl rfl rfl rfl rfl
    | extract_lets
    | dsimp only

theorem orphanEnter_keeps {s : State} (hk : Keeps Q C U B s) :
    Keeps Q C U B (orphanEnter s) := by
  unfold orphanEnter
  repeat' first
    | with_reducible assumption
    | with_reducible apply logE_keeps
    | with_reducible refine Keeps.ite ?_ (fun _ => ?_)
    | fail_if_no_progress with_reducible refine Keeps.upd ?_ rfl rfl rfl rfl rfl rfl
    | split
    | extract_lets
    | dsimp +zetaDelta only
    | dsimp only

theorem orphanLeave_keeps {s : State} (hk : Keeps Q C U B s) :
    Keeps Q C U B (orphanLeave s) := by
  unfold orphanLeave
  repeat' first
    | with_reducible assumption
    | with_reducible apply logE_keeps
    | with_reducible refine Keeps.ite ?_ (fun _ => ?_)
    | fail_if_no_progress with_reducible refine Keeps.upd ?_ rfl rfl rfl rfl rfl rfl
    | split
    | extract_lets
    | dsimp +zetaDelta only
    | dsimp only

theorem pegEmpty_keeps {s : State} (hk : Keeps Q C U B s) : Keeps Q C U B (pegEmpty s) :=
  ⟨hk.queue, hk.config, hk.unit, hk.phase, hk.log, fun _ => Nat.zero_le _⟩

theorem pegPair_keeps {s : State} {peg : Nat} {origin : BitVec 16} (hk : Keeps Q C U B s) :
    Keeps Q C U B (pegPair s peg origin) := by
  unfold pegPair
  repeat' first
    | with_reducible assumption
    | with_reducible apply twinSplit_keeps
    | with_reducible refine Keeps.ite ?_ (fun _ => ?_)
    | fail_if_no_progress with_reducible refine Keeps.upd ?_ rfl rfl rfl rfl rfl rfl
    | split
    | extract_lets
    | dsimp only

theorem pegSet_keeps {s : State} {peg : Nat} {hop : Nat} {origin : BitVec 16} (hk : Keeps Q C U B s) :
    Keeps Q C U B (pegSet s peg hop origin) := by
  unfold pegSet
  repeat' first
    | with_reducible assumption
    | with_reducible apply logE_keeps
    | with_reducible apply pegPair_keeps
    | with_reducible apply pegEmpty_keeps
    | with_reducible refine Keeps.ite ?_ (fun _ => ?_)
    | fail_if_no_progress with_reducible refine Keeps.upd ?_ rfl rfl rfl rfl rfl rfl
    | split
    | extract_lets
    | dsimp +zetaDelta only
    | dsimp only

theorem pitchPass_keeps {s : State} {mode : Nat} {field : Nat} (hk : Keeps Q C U B s) :
    Keeps Q C U B (pitchPass s mode field) := by
  unfold pitchPass
  repeat' first
    | with_reducible assumption
    | with_reducible apply outPut_keeps
    | with_reducible refine Keeps.ite ?_ (fun _ => ?_)
    | fail_if_no_progress with_reducible refine Keeps.upd ?_ rfl rfl rfl rfl rfl rfl
    | split
    | extract_lets
    | dsimp only

theorem pitchCommit_keeps {s : State} {mode : Nat} {field : Nat} (hk : Keeps Q C U B s) :
    Keeps Q C U B (pitchCommit s mode field) := by
  unfold pitchCommit
  repeat' first
    | with_reducible assumption
    | with_reducible apply pegSet_keeps
    | with_reducible refine Keeps.ite ?_ (fun _ => ?_)
    | fail_if_no_progress with_reducible refine Keeps.upd ?_ rfl rfl rfl rfl rfl rfl
    | split
    | extract_lets
    | dsimp +zetaDelta only
    | dsimp only

theorem pitchHeader_keeps {s : State} {mode : Nat} {field : Byte} (hk : Keeps Q C U B s) :
    Keeps Q C U B (pitchHeader s mode field) := by
  unfold pitchHeader
  repeat' first
    | with_reducible assumption
    | with_reducible apply pitchCommit_keeps
    | with_reducible apply pitchPass_keeps
    | with_reducible refine Keeps.ite ?_ (fun _ => ?_)
    | fail_if_no_progress with_reducible refine Keeps.upd ?_ rfl rfl rfl rfl rfl rfl
    | split
    | extract_lets
    | dsimp only

theorem mapPass_keeps {s : State} {a : Nat} {on : Bool} (hk : Keeps Q C U B s) :
    Keeps Q C U B (mapPass s a on) := by
  unfold mapPass
  repeat' first
    | with_reducible assumption
    | with_reducible apply outPut_keeps
    | with_reducible refine Keeps.ite ?_ (fun _ => ?_)
    | fail_if_no_progress with_reducible refine Keeps.upd ?_ rfl rfl rfl rfl rfl rfl
    | split
    | extract_lets
    | dsimp only

theorem mapsPass_keeps {s : State} (hk : Keeps Q C U B s) :
    Keeps Q C U B (mapsPass s) := by
  unfold mapsPass
  repeat' first
    | with_reducible assumption
    | with_reducible apply mapPass_keeps
    | fail_if_no_progress with_reducible refine Keeps.upd ?_ rfl rfl rfl rfl rfl rfl
    | extract_lets
    | dsimp only

theorem seenNote_keeps {s : State} {echo : Bool} {good : Bool} {resolve : Bool} {peg : Nat} {changed : Bool} (hk :
    Keeps Q C U B s) :
    Keeps Q C U B (seenNote s echo good resolve peg changed) := by
  unfold seenNote
  repeat' first
    | with_reducible assumption
    | fail_if_no_progress with_reducible refine Keeps.upd ?_ rfl rfl rfl rfl rfl rfl
    | extract_lets
    | dsimp only

theorem firePass_keeps {s : State} {key : BitVec 56} {good : Bool} (hk : Keeps Q C U B s) :
    Keeps Q C U B (firePass s key good) := by
  unfold firePass
  repeat' first
    | with_reducible assumption
    | with_reducible apply seenNote_keeps
    | with_reducible apply outPut_keeps
    | with_reducible refine Keeps.ite ?_ (fun _ => ?_)
    | fail_if_no_progress with_reducible refine Keeps.upd ?_ rfl rfl rfl rfl rfl rfl
    | split
    | extract_lets
    | dsimp +zetaDelta only
    | dsimp only

theorem resolvePass_keeps {s : State} {peg : Nat} {good : Bool} (hk : Keeps Q C U B s) :
    Keeps Q C U B (resolvePass s peg good) := by
  unfold resolvePass
  repeat' first
    | with_reducible assumption
    | with_reducible apply seenNote_keeps
    | with_reducible apply outPut_keeps
    | with_reducible refine Keeps.ite ?_ (fun _ => ?_)
    | fail_if_no_progress with_reducible refine Keeps.upd ?_ rfl rfl rfl rfl rfl rfl
    | split
    | extract_lets
    | dsimp +zetaDelta only
    | dsimp only

theorem fireTime_keeps {s : State} {key : BitVec 56} (hk : Keeps Q C U B s) :
    Keeps Q C U B (fireTime s key) := by
  unfold fireTime
  repeat' first
    | with_reducible assumption
    | with_reducible apply capFire_keeps
    | with_reducible refine Keeps.ite ?_ (fun _ => ?_)
    | fail_if_no_progress with_reducible refine Keeps.upd ?_ rfl rfl rfl rfl rfl rfl
    | split
    | extract_lets
    | dsimp +zetaDelta only
    | dsimp only

theorem fireLearn_keeps {s : State} {key : BitVec 56} (hk : Keeps Q C U B s) :
    Keeps Q C U B (fireLearn s key) := by
  unfold fireLearn
  repeat' first
    | with_reducible assumption
    | with_reducible apply fireTime_keeps
    | with_reducible refine Keeps.ite ?_ (fun _ => ?_)
    | fail_if_no_progress with_reducible refine Keeps.upd ?_ rfl rfl rfl rfl rfl rfl
    | split
    | extract_lets
    | dsimp +zetaDelta only
    | dsimp only

theorem fireConfirm_keeps {s : State} {peg : Nat} {key : BitVec 56} (hk : Keeps Q C U B s) :
    Keeps Q C U B (fireConfirm s peg key) := by
  unfold fireConfirm
  repeat' first
    | with_reducible assumption
    | with_reducible apply fireTime_keeps
    | with_reducible refine Keeps.ite ?_ (fun _ => ?_)
    | fail_if_no_progress with_reducible refine Keeps.upd ?_ rfl rfl rfl rfl rfl rfl
    | split
    | extract_lets
    | dsimp +zetaDelta only
    | dsimp only

theorem execFirePass_keeps {key : BitVec 56} {s : State} (hk : Keeps Q C U B s) :
    Keeps Q C U B (outState s (execFirePass key s)) := by
  unfold execFirePass outState
  try dsimp -zeta only
  repeat' first
    | with_reducible assumption
    | with_reducible apply firePass_keeps
    | with_reducible refine Keeps.ite ?_ (fun _ => ?_)
    | fail_if_no_progress with_reducible refine Keeps.upd ?_ rfl rfl rfl rfl rfl rfl
    | split
    | extract_lets
    | dsimp only

theorem execResolvePass_keeps {firePeg : Byte} {key : BitVec 56} {s : State} (hk : Keeps Q C U B s) :
    Keeps Q C U B (outState s (execResolvePass firePeg key s)) := by
  unfold execResolvePass outState
  try dsimp -zeta only
  repeat' first
    | with_reducible assumption
    | with_reducible apply fireLearn_keeps
    | with_reducible apply resolvePass_keeps
    | with_reducible refine Keeps.ite ?_ (fun _ => ?_)
    | fail_if_no_progress with_reducible refine Keeps.upd ?_ rfl rfl rfl rfl rfl rfl
    | split
    | extract_lets
    | dsimp only

theorem execConfirmPass_keeps {firePeg : Byte} {key : BitVec 56} {s : State} (hk : Keeps Q C U B s) :
    Keeps Q C U B (outState s (execConfirmPass firePeg key s)) := by
  unfold execConfirmPass outState
  try dsimp -zeta only
  repeat' first
    | with_reducible assumption
    | with_reducible apply fireConfirm_keeps
    | with_reducible apply seenNote_keeps
    | with_reducible refine Keeps.ite ?_ (fun _ => ?_)
    | fail_if_no_progress with_reducible refine Keeps.upd ?_ rfl rfl rfl rfl rfl rfl
    | split
    | extract_lets
    | dsimp only

theorem fireFields_keeps {s : State} {h : BitVec 512} {good : Bool} (hk : Keeps Q C U B s) :
    Keeps Q C U B (fireFields s h good) := by
  unfold fireFields
  repeat' first
    | with_reducible assumption
    | with_reducible apply firePass_keeps
    | with_reducible apply resolvePass_keeps
    | with_reducible apply seenNote_keeps
    | with_reducible refine Keeps.ite ?_ (fun _ => ?_)
    | fail_if_no_progress with_reducible refine Keeps.upd ?_ rfl rfl rfl rfl rfl rfl
    | split
    | extract_lets
    | dsimp +zetaDelta only
    | dsimp only

theorem fireTold_keeps {s0 : State} {s : State} {h : BitVec 512} (hk : Keeps Q C U B s0) (hk1 : Keeps Q C U B s) :
    Keeps Q C U B (fireTold s0 s h) := by
  unfold fireTold
  repeat' first
    | with_reducible assumption
    | with_reducible apply fireLearn_keeps
    | with_reducible apply fireConfirm_keeps
    | with_reducible refine Keeps.ite ?_ (fun _ => ?_)
    | fail_if_no_progress with_reducible refine Keeps.upd ?_ rfl rfl rfl rfl rfl rfl
    | split
    | extract_lets
    | dsimp +zetaDelta only
    | dsimp only

theorem masterPass_keeps {s : State} {good : Bool} (hk : Keeps Q C U B s) :
    Keeps Q C U B (masterPass s good) := by
  unfold masterPass
  repeat' first
    | with_reducible assumption
    | with_reducible apply outPut_keeps
    | with_reducible refine Keeps.ite ?_ (fun _ => ?_)
    | fail_if_no_progress with_reducible refine Keeps.upd ?_ rfl rfl rfl rfl rfl rfl
    | split
    | extract_lets
    | dsimp +zetaDelta only
    | dsimp only

theorem armNote_keeps {s : State} {arm : Bool} {armId : BitVec 16} (hk : Keeps Q C U B s) :
    Keeps Q C U B (armNote s arm armId) := by
  unfold armNote
  repeat' first
    | with_reducible assumption
    | with_reducible refine Keeps.ite ?_ (fun _ => ?_)
    | fail_if_no_progress with_reducible refine Keeps.upd ?_ rfl rfl rfl rfl rfl rfl
    | split
    | extract_lets
    | dsimp only

theorem ringArm_keeps {s : State} {armId : BitVec 16} (hk : Keeps Q C U B s) :
    Keeps Q C U B (ringArm s armId) := by
  unfold ringArm
  repeat' first
    | with_reducible assumption
    | with_reducible apply tripArm_keeps
    | with_reducible refine Keeps.ite ?_ (fun _ => ?_)
    | fail_if_no_progress with_reducible refine Keeps.upd ?_ rfl rfl rfl rfl rfl rfl
    | split
    | extract_lets
    | dsimp +zetaDelta only
    | dsimp only

theorem ringDisarm_keeps {s : State} {armId : BitVec 16} (hk : Keeps Q C U B s) :
    Keeps Q C U B (ringDisarm s armId) := by
  unfold ringDisarm
  repeat' first
    | with_reducible assumption
    | with_reducible apply tripDisarm_keeps
    | with_reducible refine Keeps.ite ?_ (fun _ => ?_)
    | fail_if_no_progress with_reducible refine Keeps.upd ?_ rfl rfl rfl rfl rfl rfl
    | split
    | extract_lets
    | dsimp only

theorem armsRun_keeps {s : State} (hk : Keeps Q C U B s) :
    Keeps Q C U B (armsRun s) := by
  unfold armsRun
  repeat' first
    | with_reducible assumption
    | with_reducible apply ringArm_keeps
    | with_reducible apply ringDisarm_keeps
    | with_reducible refine foldl_keeps ?_ (fun _ _ _ => ?_)
    | with_reducible refine foldl1_keeps ?_ (fun _ _ _ => ?_)
    | with_reducible refine Keeps.ite ?_ (fun _ => ?_)
    | fail_if_no_progress with_reducible refine Keeps.upd ?_ rfl rfl rfl rfl rfl rfl
    | intro _ _ _
    | intro _ _
    | split
    | extract_lets
    | dsimp only

theorem execHeaderArm_keeps {armId : BitVec 16} {s : State} (hk : Keeps Q C U B s) :
    Keeps Q C U B (outState s (execHeaderArm armId s)) := by
  unfold execHeaderArm outState
  try dsimp -zeta only
  repeat' first
    | with_reducible assumption
    | with_reducible apply armNote_keeps
    | with_reducible refine Keeps.ite ?_ (fun _ => ?_)
    | fail_if_no_progress with_reducible refine Keeps.upd ?_ rfl rfl rfl rfl rfl rfl
    | split
    | extract_lets
    | dsimp only

theorem execHeaderDisarm_keeps {armId : BitVec 16} {s : State} (hk : Keeps Q C U B s) :
    Keeps Q C U B (outState s (execHeaderDisarm armId s)) := by
  unfold execHeaderDisarm outState
  try dsimp -zeta only
  repeat' first
    | with_reducible assumption
    | with_reducible apply armNote_keeps
    | with_reducible refine Keeps.ite ?_ (fun _ => ?_)
    | fail_if_no_progress with_reducible refine Keeps.upd ?_ rfl rfl rfl rfl rfl rfl
    | split
    | extract_lets
    | dsimp only

theorem headerSync_keeps {s : State} {syncAt : BitVec 16} (hk : Keeps Q C U B s) :
    Keeps Q C U B (headerSync s syncAt) := by
  unfold headerSync
  repeat' first
    | with_reducible assumption
    | fail_if_no_progress with_reducible refine Keeps.upd ?_ rfl rfl rfl rfl rfl rfl
    | intro _ _ _
    | intro _ _
    | extract_lets
    | dsimp +zetaDelta only
    | dsimp only

theorem execHeaderSync_keeps {syncAt : BitVec 16} {s : State} (hk : Keeps Q C U B s) :
    Keeps Q C U B (outState s (execHeaderSync syncAt s)) := by
  unfold execHeaderSync outState
  try dsimp -zeta only
  repeat' first
    | with_reducible assumption
    | with_reducible apply headerSync_keeps
    | with_reducible refine Keeps.ite ?_ (fun _ => ?_)
    | fail_if_no_progress with_reducible refine Keeps.upd ?_ rfl rfl rfl rfl rfl rfl
    | split
    | extract_lets
    | dsimp only

theorem execPitchAll_keeps {field : Byte} {s : State} (hk : Keeps Q C U B s) :
    Keeps Q C U B (outState s (execPitchAll field s)) := by
  unfold execPitchAll outState
  try dsimp -zeta only
  repeat' first
    | with_reducible assumption
    | with_reducible apply pitchHeader_keeps
    | fail_if_no_progress with_reducible refine Keeps.upd ?_ rfl rfl rfl rfl rfl rfl
    | extract_lets
    | dsimp only

theorem execPitchCount_keeps {field : Byte} {s : State} (hk : Keeps Q C U B s) :
    Keeps Q C U B (outState s (execPitchCount field s)) := by
  unfold execPitchCount outState
  try dsimp -zeta only
  repeat' first
    | with_reducible assumption
    | with_reducible apply pitchHeader_keeps
    | fail_if_no_progress with_reducible refine Keeps.upd ?_ rfl rfl rfl rfl rfl rfl
    | extract_lets
    | dsimp only

theorem execPitchFill_keeps {field : Byte} {s : State} (hk : Keeps Q C U B s) :
    Keeps Q C U B (outState s (execPitchFill field s)) := by
  unfold execPitchFill outState
  try dsimp -zeta only
  repeat' first
    | with_reducible assumption
    | with_reducible apply pitchHeader_keeps
    | fail_if_no_progress with_reducible refine Keeps.upd ?_ rfl rfl rfl rfl rfl rfl
    | extract_lets
    | dsimp only

theorem execPitchSticky_keeps {field : Byte} {s : State} (hk : Keeps Q C U B s) :
    Keeps Q C U B (outState s (execPitchSticky field s)) := by
  unfold execPitchSticky outState
  try dsimp -zeta only
  repeat' first
    | with_reducible assumption
    | with_reducible apply pitchHeader_keeps
    | fail_if_no_progress with_reducible refine Keeps.upd ?_ rfl rfl rfl rfl rfl rfl
    | extract_lets
    | dsimp only

theorem execPitchDrop_keeps {field : Byte} {s : State} (hk : Keeps Q C U B s) :
    Keeps Q C U B (outState s (execPitchDrop field s)) := by
  unfold execPitchDrop outState
  try dsimp -zeta only
  repeat' first
    | with_reducible assumption
    | with_reducible apply pitchHeader_keeps
    | fail_if_no_progress with_reducible refine Keeps.upd ?_ rfl rfl rfl rfl rfl rfl
    | extract_lets
    | dsimp only

theorem execPitchMeasure_keeps {field : Byte} {s : State} (hk : Keeps Q C U B s) :
    Keeps Q C U B (outState s (execPitchMeasure field s)) := by
  unfold execPitchMeasure outState
  try dsimp -zeta only
  repeat' first
    | with_reducible assumption
    | with_reducible apply pitchHeader_keeps
    | fail_if_no_progress with_reducible refine Keeps.upd ?_ rfl rfl rfl rfl rfl rfl
    | extract_lets
    | dsimp only

theorem execPegClashRelease_keeps {s : State} (hk : Keeps Q C U B s) :
    Keeps Q C U B (outState s (execPegClashRelease s)) := by
  unfold execPegClashRelease outState
  try dsimp -zeta only
  repeat' first
    | with_reducible assumption
    | with_reducible apply pegSet_keeps
    | with_reducible refine Keeps.ite ?_ (fun _ => ?_)
    | fail_if_no_progress with_reducible refine Keeps.upd ?_ rfl rfl rfl rfl rfl rfl
    | split
    | extract_lets
    | dsimp only

theorem bulkFrame_keeps {s : State} {b : Bulk} {len : Nat} (hk : Keeps Q C U B s) :
    Keeps Q C U B (bulkFrame s b len) := by
  unfold bulkFrame
  repeat' first
    | with_reducible assumption
    | with_reducible refine Keeps.ite ?_ (fun _ => ?_)
    | fail_if_no_progress with_reducible refine Keeps.upd ?_ rfl rfl rfl rfl rfl rfl
    | split
    | extract_lets
    | dsimp +zetaDelta only
    | dsimp only

theorem bulkGrant_keeps {s : State} {peg : Nat} {len : Nat} (hk : Keeps Q C U B s) :
    Keeps Q C U B (bulkGrant s peg len) := by
  unfold bulkGrant
  repeat' first
    | with_reducible assumption
    | with_reducible apply bulkFrame_keeps
    | with_reducible refine Keeps.ite ?_ (fun _ => ?_)
    | fail_if_no_progress with_reducible refine Keeps.upd ?_ rfl rfl rfl rfl rfl rfl
    | split
    | extract_lets
    | dsimp only

theorem execBulkGrant_keeps {peg : Byte} {len : BitVec 16} {s : State} (hk : Keeps Q C U B s) :
    Keeps Q C U B (outState s (execBulkGrant peg len s)) := by
  unfold execBulkGrant outState
  try dsimp -zeta only
  repeat' first
    | with_reducible assumption
    | with_reducible apply bulkGrant_keeps
    | with_reducible refine Keeps.ite ?_ (fun _ => ?_)
    | fail_if_no_progress with_reducible refine Keeps.upd ?_ rfl rfl rfl rfl rfl rfl
    | split
    | extract_lets
    | dsimp only

theorem headerPass_keeps {s : State} {h : BitVec 512} {good : Bool} (hk : Keeps Q C U B s) :
    Keeps Q C U B (headerPass s h good) := by
  unfold headerPass
  repeat' first
    | with_reducible assumption
    | with_reducible apply pitchPass_keeps
    | with_reducible apply masterPass_keeps
    | with_reducible apply fireFields_keeps
    | with_reducible apply mapsPass_keeps
    | with_reducible refine Keeps.ite ?_ (fun _ => ?_)
    | fail_if_no_progress with_reducible refine Keeps.upd ?_ rfl rfl rfl rfl rfl rfl
    | split
    | extract_lets
    | dsimp +zetaDelta only
    | dsimp only

theorem headerFields_keeps {s : State} {h : BitVec 512} (hk : Keeps Q C U B s) :
    Keeps Q C U B (headerFields s h) := by
  unfold headerFields
  repeat' first
    | with_reducible assumption
    | with_reducible apply orphanLeave_keeps
    | fail_if_no_progress with_reducible refine Keeps.upd ?_ rfl rfl rfl rfl rfl rfl
    | extract_lets
    | dsimp +zetaDelta only
    | dsimp only

theorem headerAct_keeps {s0 : State} {s : State} {h : BitVec 512} (hk : Keeps Q C U B s0) (hk1 : Keeps Q C U B s) :
    Keeps Q C U B (headerAct s0 s h) := by
  unfold headerAct
  repeat' first
    | with_reducible assumption
    | with_reducible apply headerFields_keeps
    | with_reducible apply pitchCommit_keeps
    | with_reducible apply fireTold_keeps
    | with_reducible apply armNote_keeps
    | with_reducible apply timeCompare_keeps
    | with_reducible apply headerSync_keeps
    | with_reducible apply bulkGrant_keeps
    | with_reducible refine Keeps.ite ?_ (fun _ => ?_)
    | fail_if_no_progress with_reducible refine Keeps.upd ?_ rfl rfl rfl rfl rfl rfl
    | split
    | extract_lets
    | dsimp +zetaDelta only
    | dsimp only

theorem headerPoisoned_keeps {s : State} (hU : UFree U) (hk : Keeps Q C U B s) :
    Keeps Q C U B (headerPoisoned s) := by
  unfold headerPoisoned
  repeat' first
    | with_reducible assumption
    | with_reducible apply tallyEvent_keeps
    | fail_if_no_progress with_reducible refine Keeps.upd ?_ rfl rfl rfl rfl rfl rfl
    | extract_lets
    | dsimp +zetaDelta only
    | dsimp only

theorem beaconPass_keeps {s : State} {h : BitVec 512} (hk : Keeps Q C U B s) :
    Keeps Q C U B (beaconPass s h) := by
  unfold beaconPass
  repeat' first
    | with_reducible assumption
    | with_reducible apply outPut_keeps
    | with_reducible apply mapsPass_keeps
    | fail_if_no_progress with_reducible refine Keeps.upd ?_ rfl rfl rfl rfl rfl rfl
    | extract_lets
    | dsimp +zetaDelta only
    | dsimp only

theorem beaconTake_keeps {s : State} {h : BitVec 512} (hk : Keeps Q C U B s) :
    Keeps Q C U B (beaconTake s h) := by
  unfold beaconTake
  repeat' first
    | with_reducible assumption
    | with_reducible apply beaconPass_keeps
    | with_reducible apply orphanEnter_keeps
    | fail_if_no_progress with_reducible refine Keeps.upd ?_ rfl rfl rfl rfl rfl rfl
    | extract_lets
    | dsimp +zetaDelta only
    | dsimp only

theorem headerMissed_keeps {s : State} {h : BitVec 512} (hU : UFree U) (hk : Keeps Q C U B s) :
    Keeps Q C U B (headerMissed s h) := by
  unfold headerMissed
  repeat' first
    | with_reducible assumption
    | with_reducible apply seenNote_keeps
    | with_reducible apply tallyEvent_keeps
    | with_reducible refine Keeps.ite ?_ (fun _ => ?_)
    | fail_if_no_progress with_reducible refine Keeps.upd ?_ rfl rfl rfl rfl rfl rfl
    | split
    | extract_lets
    | dsimp +zetaDelta only
    | dsimp only

theorem realign_keeps {s : State} {shift : Word} (hk : Keeps Q C U B s) : Keeps Q C U B (realign s shift) := by
  have h : Keeps Q C U B { s with t.p := 16, ring.realigns := s.ring.realigns + 1 } :=
    ⟨hk.queue, hk.config, hk.unit, fun _ => show (16 : Nat) < 512 by decide, hk.log, hk.events⟩
  exact logE_keeps (syncReset_keeps h)

theorem headerRelay_keeps {s : State} {beaconing : Bool} {h : BitVec 512} (hk : Keeps Q C U B s) :
    Keeps Q C U B (headerRelay s beaconing h) := by
  unfold headerRelay
  repeat' first
    | with_reducible assumption
    | with_reducible refine Keeps.ite ?_ (fun _ => ?_)
    | fail_if_no_progress with_reducible refine Keeps.upd ?_ rfl rfl rfl rfl rfl rfl
    | split
    | extract_lets
    | dsimp only

theorem lockTake_keeps {s : State} {h : BitVec 512} {shift : Word} (hk : Keeps Q C U B s) :
    Keeps Q C U B (lockTake s h shift) := by
  unfold lockTake
  repeat' first
    | with_reducible assumption
    | with_reducible apply headerRelay_keeps
    | with_reducible apply realign_keeps
    | with_reducible apply orphanEnter_keeps
    | with_reducible apply headerAct_keeps
    | with_reducible apply seenNote_keeps
    | with_reducible refine Keeps.ite ?_ (fun _ => ?_)
    | fail_if_no_progress with_reducible refine Keeps.upd ?_ rfl rfl rfl rfl rfl rfl
    | split
    | extract_lets
    | dsimp +zetaDelta only
    | dsimp only

theorem poisonedBeacon_keeps {s : State} {h : BitVec 512} (hk : Keeps Q C U B s) :
    Keeps Q C U B (poisonedBeacon s h) := by
  unfold poisonedBeacon
  repeat' first
    | with_reducible assumption
    | with_reducible apply beaconPass_keeps
    | with_reducible apply pitchPass_keeps
    | with_reducible apply outPut_keeps
    | with_reducible apply headerPass_keeps
    | with_reducible refine Keeps.ite ?_ (fun _ => ?_)
    | fail_if_no_progress with_reducible refine Keeps.upd ?_ rfl rfl rfl rfl rfl rfl
    | split
    | extract_lets
    | dsimp +zetaDelta only
    | dsimp only

theorem headerLocked_keeps {s : State} {h : BitVec 512} (hU : UFree U) (hk : Keeps Q C U B s) :
    Keeps Q C U B (headerLocked s h) := by
  unfold headerLocked
  repeat' first
    | with_reducible assumption
    | with_reducible apply beaconTake_keeps
    | with_reducible apply headerAct_keeps
    | with_reducible apply headerPass_keeps
    | with_reducible apply headerPoisoned_keeps
    | with_reducible apply poisonedBeacon_keeps
    | with_reducible refine Keeps.ite ?_ (fun _ => ?_)
    | fail_if_no_progress with_reducible refine Keeps.upd ?_ rfl rfl rfl rfl rfl rfl
    | split
    | extract_lets
    | dsimp +zetaDelta only
    | dsimp only

theorem headerSearch_keeps {s : State} {h : BitVec 512} {shift : Word} {cands : List Int} (hk : Keeps Q C U B s) :
    Keeps Q C U B (headerSearch s h shift cands) := by
  unfold headerSearch
  repeat' first
    | with_reducible assumption
    | with_reducible apply lockTake_keeps
    | with_reducible apply headerRelay_keeps
    | with_reducible refine Keeps.ite ?_ (fun _ => ?_)
    | fail_if_no_progress with_reducible refine Keeps.upd ?_ rfl rfl rfl rfl rfl rfl
    | intro _ _ _
    | intro _ _
    | split
    | extract_lets
    | dsimp +zetaDelta only
    | dsimp only

theorem headerArrive_keeps {s : State} {h : BitVec 512} {shift : Word} (hU : UFree U) (hk : Keeps Q C U B s) :
    Keeps Q C U B (headerArrive s h shift) := by
  unfold headerArrive
  repeat' first
    | with_reducible assumption
    | with_reducible apply headerLocked_keeps
    | with_reducible apply headerMissed_keeps
    | with_reducible apply headerSearch_keeps
    | with_reducible refine Keeps.ite ?_ (fun _ => ?_)
    | fail_if_no_progress with_reducible refine Keeps.upd ?_ rfl rfl rfl rfl rfl rfl
    | split
    | extract_lets
    | dsimp only

theorem execSuperframeHeader_keeps {h : BitVec 512} {shift : Word} {s : State} (hU : UFree U) (hk : Keeps Q C U B s) :
    Keeps Q C U B (outState s (execSuperframeHeader h shift s)) := by
  unfold execSuperframeHeader outState
  try dsimp -zeta only
  repeat' first
    | with_reducible assumption
    | with_reducible apply headerArrive_keeps
    | with_reducible refine Keeps.ite ?_ (fun _ => ?_)
    | fail_if_no_progress with_reducible refine Keeps.upd ?_ rfl rfl rfl rfl rfl rfl
    | split
    | extract_lets
    | dsimp only

theorem execBeaconHeader_keeps {h : BitVec 512} {s : State} (hk : Keeps Q C U B s) :
    Keeps Q C U B (outState s (execBeaconHeader h s)) := by
  unfold execBeaconHeader outState
  try dsimp -zeta only
  repeat' first
    | with_reducible assumption
    | with_reducible apply beaconTake_keeps
    | with_reducible refine Keeps.ite ?_ (fun _ => ?_)
    | fail_if_no_progress with_reducible refine Keeps.upd ?_ rfl rfl rfl rfl rfl rfl
    | split
    | extract_lets
    | dsimp only

theorem beaconSend_keeps {s : State} (hk : Keeps Q C U B s) :
    Keeps Q C U B (beaconSend s) := by
  unfold beaconSend
  repeat' first
    | with_reducible assumption
    | with_reducible refine Keeps.ite ?_ (fun _ => ?_)
    | fail_if_no_progress with_reducible refine Keeps.upd ?_ rfl rfl rfl rfl rfl rfl
    | split
    | extract_lets
    | dsimp +zetaDelta only
    | dsimp only

theorem execOrphanBeacon_keeps {s : State} (hk : Keeps Q C U B s) :
    Keeps Q C U B (outState s (execOrphanBeacon s)) := by
  unfold execOrphanBeacon outState
  try dsimp -zeta only
  repeat' first
    | with_reducible assumption
    | with_reducible apply beaconSend_keeps
    | with_reducible refine Keeps.ite ?_ (fun _ => ?_)
    | fail_if_no_progress with_reducible refine Keeps.upd ?_ rfl rfl rfl rfl rfl rfl
    | split
    | extract_lets
    | dsimp only

theorem execDataLossBeacon_keeps {s : State} (hk : Keeps Q C U B s) :
    Keeps Q C U B (outState s (execDataLossBeacon s)) := by
  unfold execDataLossBeacon outState
  try dsimp -zeta only
  repeat' first
    | with_reducible assumption
    | with_reducible apply beaconSend_keeps
    | with_reducible apply orphanEnter_keeps
    | with_reducible refine Keeps.ite ?_ (fun _ => ?_)
    | fail_if_no_progress with_reducible refine Keeps.upd ?_ rfl rfl rfl rfl rfl rfl
    | split
    | extract_lets
    | dsimp only

theorem bareState_keeps {s : State} (hC : CfgClosed C) (hU : UFree U) (hk : Keeps Q C U B s) : Keeps Q C U B (bareState s) :=
  ⟨hk.queue, hC.nil, hU _, fun _ => show (0 : Nat) < 512 by decide, fun _ => Nat.zero_le _, fun _ => Nat.zero_le _⟩

theorem bootSend_keeps {s : State} (hk : Keeps Q C U B s) :
    Keeps Q C U B (bootSend s) := by
  unfold bootSend
  repeat' first
    | with_reducible assumption
    | with_reducible apply regSet_keeps
    | with_reducible refine Keeps.ite ?_ (fun _ => ?_)
    | fail_if_no_progress with_reducible refine Keeps.upd ?_ rfl rfl rfl rfl rfl rfl
    | split
    | extract_lets
    | dsimp only

theorem bootCfg_keeps {s : State} (hC : CfgClosed C) (hk : Keeps Q C U B s) :
    Keeps Q C U B (bootCfg s) := by
  unfold bootCfg
  repeat' first
    | with_reducible assumption
    | with_reducible apply loadPut_keeps
    | with_reducible apply bootSend_keeps
    | with_reducible apply loadCal_keeps
    | fail_if_no_progress with_reducible refine Keeps.upd ?_ rfl rfl rfl rfl rfl rfl
    | split
    | extract_lets
    | dsimp +zetaDelta only
    | dsimp only

theorem bootCopies_keeps {s : State} (hk : Keeps Q C U B s) :
    Keeps Q C U B (bootCopies s) := by
  unfold bootCopies
  repeat' first
    | with_reducible assumption
    | with_reducible apply loadCopies_keeps
    | fail_if_no_progress with_reducible refine Keeps.upd ?_ rfl rfl rfl rfl rfl rfl
    | split
    | extract_lets
    | dsimp only

theorem bootRights_keeps {s : State} (hk : Keeps Q C U B s) :
    Keeps Q C U B (bootRights s) := by
  unfold bootRights
  repeat' first
    | with_reducible assumption
    | fail_if_no_progress with_reducible refine Keeps.upd ?_ rfl rfl rfl rfl rfl rfl
    | split
    | extract_lets
    | dsimp only

theorem bootNote_keeps {α : Type} {i : Img α} {region : Nat} {skipped : Nat} {crc : α → Word} {s : State} (hk : Keeps
    Q C U B s) :
    Keeps Q C U B (bootNote i region skipped crc s) := by
  unfold bootNote
  repeat' first
    | with_reducible assumption
    | with_reducible apply nvFail_keeps
    | with_reducible apply logE_keeps
    | fail_if_no_progress with_reducible refine Keeps.upd ?_ rfl rfl rfl rfl rfl rfl
    | split
    | extract_lets
    | dsimp only

theorem bootNotes_keeps {s : State} {cause : Nat} {skips : Nat} (hk : Keeps Q C U B s) :
    Keeps Q C U B (bootNotes s cause skips) := by
  unfold bootNotes
  repeat' first
    | with_reducible assumption
    | with_reducible apply bootNote_keeps
    | with_reducible apply nvFail_keeps
    | with_reducible refine Keeps.ite ?_ (fun _ => ?_)
    | fail_if_no_progress with_reducible refine Keeps.upd ?_ rfl rfl rfl rfl rfl rfl
    | split
    | extract_lets
    | dsimp +zetaDelta only
    | dsimp only

theorem testenRecover_keeps {s : State} (hk : Keeps Q C U B s) :
    Keeps Q C U B (testenRecover s) := by
  unfold testenRecover
  repeat' first
    | with_reducible assumption
    | with_reducible apply logE_keeps
    | with_reducible refine foldl_keeps ?_ (fun _ _ _ => ?_)
    | with_reducible refine foldl1_keeps ?_ (fun _ _ _ => ?_)
    | fail_if_no_progress with_reducible refine Keeps.upd ?_ rfl rfl rfl rfl rfl rfl
    | intro _ _ _
    | intro _ _
    | extract_lets
    | dsimp +zetaDelta only
    | dsimp only

theorem bootSeam_keeps {s : State} {e : BootEnv} (hk : Keeps Q C U B s) :
    Keeps Q C U B (bootSeam s e) := by
  unfold bootSeam
  repeat' first
    | with_reducible assumption
    | with_reducible refine Keeps.ite ?_ (fun _ => ?_)
    | fail_if_no_progress with_reducible refine Keeps.upd ?_ rfl rfl rfl rfl rfl rfl
    | split
    | extract_lets
    | dsimp +zetaDelta only
    | dsimp only

theorem bootLoad_keeps {s : State} {e : BootEnv} {cause : Nat} {clk : ClkSrc} (hC : CfgClosed C) (hU : UFree U) (hk :
    Keeps Q C U B s) :
    Keeps Q C U B (bootLoad s e cause clk) := by
  unfold bootLoad
  repeat' first
    | with_reducible assumption
    | with_reducible apply bootSeam_keeps
    | with_reducible apply bareState_keeps
    | with_reducible apply bootRights_keeps
    | with_reducible apply bootCopies_keeps
    | with_reducible apply bootCfg_keeps
    | with_reducible refine Keeps.ite ?_ (fun _ => ?_)
    | fail_if_no_progress with_reducible refine Keeps.updU hU ?_ rfl rfl rfl rfl rfl
    | fail_if_no_progress with_reducible refine Keeps.upd ?_ rfl rfl rfl rfl rfl rfl
    | split
    | extract_lets
    | dsimp +zetaDelta only
    | dsimp only

theorem logEmpty_entries (s : State) : (logEmpty s).entries = [] := by
  unfold logEmpty
  split <;> rfl

theorem bootLog_bound {s : State} {cause : Nat} (h : s.log.entries.length ≤ 4096) :
    (bootLog s cause).1.entries.length ≤ 4096 := by
  unfold bootLog
  split
  · simp [logEmpty_entries]
  · split
    · exact h
    · simp [logEmpty_entries]

theorem bootLogbook_keeps {s0 s : State} {e : BootEnv} {cause : Nat} (hl : B → s0.log.entries.length ≤ 4096)
    (hk : Keeps Q C U B s) : Keeps Q C U B (bootLogbook s0 s e cause) := by
  unfold bootLogbook
  extract_lets l prior era t1 s1 s2 s3 s4
  have h1 : Keeps Q C U B s1 :=
    ⟨hk.queue, hk.config, hk.unit, hk.phase, fun b => bootLog_bound (hl b), hk.events⟩
  clear_value s1
  have h2 : Keeps Q C U B s2 := bootNotes_keeps (logE_keeps h1)
  clear_value s2
  have h3 : Keeps Q C U B s3 := Keeps.ite (testenRecover_keeps h2) (fun _ => h2)
  clear_value s3
  have h4 : Keeps Q C U B s4 := Keeps.ite h3 (fun _ => logE_keeps h3)
  clear_value s4 era prior
  cases prior with
  | some x => exact logE_keeps h4
  | none => exact h4

theorem bootEnd_keeps {s : State} (hU : UFree U) (hk : Keeps Q C U B s) :
    Keeps Q C U B (bootEnd s) := by
  unfold bootEnd
  repeat' first
    | with_reducible assumption
    | with_reducible apply stateTo_keeps
    | with_reducible apply autoSeal_keeps
    | with_reducible refine Keeps.ite ?_ (fun _ => ?_)
    | fail_if_no_progress with_reducible refine Keeps.updU hU ?_ rfl rfl rfl rfl rfl
    | fail_if_no_progress with_reducible refine Keeps.upd ?_ rfl rfl rfl rfl rfl rfl
    | split
    | extract_lets
    | dsimp +zetaDelta only
    | dsimp only

theorem dormantState_keeps {s : State} (hC : CfgClosed C) (hU : UFree U) (hk : Keeps Q C U B s) :
    Keeps Q C U B (dormantState s) :=
  have h := bareState_keeps hC hU hk
  ⟨h.queue, h.config, hU _, h.phase, fun _ => by simp [dormantState, logEmpty_entries], h.events⟩

theorem bootRelay_keeps {s : State} {e : BootEnv} (hk : Keeps Q C U B s) :
    Keeps Q C U B (bootRelay s e) := by
  unfold bootRelay
  repeat' first
    | with_reducible assumption
    | with_reducible refine Keeps.ite ?_ (fun _ => ?_)
    | fail_if_no_progress with_reducible refine Keeps.upd ?_ rfl rfl rfl rfl rfl rfl
    | split
    | extract_lets
    | dsimp +zetaDelta only
    | dsimp only

theorem boot_keeps {s : State} {e : BootEnv} {cause : Nat} (hC : CfgClosed C) (hU : UFree U) (hk : Keeps Q C U B s) :
    Keeps Q C U B (boot s e cause) := by
  unfold boot
  split
  · exact dormantState_keeps hC hU hk
  · split
    · have h := bareState_keeps hC hU hk
      exact bootRelay_keeps ⟨h.queue, h.config, hU _, h.phase, hk.log, h.events⟩
    · exact bootEnd_keeps hU (bootRelay_keeps (bootLogbook_keeps hk.log (bootLoad_keeps hC hU hk)))

theorem execPowerOn_keeps {e : BootEnv} {s : State} (hC : CfgClosed C) (hU : UFree U) (hk : Keeps Q C U B s) :
    Keeps Q C U B (outState s (execPowerOn e s)) := by
  unfold execPowerOn outState
  try dsimp -zeta only
  repeat' first
    | with_reducible assumption
    | with_reducible apply boot_keeps
    | fail_if_no_progress with_reducible refine Keeps.upd ?_ rfl rfl rfl rfl rfl rfl
    | extract_lets
    | dsimp only

theorem execBrownOut_keeps {e : BootEnv} {s : State} (hC : CfgClosed C) (hU : UFree U) (hk : Keeps Q C U B s) :
    Keeps Q C U B (outState s (execBrownOut e s)) := by
  unfold execBrownOut outState
  try dsimp -zeta only
  repeat' first
    | with_reducible assumption
    | with_reducible apply boot_keeps
    | fail_if_no_progress with_reducible refine Keeps.upd ?_ rfl rfl rfl rfl rfl rfl
    | extract_lets
    | dsimp only

theorem execResetPin_keeps {e : BootEnv} {s : State} (hC : CfgClosed C) (hU : UFree U) (hk : Keeps Q C U B s) :
    Keeps Q C U B (outState s (execResetPin e s)) := by
  unfold execResetPin outState
  try dsimp -zeta only
  repeat' first
    | with_reducible assumption
    | with_reducible apply bootRelay_keeps
    | with_reducible apply boot_keeps
    | with_reducible refine Keeps.ite ?_ (fun _ => ?_)
    | fail_if_no_progress with_reducible refine Keeps.upd ?_ rfl rfl rfl rfl rfl rfl
    | split
    | extract_lets
    | dsimp only

theorem execResetStart_keeps {e : BootEnv} {s : State} (hC : CfgClosed C) (hU : UFree U) (hk : Keeps Q C U B s) :
    Keeps Q C U B (outState s (execResetStart e s)) := by
  unfold execResetStart outState
  try dsimp -zeta only
  repeat' first
    | with_reducible assumption
    | with_reducible apply boot_keeps
    | with_reducible refine Keeps.ite ?_ (fun _ => ?_)
    | fail_if_no_progress with_reducible refine Keeps.upd ?_ rfl rfl rfl rfl rfl rfl
    | split
    | extract_lets
    | dsimp only

theorem execClaimHoldoffEnd_keeps {s : State} (hk : Keeps Q C U B s) :
    Keeps Q C U B (outState s (execClaimHoldoffEnd s)) := by
  unfold execClaimHoldoffEnd outState
  try dsimp -zeta only
  repeat' first
    | with_reducible assumption
    | with_reducible refine Keeps.ite ?_ (fun _ => ?_)
    | fail_if_no_progress with_reducible refine Keeps.upd ?_ rfl rfl rfl rfl rfl rfl
    | split
    | extract_lets
    | dsimp only

theorem execDormantEntry_keeps {s : State} (hC : CfgClosed C) (hU : UFree U) (hk : Keeps Q C U B s) :
    Keeps Q C U B (outState s (execDormantEntry s)) := by
  unfold execDormantEntry outState
  try dsimp -zeta only
  repeat' first
    | with_reducible assumption
    | with_reducible apply dormantState_keeps
    | with_reducible refine Keeps.ite ?_ (fun _ => ?_)
    | fail_if_no_progress with_reducible refine Keeps.upd ?_ rfl rfl rfl rfl rfl rfl
    | split
    | extract_lets
    | dsimp only

theorem execWakeCki_keeps {e : BootEnv} {s : State} (hC : CfgClosed C) (hU : UFree U) (hk : Keeps Q C U B s) :
    Keeps Q C U B (outState s (execWakeCki e s)) := by
  unfold execWakeCki outState
  try dsimp -zeta only
  repeat' first
    | with_reducible assumption
    | with_reducible apply boot_keeps
    | with_reducible refine Keeps.ite ?_ (fun _ => ?_)
    | fail_if_no_progress with_reducible refine Keeps.upd ?_ rfl rfl rfl rfl rfl rfl
    | split
    | extract_lets
    | dsimp only

theorem execWakePin_keeps {e : BootEnv} {s : State} (hC : CfgClosed C) (hU : UFree U) (hk : Keeps Q C U B s) :
    Keeps Q C U B (outState s (execWakePin e s)) := by
  unfold execWakePin outState
  try dsimp -zeta only
  repeat' first
    | with_reducible assumption
    | with_reducible apply boot_keeps
    | with_reducible refine Keeps.ite ?_ (fun _ => ?_)
    | fail_if_no_progress with_reducible refine Keeps.upd ?_ rfl rfl rfl rfl rfl rfl
    | split
    | extract_lets
    | dsimp only

theorem execWakeInVigil_keeps {s : State} (hk : Keeps Q C U B s) :
    Keeps Q C U B (outState s (execWakeInVigil s)) := by
  unfold execWakeInVigil outState
  try dsimp -zeta only
  repeat' first
    | with_reducible assumption
    | with_reducible refine Keeps.ite ?_ (fun _ => ?_)
    | fail_if_no_progress with_reducible refine Keeps.upd ?_ rfl rfl rfl rfl rfl rfl
    | split
    | extract_lets
    | dsimp only

theorem clkSwitch_keeps {s : State} {next : ClkSrc} (hk : Keeps Q C U B s) :
    Keeps Q C U B (clkSwitch s next) := by
  unfold clkSwitch
  repeat' first
    | with_reducible assumption
    | with_reducible apply logE_keeps
    | fail_if_no_progress with_reducible refine Keeps.upd ?_ rfl rfl rfl rfl rfl rfl
    | extract_lets
    | dsimp +zetaDelta only
    | dsimp only

theorem execMissingEdge_keeps {s : State} (hk : Keeps Q C U B s) :
    Keeps Q C U B (outState s (execMissingEdge s)) := by
  unfold execMissingEdge outState
  try dsimp -zeta only
  repeat' first
    | with_reducible assumption
    | with_reducible apply orphanEnter_keeps
    | with_reducible apply clkSwitch_keeps
    | with_reducible refine Keeps.ite ?_ (fun _ => ?_)
    | fail_if_no_progress with_reducible refine Keeps.upd ?_ rfl rfl rfl rfl rfl rfl
    | split
    | extract_lets
    | dsimp only

theorem execClockReturn_keeps {s : State} (hk : Keeps Q C U B s) :
    Keeps Q C U B (outState s (execClockReturn s)) := by
  unfold execClockReturn outState
  try dsimp -zeta only
  repeat' first
    | with_reducible assumption
    | with_reducible apply clkSwitch_keeps
    | with_reducible apply orphanLeave_keeps
    | with_reducible refine Keeps.ite ?_ (fun _ => ?_)
    | fail_if_no_progress with_reducible refine Keeps.upd ?_ rfl rfl rfl rfl rfl rfl
    | split
    | extract_lets
    | dsimp +zetaDelta only
    | dsimp only

theorem windowBad_keeps {s : State} (hU : UFree U) (hk : Keeps Q C U B s) :
    Keeps Q C U B (windowBad s) := by
  unfold windowBad
  repeat' first
    | with_reducible assumption
    | with_reducible apply tallyEvent_keeps
    | fail_if_no_progress with_reducible refine Keeps.upd ?_ rfl rfl rfl rfl rfl rfl
    | extract_lets
    | dsimp only

theorem windowParse_keeps {n : Nat} {s : State} {w : List Byte} (hU : UFree U) (hk : Keeps Q C U B s) :
    Keeps Q C U B (windowParse n s w) := by
  induction n generalizing s w with
  | zero => exact hk
  | succ n ih =>
    cases w with
    | nil => exact hk
    | cons d w =>
      unfold windowParse
      split
      · exact ih hk
      · split
        · exact hk
        · split
          · exact windowBad_keeps hU hk
          · exact ih (Keeps.ite' hk packetTake_keeps)

theorem execCommandWindow_keeps {window : List Byte} {s : State} (hU : UFree U) (hk : Keeps Q C U B s) :
    Keeps Q C U B (outState s (execCommandWindow window s)) := by
  unfold execCommandWindow outState
  try dsimp -zeta only
  repeat' first
    | with_reducible assumption
    | with_reducible apply windowParse_keeps
    | with_reducible refine Keeps.ite ?_ (fun _ => ?_)
    | fail_if_no_progress with_reducible refine Keeps.upd ?_ rfl rfl rfl rfl rfl rfl
    | split
    | extract_lets
    | dsimp +zetaDelta only
    | dsimp only

theorem execEventLost_keeps {s : State} (hk : Keeps Q C U B s) :
    Keeps Q C U B (outState s (execEventLost s)) := by
  unfold execEventLost outState
  try dsimp -zeta only
  repeat' first
    | with_reducible assumption
    | with_reducible apply queueEvent_keeps
    | with_reducible refine Keeps.ite ?_ (fun _ => ?_)
    | fail_if_no_progress with_reducible refine Keeps.upd ?_ rfl rfl rfl rfl rfl rfl
    | split
    | extract_lets
    | dsimp only

theorem pickOut_mem {α : Type} {p : α → Bool} {l r : List α} {a : α} (h : pickOut p l = some (a, r)) : r.length ≤ l.length := by
  induction l generalizing r a with
  | nil => cases h
  | cons b l ih =>
    simp only [pickOut] at h
    split at h
    · cases h; simp
    · cases e : pickOut p l with
      | none => rw [e] at h; cases h
      | some x =>
        rw [e] at h
        cases h
        have := ih (r := x.2) (a := x.1) (by rw [e])
        simp only [List.length_cons]; omega

theorem payReply_keeps {s : State} {p : Payload} (hk : Keeps Q C U B s) (h : payReply s = some p) : Keeps Q C U B p.after := by
  unfold payReply at h
  split at h
  · cases h
  · cases h; exact Keeps.upd hk rfl rfl rfl rfl rfl rfl

theorem payFrag_keeps {s : State} {p : Payload} (hk : Keeps Q C U B s) (h : payFrag s = some p) : Keeps Q C U B p.after := by
  unfold payFrag at h
  split at h
  · cases h
  · cases h; exact Keeps.upd hk rfl rfl rfl rfl rfl rfl

theorem payEvent_keeps {s : State} {p : Payload} (hk : Keeps Q C U B s) (h : payEvent s = some p) : Keeps Q C U B p.after := by
  unfold payEvent at h
  split at h
  · cases h
  · next e rest he =>
    cases h
    exact ⟨hk.queue, hk.config, hk.unit, hk.phase, hk.log, fun b => by
      have := hk.events b
      rw [he, List.length_cons] at this
      show rest.length ≤ 16
      omega⟩

theorem streamTake_keeps {s : State} (n : Nat) (hk : Keeps Q C U B s) : Keeps Q C U B (streamTake n s).2 := by
  induction n generalizing s with
  | zero => exact hk
  | succ n ih =>
    unfold streamTake
    split
    · exact hk
    · split
      · exact hk
      · split
        · exact Keeps.upd (streamOverflow_keeps hk) rfl rfl rfl rfl rfl rfl
        · exact ih (Keeps.upd hk rfl rfl rfl rfl rfl rfl)

theorem payStream_keeps {s : State} {p : Payload} (hk : Keeps Q C U B s) (h : payStream s = some p) :
    Keeps Q C U B p.after := by
  unfold payStream at h
  split at h
  · cases h
  · cases h; exact streamTake_keeps 3 hk

theorem payChoose_keeps {s : State} (hk : Keeps Q C U B s) : Keeps Q C U B (payChoose s).after := by
  unfold payChoose
  cases h1 : payReply s with
  | some p => exact payReply_keeps hk h1
  | none =>
    cases h2 : payFrag s with
    | some p => exact payFrag_keeps hk h2
    | none =>
      cases h3 : payEvent s with
      | some p => exact payEvent_keeps hk h3
      | none =>
        cases h4 : payStream s with
        | some p => exact payStream_keeps hk h4
        | none => exact hk

theorem slotContent_keeps {s : State} (hk : Keeps Q C U B s) : Keeps Q C U B (slotContent s).2 := by
  have own : Keeps Q C U B (slotOwn s).2 := payChoose_keeps hk
  unfold slotContent
  dsimp only
  split
  · split
    · exact own
    · exact Keeps.upd hk rfl rfl rfl rfl rfl rfl
  · exact own

theorem slotClash_keeps {s : State} {a : List Byte} (hU : UFree U) (hk : Keeps Q C U B s) :
    Keeps Q C U B (slotClash s a) := by
  have h := slotContent_keeps hk
  unfold slotClash
  exact tallyEvent_keeps hU (Keeps.upd h rfl rfl rfl rfl rfl rfl)

theorem slotWrite_keeps {s : State} {a : List Byte} (hU : UFree U) (hk : Keeps Q C U B s) : Keeps Q C U B (slotWrite s a) := by
  have h := slotContent_keeps hk
  unfold slotWrite
  dsimp only
  split
  · exact slotClash_keeps hU hk
  · exact Keeps.upd h rfl rfl rfl rfl rfl rfl

theorem execSlotWrite_keeps {region : List Byte} {s : State} (hU : UFree U) (hk : Keeps Q C U B s) :
    Keeps Q C U B (outState s (execSlotWrite region s)) := by
  unfold execSlotWrite outState
  dsimp only
  split
  · exact hk
  · split
    · exact hk
    · split
      · exact hk.same rfl rfl rfl rfl rfl rfl
      · exact (slotWrite_keeps hU hk).same rfl rfl rfl rfl rfl rfl

theorem slotHand_keeps {s : State} (hk : Keeps Q C U B s) : Keeps Q C U B (slotHand s) := by
  unfold slotHand
  extract_lets src busy src2 send
  have hs : ∀ (e : Event) (rest : List Event), rest.length ≤ s.cmd.events.length → Keeps Q C U B (send e rest) := by
    intro e rest hr
    exact twinSend_keeps ⟨hk.queue, hk.config, hk.unit, hk.phase, hk.log, fun b => Nat.le_trans hr (hk.events b)⟩
  clear_value send
  split
  · exact hk
  · split
    · next e => split <;> exact hs _ _ (by rw [e]; simp)
    · next e =>
      split
      · exact hs _ _ (by simp)
      · exact hk
    · exact hk

theorem helloTake_keeps {s : State} {m : Hello} (hk : Keeps Q C U B s) :
    Keeps Q C U B (helloTake s m) := by
  unfold helloTake
  repeat' first
    | with_reducible assumption
    | with_reducible apply joinEnd_keeps
    | with_reducible apply joinEndSend_keeps
    | with_reducible refine Keeps.ite ?_ (fun _ => ?_)
    | fail_if_no_progress with_reducible refine Keeps.upd ?_ rfl rfl rfl rfl rfl rfl
    | split
    | extract_lets
    | dsimp +zetaDelta only
    | dsimp only

theorem execTwinHello_keeps {m : Hello} {s : State} (hk : Keeps Q C U B s) :
    Keeps Q C U B (outState s (execTwinHello m s)) := by
  unfold execTwinHello outState
  try dsimp -zeta only
  repeat' first
    | with_reducible assumption
    | with_reducible apply helloTake_keeps
    | fail_if_no_progress with_reducible refine Keeps.upd ?_ rfl rfl rfl rfl rfl rfl
    | extract_lets
    | dsimp only

theorem confOne_keeps {s : State} {id : Nat} {w : Word} (hC : CfgClosed C) (hk : Keeps Q C U B s) :
    Keeps Q C U B (confOne s id w) := by
  unfold confOne
  repeat' first
    | with_reducible assumption
    | with_reducible apply ruleOff_keeps
    | with_reducible apply modRule_keeps
    | with_reducible refine Keeps.ite ?_ (fun _ => ?_)
    | fail_if_no_progress with_reducible refine Keeps.upd ?_ rfl rfl rfl rfl rfl rfl
    | intro _ _ _
    | intro _ _
    | split
    | extract_lets
    | dsimp +zetaDelta only
    | dsimp only

theorem confTake_keeps {s : State} {ps : List (Nat × Word)} (hC : CfgClosed C) (hk : Keeps Q C U B s) :
    Keeps Q C U B (confTake s ps) := by
  unfold confTake
  repeat' first
    | with_reducible assumption
    | with_reducible apply writeParam_keeps
    | with_reducible apply confOne_keeps
    | with_reducible refine foldl_keeps ?_ (fun _ _ _ => ?_)
    | with_reducible refine foldl1_keeps ?_ (fun _ _ _ => ?_)
    | with_reducible refine Keeps.ite ?_ (fun _ => ?_)
    | fail_if_no_progress with_reducible refine Keeps.upd ?_ rfl rfl rfl rfl rfl rfl
    | intro _ _ _
    | intro _ _
    | split
    | extract_lets
    | dsimp only

theorem execTwinConf_keeps {pairs : List (Pid × Word)} {s : State} (hC : CfgClosed C) (hk : Keeps Q C U B s) :
    Keeps Q C U B (outState s (execTwinConf pairs s)) := by
  unfold execTwinConf outState
  try dsimp -zeta only
  repeat' first
    | with_reducible assumption
    | with_reducible apply confTake_keeps
    | fail_if_no_progress with_reducible refine Keeps.upd ?_ rfl rfl rfl rfl rfl rfl
    | intro _ _ _
    | intro _ _
    | extract_lets
    | dsimp only

theorem copySend_keeps {s : State} (hk : Keeps Q C U B s) :
    Keeps Q C U B (copySend s) := by
  unfold copySend
  repeat' first
    | with_reducible assumption
    | with_reducible apply twinSend_keeps
    | with_reducible refine foldl_keeps ?_ (fun _ _ _ => ?_)
    | with_reducible refine foldl1_keeps ?_ (fun _ _ _ => ?_)
    | fail_if_no_progress with_reducible refine Keeps.upd ?_ rfl rfl rfl rfl rfl rfl
    | intro _ _ _
    | intro _ _
    | extract_lets
    | dsimp +zetaDelta only
    | dsimp only

theorem joinLead_keeps {s : State} {j : Join} (hk : Keeps Q C U B s) :
    Keeps Q C U B (joinLead s j) := by
  unfold joinLead
  repeat' first
    | with_reducible assumption
    | with_reducible apply copySend_keeps
    | with_reducible apply twinSend_keeps
    | with_reducible refine Keeps.ite ?_ (fun _ => ?_)
    | fail_if_no_progress with_reducible refine Keeps.upd ?_ rfl rfl rfl rfl rfl rfl
    | split
    | extract_lets
    | dsimp +zetaDelta only
    | dsimp only

theorem joinTick_keeps {s : State} (hk : Keeps Q C U B s) :
    Keeps Q C U B (joinTick s) := by
  unfold joinTick
  repeat' first
    | with_reducible assumption
    | with_reducible apply joinLead_keeps
    | with_reducible refine Keeps.ite ?_ (fun _ => ?_)
    | fail_if_no_progress with_reducible refine Keeps.upd ?_ rfl rfl rfl rfl rfl rfl
    | split
    | extract_lets
    | dsimp only

theorem joinTake_keeps {s : State} {commitSfn : BitVec 16} {mode : Nat} (hk : Keeps Q C U B s) :
    Keeps Q C U B (joinTake s commitSfn mode) := by
  unfold joinTake
  repeat' first
    | with_reducible assumption
    | with_reducible apply twinSend_keeps
    | with_reducible refine Keeps.ite ?_ (fun _ => ?_)
    | fail_if_no_progress with_reducible refine Keeps.upd ?_ rfl rfl rfl rfl rfl rfl
    | split
    | extract_lets
    | dsimp +zetaDelta only
    | dsimp only

theorem execTwinJoin_keeps {commitSfn : BitVec 16} {mode : Byte} {s : State} (hk : Keeps Q C U B s) :
    Keeps Q C U B (outState s (execTwinJoin commitSfn mode s)) := by
  unfold execTwinJoin outState
  try dsimp -zeta only
  repeat' first
    | with_reducible assumption
    | with_reducible apply joinTake_keeps
    | fail_if_no_progress with_reducible refine Keeps.upd ?_ rfl rfl rfl rfl rfl rfl
    | extract_lets
    | dsimp only

theorem joinRules_keeps {s : State} {mode : Nat} (hk : Keeps Q C U B s) :
    Keeps Q C U B (joinRules s mode) := by
  unfold joinRules
  repeat' first
    | with_reducible assumption
    | with_reducible apply forEach_keeps
    | with_reducible apply modRule_keeps
    | with_reducible apply alarmTo_keeps
    | with_reducible refine forEach_keeps ?_ (fun _ _ _ => ?_)
    | with_reducible refine Keeps.ite ?_ (fun _ => ?_)
    | fail_if_no_progress with_reducible refine Keeps.upd ?_ rfl rfl rfl rfl rfl rfl
    | intro _ _ _
    | intro _ _
    | split
    | extract_lets
    | dsimp +zetaDelta only
    | dsimp only

theorem joinSpanTail_keeps {s : State} (hk : Keeps Q C U B s) :
    Keeps Q C U B (joinSpanTail s) := by
  unfold joinSpanTail
  repeat' first
    | with_reducible assumption
    | with_reducible apply aoutOff_keeps
    | with_reducible apply tripDisarm_keeps
    | fail_if_no_progress with_reducible refine Keeps.upd ?_ rfl rfl rfl rfl rfl rfl
    | extract_lets
    | dsimp +zetaDelta only
    | dsimp only

theorem joinCommit_keeps {s : State} {j : Join} (hk : Keeps Q C U B s) :
    Keeps Q C U B (joinCommit s j) := by
  unfold joinCommit
  repeat' first
    | with_reducible assumption
    | with_reducible apply joinRules_keeps
    | with_reducible apply joinSpanTail_keeps
    | with_reducible apply logE_keeps
    | with_reducible apply taskEnd_keeps
    | with_reducible apply twinSend_keeps
    | with_reducible refine Keeps.ite ?_ (fun _ => ?_)
    | fail_if_no_progress with_reducible refine Keeps.upd ?_ rfl rfl rfl rfl rfl rfl
    | intro _ _ _
    | intro _ _
    | split
    | extract_lets
    | dsimp +zetaDelta only
    | dsimp only

theorem execPairCommit_keeps {s : State} (hk : Keeps Q C U B s) :
    Keeps Q C U B (outState s (execPairCommit s)) := by
  unfold execPairCommit outState
  try dsimp -zeta only
  repeat' first
    | with_reducible assumption
    | with_reducible apply joinEndSend_keeps
    | with_reducible apply joinCommit_keeps
    | with_reducible refine Keeps.ite ?_ (fun _ => ?_)
    | fail_if_no_progress with_reducible refine Keeps.upd ?_ rfl rfl rfl rfl rfl rfl
    | intro _ _ _
    | intro _ _
    | split
    | extract_lets
    | dsimp only

theorem execJoinTimeout_keeps {s : State} (hk : Keeps Q C U B s) :
    Keeps Q C U B (outState s (execJoinTimeout s)) := by
  unfold execJoinTimeout outState
  try dsimp -zeta only
  repeat' first
    | with_reducible assumption
    | with_reducible apply joinEnd_keeps
    | with_reducible refine Keeps.ite ?_ (fun _ => ?_)
    | fail_if_no_progress with_reducible refine Keeps.upd ?_ rfl rfl rfl rfl rfl rfl
    | split
    | extract_lets
    | dsimp only

theorem farRuleNote_keeps {s : State} {r : Nat} {was : AlarmSt} {next : AlarmSt} {up : Nat} {value : Word} (hk : Keeps
    Q C U B s) :
    Keeps Q C U B (farRuleNote s r was next up value) := by
  unfold farRuleNote
  repeat' first
    | with_reducible assumption
    | with_reducible apply logTag_keeps
    | with_reducible apply alarmEvent_keeps
    | fail_if_no_progress with_reducible refine Keeps.upd ?_ rfl rfl rfl rfl rfl rfl
    | extract_lets
    | dsimp +zetaDelta only
    | dsimp only

theorem farRuleTo_keeps {s : State} {r : Nat} {next : AlarmSt} (hk : Keeps Q C U B s) :
    Keeps Q C U B (farRuleTo s r next) := by
  unfold farRuleTo
  repeat' first
    | with_reducible assumption
    | with_reducible apply modRule_keeps
    | with_reducible apply farRuleNote_keeps
    | with_reducible refine Keeps.ite ?_ (fun _ => ?_)
    | fail_if_no_progress with_reducible refine Keeps.upd ?_ rfl rfl rfl rfl rfl rfl
    | intro _ _ _
    | intro _ _
    | split
    | extract_lets
    | dsimp +zetaDelta only
    | dsimp only

theorem farRuleVote_keeps {old : BitVec 16} {s : State} {r : Nat} (hk : Keeps Q C U B s) :
    Keeps Q C U B (farRuleVote old s r) := by
  unfold farRuleVote
  repeat' first
    | with_reducible assumption
    | with_reducible apply farRuleTo_keeps
    | with_reducible refine Keeps.ite ?_ (fun _ => ?_)
    | fail_if_no_progress with_reducible refine Keeps.upd ?_ rfl rfl rfl rfl rfl rfl
    | split
    | extract_lets
    | dsimp only

theorem ruleTake_keeps {s : State} {r : Nat} {st : Nat} {tick : Word} {value : Word} (hk : Keeps Q C U B s) :
    Keeps Q C U B (ruleTake s r st tick value) := by
  unfold ruleTake
  repeat' first
    | with_reducible assumption
    | with_reducible apply farRuleNote_keeps
    | with_reducible refine Keeps.ite ?_ (fun _ => ?_)
    | fail_if_no_progress with_reducible refine Keeps.upd ?_ rfl rfl rfl rfl rfl rfl
    | intro _ _ _
    | intro _ _
    | split
    | extract_lets
    | dsimp +zetaDelta only
    | dsimp only

theorem execTwinRule_keeps {rule : Byte} {state : Byte} {tick : Word} {value : Word} {s : State} (hk : Keeps Q C U B
    s) :
    Keeps Q C U B (outState s (execTwinRule rule state tick value s)) := by
  unfold execTwinRule outState
  try dsimp -zeta only
  repeat' first
    | with_reducible assumption
    | with_reducible apply ruleTake_keeps
    | with_reducible refine Keeps.ite ?_ (fun _ => ?_)
    | fail_if_no_progress with_reducible refine Keeps.upd ?_ rfl rfl rfl rfl rfl rfl
    | split
    | extract_lets
    | dsimp only

theorem ruleLate_keeps {s : State} (hk : Keeps Q C U B s) :
    Keeps Q C U B (ruleLate s) := by
  unfold ruleLate
  repeat' first
    | with_reducible assumption
    | with_reducible apply farRuleNote_keeps
    | with_reducible refine foldl_keeps ?_ (fun _ _ _ => ?_)
    | with_reducible refine foldl1_keeps ?_ (fun _ _ _ => ?_)
    | fail_if_no_progress with_reducible refine Keeps.upd ?_ rfl rfl rfl rfl rfl rfl
    | intro _ _ _
    | intro _ _
    | extract_lets
    | dsimp +zetaDelta only
    | dsimp only

theorem trigTake_keeps {s : State} {tick : BitVec 48} {frac : Byte} {armId : BitVec 16} (hk : Keeps Q C U B s) :
    Keeps Q C U B (trigTake s tick frac armId) := by
  unfold trigTake
  repeat' first
    | with_reducible assumption
    | with_reducible apply firePend_keeps
    | with_reducible apply capFire_keeps
    | with_reducible refine Keeps.ite ?_ (fun _ => ?_)
    | fail_if_no_progress with_reducible refine Keeps.upd ?_ rfl rfl rfl rfl rfl rfl
    | intro _ _ _
    | intro _ _
    | split
    | extract_lets
    | dsimp +zetaDelta only
    | dsimp only

theorem execTwinTrig_keeps {tick : BitVec 48} {frac : Byte} {_source : Byte} {_type : Byte} {armId : BitVec 16} {s :
    State} (hk : Keeps Q C U B s) :
    Keeps Q C U B (outState s (execTwinTrig tick frac _source _type armId s)) := by
  unfold execTwinTrig outState
  try dsimp -zeta only
  repeat' first
    | with_reducible assumption
    | with_reducible apply trigTake_keeps
    | with_reducible refine Keeps.ite ?_ (fun _ => ?_)
    | fail_if_no_progress with_reducible refine Keeps.upd ?_ rfl rfl rfl rfl rfl rfl
    | split
    | extract_lets
    | dsimp only

theorem execTwinSlot_keeps {flags : Byte} {state : Byte} {alarmsum : Byte} {payload : BitVec 144} {s : State} (hk :
    Keeps Q C U B s) :
    Keeps Q C U B (outState s (execTwinSlot flags state alarmsum payload s)) := by
  unfold execTwinSlot outState
  try dsimp -zeta only
  repeat' first
    | with_reducible assumption
    | with_reducible refine Keeps.ite ?_ (fun _ => ?_)
    | fail_if_no_progress with_reducible refine Keeps.upd ?_ rfl rfl rfl rfl rfl rfl
    | split
    | extract_lets
    | dsimp only

theorem splitTake_keeps {s : State} {cause : Nat} (hk : Keeps Q C U B s) :
    Keeps Q C U B (splitTake s cause) := by
  unfold splitTake
  repeat' first
    | with_reducible assumption
    | with_reducible apply joinEnd_keeps
    | with_reducible apply twinSplit_keeps
    | with_reducible refine Keeps.ite ?_ (fun _ => ?_)
    | fail_if_no_progress with_reducible refine Keeps.upd ?_ rfl rfl rfl rfl rfl rfl
    | split
    | extract_lets
    | dsimp only

theorem execTwinSplitMsg_keeps {cause : Byte} {s : State} (hk : Keeps Q C U B s) :
    Keeps Q C U B (outState s (execTwinSplitMsg cause s)) := by
  unfold execTwinSplitMsg outState
  try dsimp -zeta only
  repeat' first
    | with_reducible assumption
    | with_reducible apply splitTake_keeps
    | fail_if_no_progress with_reducible refine Keeps.upd ?_ rfl rfl rfl rfl rfl rfl
    | extract_lets
    | dsimp only

theorem msgTake_keeps {s : State} {type : Nat} {b : List Byte} (hC : CfgClosed C) (hU : UFree U) (hk : Keeps Q C U B
    s) :
    Keeps Q C U B (msgTake s type b) := by
  unfold msgTake
  repeat' first
    | with_reducible assumption
    | with_reducible apply helloTake_keeps
    | with_reducible apply execTwinFwd_keeps
    | with_reducible apply execTwinVerdict_keeps
    | with_reducible apply execTwinCommit_keeps
    | with_reducible apply execTwinAck_keeps
    | with_reducible apply execTwinAnswer_keeps
    | with_reducible apply execTwinReq_keeps
    | with_reducible apply execTwinGrant_keeps
    | with_reducible apply execTwinRule_keeps
    | with_reducible apply execTwinTrig_keeps
    | with_reducible apply execTwinSlot_keeps
    | with_reducible apply confTake_keeps
    | with_reducible apply joinTake_keeps
    | with_reducible apply splitTake_keeps
    | fail_if_no_progress with_reducible refine Keeps.upd ?_ rfl rfl rfl rfl rfl rfl
    | split
    | extract_lets
    | dsimp +zetaDelta only
    | dsimp only

theorem msgWhole_keeps {s : State} {m : List Byte} (hC : CfgClosed C) (hU : UFree U) (hk : Keeps Q C U B s) :
    Keeps Q C U B (msgWhole s m) := by
  unfold msgWhole
  repeat' first
    | with_reducible assumption
    | with_reducible apply msgTake_keeps
    | with_reducible refine Keeps.ite ?_ (fun _ => ?_)
    | fail_if_no_progress with_reducible refine Keeps.upd ?_ rfl rfl rfl rfl rfl rfl
    | split
    | extract_lets
    | dsimp +zetaDelta only
    | dsimp only

theorem byteTake_keeps {s : State} {b : Byte} (hC : CfgClosed C) (hU : UFree U) (hk : Keeps Q C U B s) :
    Keeps Q C U B (byteTake s b) := by
  unfold byteTake
  repeat' first
    | with_reducible assumption
    | with_reducible apply msgWhole_keeps
    | with_reducible refine Keeps.ite ?_ (fun _ => ?_)
    | fail_if_no_progress with_reducible refine Keeps.upd ?_ rfl rfl rfl rfl rfl rfl
    | split
    | extract_lets
    | dsimp +zetaDelta only
    | dsimp only

theorem byteSend_keeps {s : State} {num : Option Nat} (hk : Keeps Q C U B s) :
    Keeps Q C U B (byteSend s num).1 := by
  unfold byteSend
  repeat' first
    | with_reducible assumption
    | with_reducible refine Keeps.ite ?_ (fun _ => ?_)
    | fail_if_no_progress with_reducible refine Keeps.upd ?_ rfl rfl rfl rfl rfl rfl
    | split
    | extract_lets
    | dsimp only

theorem votesTake_keeps {s : State} {num : Nat} {w : BitVec 16} (hk : Keeps Q C U B s) :
    Keeps Q C U B (votesTake s num w) := by
  unfold votesTake
  repeat' first
    | with_reducible assumption
    | with_reducible apply forEach_keeps
    | with_reducible apply farRuleVote_keeps
    | with_reducible refine forEach_keeps ?_ (fun _ _ _ => ?_)
    | with_reducible refine Keeps.ite ?_ (fun _ => ?_)
    | fail_if_no_progress with_reducible refine Keeps.upd ?_ rfl rfl rfl rfl rfl rfl
    | intro _ _ _
    | intro _ _
    | split
    | extract_lets
    | dsimp +zetaDelta only
    | dsimp only

theorem wordTake_keeps {s : State} {num : Option Nat} {w : BitVec 16} (hC : CfgClosed C) (hU : UFree U) (hk : Keeps Q
    C U B s) :
    Keeps Q C U B (wordTake s num w) := by
  unfold wordTake
  repeat' first
    | with_reducible assumption
    | with_reducible apply tallyEvent_keeps
    | with_reducible apply votesTake_keeps
    | with_reducible apply byteTake_keeps
    | with_reducible refine Keeps.ite ?_ (fun _ => ?_)
    | fail_if_no_progress with_reducible refine Keeps.upd ?_ rfl rfl rfl rfl rfl rfl
    | split
    | extract_lets
    | dsimp +zetaDelta only
    | dsimp only

theorem votesForm_keeps {s : State} (hk : Keeps Q C U B s) :
    Keeps Q C U B (votesForm s) := by
  unfold votesForm
  repeat' first
    | with_reducible assumption
    | with_reducible apply forEach_keeps
    | with_reducible apply pairVote_keeps
    | with_reducible refine forEach_keeps ?_ (fun _ _ _ => ?_)
    | with_reducible refine Keeps.ite ?_ (fun _ => ?_)
    | fail_if_no_progress with_reducible refine Keeps.upd ?_ rfl rfl rfl rfl rfl rfl
    | intro _ _ _
    | intro _ _
    | split
    | extract_lets
    | dsimp only

theorem exchBegin_keeps {s : State} {num : Option Nat} (hk : Keeps Q C U B s) :
    Keeps Q C U B (exchBegin s num) := by
  unfold exchBegin
  repeat' first
    | with_reducible assumption
    | with_reducible refine Keeps.ite ?_ (fun _ => ?_)
    | fail_if_no_progress with_reducible refine Keeps.upd ?_ rfl rfl rfl rfl rfl rfl
    | split
    | extract_lets
    | dsimp only

theorem exchEnd_keeps {s : State} {num : Option Nat} (hk : Keeps Q C U B s) :
    Keeps Q C U B (exchEnd s num) := by
  unfold exchEnd
  repeat' first
    | with_reducible assumption
    | with_reducible refine Keeps.ite ?_ (fun _ => ?_)
    | fail_if_no_progress with_reducible refine Keeps.upd ?_ rfl rfl rfl rfl rfl rfl
    | split
    | extract_lets
    | dsimp +zetaDelta only
    | dsimp only

theorem bulkFeed_keeps {s : State} (hk : Keeps Q C U B s) :
    Keeps Q C U B (bulkFeed s) := by
  unfold bulkFeed
  repeat' first
    | with_reducible assumption
    | with_reducible apply twinSend_keeps
    | with_reducible refine Keeps.ite ?_ (fun _ => ?_)
    | fail_if_no_progress with_reducible refine Keeps.upd ?_ rfl rfl rfl rfl rfl rfl
    | split
    | extract_lets
    | dsimp +zetaDelta only
    | dsimp only

theorem exchange_keeps {s : State} {word : BitVec 16} (hC : CfgClosed C) (hU : UFree U) (hk : Keeps Q C U B s) :
    Keeps Q C U B (exchange s word) := by
  unfold exchange
  repeat' first
    | with_reducible assumption
    | with_reducible apply bulkFeed_keeps
    | with_reducible apply exchBegin_keeps
    | with_reducible apply byteSend_keeps
    | with_reducible apply votesForm_keeps
    | with_reducible apply wordTake_keeps
    | with_reducible apply exchEnd_keeps
    | with_reducible refine Keeps.ite ?_ (fun _ => ?_)
    | fail_if_no_progress with_reducible refine Keeps.upd ?_ rfl rfl rfl rfl rfl rfl
    | split
    | extract_lets
    | dsimp +zetaDelta only
    | dsimp only

theorem execPoleExchange_keeps {word : BitVec 16} {s : State} (hC : CfgClosed C) (hU : UFree U) (hk : Keeps Q C U B s)
    :
    Keeps Q C U B (outState s (execPoleExchange word s)) := by
  unfold execPoleExchange outState
  try dsimp -zeta only
  repeat' first
    | with_reducible assumption
    | with_reducible apply exchange_keeps
    | with_reducible refine Keeps.ite ?_ (fun _ => ?_)
    | fail_if_no_progress with_reducible refine Keeps.upd ?_ rfl rfl rfl rfl rfl rfl
    | split
    | extract_lets
    | dsimp only

theorem tickAdvance_keeps {s : State} (hU : UFree U) (hk : Keeps Q C U B s) : Keeps Q C U B (tickAdvance s) := by
  have hp : B → (if s.t.p = 511 then 0 else s.t.p + 1) < 512 := by
    intro b
    have := hk.phase b
    split <;> omega
  have h0 : Keeps Q C U B (fieldSends s) := fieldSends_keeps hk
  unfold tickAdvance
  extract_lets s0 p src t src2 fd src3 src4 s1
  have h1 : Keeps Q C U B s1 := ⟨h0.queue, h0.config, h0.unit, hp, h0.log, h0.events⟩
  clear_value s1
  refine fieldApply_keeps hU ?_
  split
  · exact fixApply_keeps hU h1
  · exact wrapCheck_keeps h1

theorem mapsTake_keeps {s : State} (hk : Keeps Q C U B s) :
    Keeps Q C U B (mapsTake s) := by
  unfold mapsTake
  repeat' first
    | with_reducible assumption
    | fail_if_no_progress with_reducible refine Keeps.upd ?_ rfl rfl rfl rfl rfl rfl
    | extract_lets
    | dsimp only

theorem holdStep_keeps {s : State} (hk : Keeps Q C U B s) :
    Keeps Q C U B (holdStep s) := by
  unfold holdStep
  repeat' first
    | with_reducible assumption
    | with_reducible refine Keeps.ite ?_ (fun _ => ?_)
    | fail_if_no_progress with_reducible refine Keeps.upd ?_ rfl rfl rfl rfl rfl rfl
    | split
    | extract_lets
    | dsimp +zetaDelta only
    | dsimp only

theorem dueRun_keeps {s : State} (hC : CfgClosed C) (hU : UFree U) (hk : Keeps Q C U B s) :
    Keeps Q C U B (dueRun s) := by
  unfold dueRun
  repeat' first
    | with_reducible assumption
    | with_reducible apply splitRun_keeps
    | with_reducible apply enterRun_keeps
    | with_reducible refine Keeps.ite ?_ (fun _ => ?_)
    | fail_if_no_progress with_reducible refine Keeps.upd ?_ rfl rfl rfl rfl rfl rfl
    | split
    | extract_lets
    | dsimp +zetaDelta only
    | dsimp only

theorem superframeBegin_keeps {s : State} (hC : CfgClosed C) (hU : UFree U) (hk : Keeps Q C U B s) :
    Keeps Q C U B (superframeBegin s) := by
  unfold superframeBegin
  repeat' first
    | with_reducible assumption
    | with_reducible apply decisionRun_keeps
    | with_reducible apply packetsRun_keeps
    | with_reducible apply armsRun_keeps
    | with_reducible apply dueRun_keeps
    | with_reducible apply holdStep_keeps
    | with_reducible apply slotHand_keeps
    | with_reducible apply joinTick_keeps
    | with_reducible apply zSettle_keeps
    | with_reducible apply mapsTake_keeps
    | with_reducible apply ruleLate_keeps
    | with_reducible apply nvStage_keeps
    | fail_if_no_progress with_reducible refine Keeps.upd ?_ rfl rfl rfl rfl rfl rfl
    | extract_lets
    | dsimp +zetaDelta only
    | dsimp only

theorem tickRun_keeps {s : State} (hC : CfgClosed C) (hU : UFree U) (hk : Keeps Q C U B s) :
    Keeps Q C U B (tickRun s) := by
  unfold tickRun
  repeat' first
    | with_reducible assumption
    | with_reducible apply tickAdvance_keeps
    | with_reducible apply superframeBegin_keeps
    | with_reducible apply tailAsk_keeps
    | with_reducible refine Keeps.ite ?_ (fun _ => ?_)
    | fail_if_no_progress with_reducible refine Keeps.upd ?_ rfl rfl rfl rfl rfl rfl
    | split
    | extract_lets
    | dsimp +zetaDelta only
    | dsimp only

theorem execTick_keeps {s : State} (hC : CfgClosed C) (hU : UFree U) (hk : Keeps Q C U B s) :
    Keeps Q C U B (outState s (execTick s)) := by
  unfold execTick outState
  try dsimp -zeta only
  repeat' first
    | with_reducible assumption
    | with_reducible apply tickRun_keeps
    | with_reducible refine Keeps.ite ?_ (fun _ => ?_)
    | fail_if_no_progress with_reducible refine Keeps.upd ?_ rfl rfl rfl rfl rfl rfl
    | split
    | extract_lets
    | dsimp only

theorem execCounterWrap_keeps {s : State} (hC : CfgClosed C) (hU : UFree U) (hk : Keeps Q C U B s) :
    Keeps Q C U B (outState s (execCounterWrap s)) := by
  unfold execCounterWrap outState
  try dsimp -zeta only
  repeat' first
    | with_reducible assumption
    | with_reducible apply tickRun_keeps
    | with_reducible refine Keeps.ite ?_ (fun _ => ?_)
    | fail_if_no_progress with_reducible refine Keeps.upd ?_ rfl rfl rfl rfl rfl rfl
    | split
    | extract_lets
    | dsimp only

theorem execSyncPin_keeps {s : State} (hk : Keeps Q C U B s) :
    Keeps Q C U B (outState s (execSyncPin s)) := by
  unfold execSyncPin outState
  try dsimp -zeta only
  repeat' first
    | with_reducible assumption
    | with_reducible refine Keeps.ite ?_ (fun _ => ?_)
    | fail_if_no_progress with_reducible refine Keeps.upd ?_ rfl rfl rfl rfl rfl rfl
    | split
    | extract_lets
    | dsimp +zetaDelta only
    | dsimp only

theorem execSyncReset_keeps {s : State} (hk : Keeps Q C U B s) :
    Keeps Q C U B (outState s (execSyncReset s)) := by
  unfold execSyncReset outState
  try dsimp -zeta only
  repeat' first
    | with_reducible assumption
    | with_reducible apply syncRun_keeps
    | with_reducible refine Keeps.ite ?_ (fun _ => ?_)
    | fail_if_no_progress with_reducible refine Keeps.upd ?_ rfl rfl rfl rfl rfl rfl
    | split
    | extract_lets
    | dsimp only

theorem scsBoundary_keeps {s : State} {c : Nat} (hk : Keeps Q C U B s) :
    Keeps Q C U B (scsBoundary s c) := by
  unfold scsBoundary
  repeat' first
    | with_reducible assumption
    | with_reducible apply modChain_keeps
    | with_reducible refine Keeps.ite ?_ (fun _ => ?_)
    | fail_if_no_progress with_reducible refine Keeps.upd ?_ rfl rfl rfl rfl rfl rfl
    | intro _ _ _
    | intro _ _
    | split
    | extract_lets
    | dsimp +zetaDelta only
    | dsimp only

theorem execScsBoundary_keeps {c : Fin 14} {s : State} (hk : Keeps Q C U B s) :
    Keeps Q C U B (outState s (execScsBoundary c s)) := by
  unfold execScsBoundary outState
  try dsimp -zeta only
  repeat' first
    | with_reducible assumption
    | with_reducible apply scsBoundary_keeps
    | fail_if_no_progress with_reducible refine Keeps.upd ?_ rfl rfl rfl rfl rfl rfl
    | extract_lets
    | dsimp only

theorem burstRange_keeps {s : State} {n : Nat} (hk : Keeps Q C U B s) :
    Keeps Q C U B (burstRange s n) := by
  unfold burstRange
  repeat' first
    | with_reducible assumption
    | with_reducible apply modFront_keeps
    | with_reducible apply rangeAsk_keeps
    | with_reducible refine Keeps.ite ?_ (fun _ => ?_)
    | fail_if_no_progress with_reducible refine Keeps.upd ?_ rfl rfl rfl rfl rfl rfl
    | intro _ _ _
    | intro _ _
    | split
    | extract_lets
    | dsimp +zetaDelta only
    | dsimp only

theorem burstStart_keeps {s : State} (hk : Keeps Q C U B s) :
    Keeps Q C U B (burstStart s) := by
  unfold burstStart
  repeat' first
    | with_reducible assumption
    | with_reducible apply forEach_keeps
    | with_reducible apply regSet_keeps
    | with_reducible apply burstRange_keeps
    | with_reducible apply modChain_keeps
    | with_reducible refine forEach_keeps ?_ (fun _ _ _ => ?_)
    | fail_if_no_progress with_reducible refine Keeps.upd ?_ rfl rfl rfl rfl rfl rfl
    | intro _ _ _
    | intro _ _
    | extract_lets
    | dsimp +zetaDelta only
    | dsimp only

theorem execSentinelBurst_keeps {s : State} (hk : Keeps Q C U B s) :
    Keeps Q C U B (outState s (execSentinelBurst s)) := by
  unfold execSentinelBurst outState
  try dsimp -zeta only
  repeat' first
    | with_reducible assumption
    | with_reducible apply burstStart_keeps
    | with_reducible refine Keeps.ite ?_ (fun _ => ?_)
    | fail_if_no_progress with_reducible refine Keeps.upd ?_ rfl rfl rfl rfl rfl rfl
    | split
    | extract_lets
    | dsimp only

theorem execSentinelBurstEnd_keeps {s : State} (hk : Keeps Q C U B s) :
    Keeps Q C U B (outState s (execSentinelBurstEnd s)) := by
  unfold execSentinelBurstEnd outState
  try dsimp -zeta only
  repeat' first
    | with_reducible assumption
    | with_reducible refine Keeps.ite ?_ (fun _ => ?_)
    | fail_if_no_progress with_reducible refine Keeps.upd ?_ rfl rfl rfl rfl rfl rfl
    | split
    | extract_lets
    | dsimp only

theorem execTripwireAutoRearm_keeps {s : State} (hk : Keeps Q C U B s) :
    Keeps Q C U B (outState s (execTripwireAutoRearm s)) := by
  unfold execTripwireAutoRearm outState
  try dsimp -zeta only
  repeat' first
    | with_reducible assumption
    | with_reducible apply tripRearm_keeps
    | with_reducible refine Keeps.ite ?_ (fun _ => ?_)
    | fail_if_no_progress with_reducible refine Keeps.upd ?_ rfl rfl rfl rfl rfl rfl
    | split
    | extract_lets
    | dsimp only

theorem execNextSegment_keeps {s : State} (hk : Keeps Q C U B s) :
    Keeps Q C U B (outState s (execNextSegment s)) := by
  unfold execNextSegment outState
  try dsimp -zeta only
  repeat' first
    | with_reducible assumption
    | with_reducible apply capOpen_keeps
    | with_reducible refine Keeps.ite ?_ (fun _ => ?_)
    | fail_if_no_progress with_reducible refine Keeps.upd ?_ rfl rfl rfl rfl rfl rfl
    | split
    | extract_lets
    | dsimp only

theorem fifoWrite_keeps {s : State} (hk : Keeps Q C U B s) :
    Keeps Q C U B (fifoWrite s) := by
  unfold fifoWrite
  repeat' first
    | with_reducible assumption
    | with_reducible apply capFollow_keeps
    | with_reducible apply capStore_keeps
    | with_reducible apply capClose_keeps
    | with_reducible refine Keeps.ite ?_ (fun _ => ?_)
    | fail_if_no_progress with_reducible refine Keeps.upd ?_ rfl rfl rfl rfl rfl rfl
    | split
    | extract_lets
    | dsimp +zetaDelta only
    | dsimp only

theorem execFifoWrite_keeps {s : State} (hk : Keeps Q C U B s) :
    Keeps Q C U B (outState s (execFifoWrite s)) := by
  unfold execFifoWrite outState
  try dsimp -zeta only
  repeat' first
    | with_reducible assumption
    | with_reducible apply fifoWrite_keeps
    | fail_if_no_progress with_reducible refine Keeps.upd ?_ rfl rfl rfl rfl rfl rfl
    | extract_lets
    | dsimp only

theorem baseStep_keeps {s : State} {r : Rec} (hk : Keeps Q C U B s) :
    Keeps Q C U B (baseStep s r) := by
  unfold baseStep
  repeat' first
    | with_reducible assumption
    | with_reducible refine Keeps.ite ?_ (fun _ => ?_)
    | fail_if_no_progress with_reducible refine Keeps.upd ?_ rfl rfl rfl rfl rfl rfl
    | split
    | extract_lets
    | dsimp +zetaDelta only
    | dsimp only

theorem discardFrom_keeps {s : State} {n : Nat} {l : List Rec} (hk : Keeps Q C U B s) : Keeps Q C U B (discardFrom s n l).1 := by
  induction l generalizing s n with
  | nil => exact hk
  | cons r l ih =>
    unfold discardFrom
    split
    · exact ih (baseStep_keeps hk)
    · exact hk

theorem preDiscard_keeps {s : State} (hk : Keeps Q C U B s) :
    Keeps Q C U B (preDiscard s) := by
  unfold preDiscard
  repeat' first
    | with_reducible assumption
    | with_reducible apply discardFrom_keeps
    | with_reducible refine Keeps.ite ?_ (fun _ => ?_)
    | fail_if_no_progress with_reducible refine Keeps.upd ?_ rfl rfl rfl rfl rfl rfl
    | split
    | extract_lets
    | dsimp +zetaDelta only
    | dsimp only

theorem execPreRingDiscard_keeps {s : State} (hk : Keeps Q C U B s) :
    Keeps Q C U B (outState s (execPreRingDiscard s)) := by
  unfold execPreRingDiscard outState
  try dsimp -zeta only
  repeat' first
    | with_reducible assumption
    | with_reducible apply preDiscard_keeps
    | fail_if_no_progress with_reducible refine Keeps.upd ?_ rfl rfl rfl rfl rfl rfl
    | extract_lets
    | dsimp only

theorem execOverflowEvent_keeps {s : State} (hk : Keeps Q C U B s) :
    Keeps Q C U B (outState s (execOverflowEvent s)) := by
  unfold execOverflowEvent outState
  try dsimp -zeta only
  repeat' first
    | with_reducible assumption
    | with_reducible apply capClose_keeps
    | with_reducible apply capOutside_keeps
    | with_reducible refine Keeps.ite ?_ (fun _ => ?_)
    | fail_if_no_progress with_reducible refine Keeps.upd ?_ rfl rfl rfl rfl rfl rfl
    | split
    | extract_lets
    | dsimp only

theorem execClrNLevel_keeps {high : Bool} {s : State} (hk : Keeps Q C U B s) :
    Keeps Q C U B (outState s (execClrNLevel high s)) := by
  unfold execClrNLevel outState
  try dsimp -zeta only
  repeat' first
    | with_reducible assumption
    | with_reducible apply logE_keeps
    | with_reducible refine Keeps.ite ?_ (fun _ => ?_)
    | fail_if_no_progress with_reducible refine Keeps.upd ?_ rfl rfl rfl rfl rfl rfl
    | split
    | extract_lets
    | dsimp +zetaDelta only
    | dsimp only

theorem pointSend_keeps {s : State} {t : Nat} (hk : Keeps Q C U B s) :
    Keeps Q C U B (pointSend s t) := by
  unfold pointSend
  repeat' first
    | with_reducible assumption
    | with_reducible apply biasTo_keeps
    | with_reducible refine Keeps.ite ?_ (fun _ => ?_)
    | fail_if_no_progress with_reducible refine Keeps.upd ?_ rfl rfl rfl rfl rfl rfl
    | split
    | extract_lets
    | dsimp only

theorem wavePoint_keeps {s : State} {t : Nat} (hk : Keeps Q C U B s) :
    Keeps Q C U B (wavePoint s t) := by
  unfold wavePoint
  repeat' first
    | with_reducible assumption
    | with_reducible apply pointSend_keeps
    | with_reducible apply modPlay_keeps
    | with_reducible apply playEnd_keeps
    | with_reducible refine Keeps.ite ?_ (fun _ => ?_)
    | fail_if_no_progress with_reducible refine Keeps.upd ?_ rfl rfl rfl rfl rfl rfl
    | intro _ _ _
    | intro _ _
    | split
    | extract_lets
    | dsimp +zetaDelta only
    | dsimp only

theorem execWavePoint_keeps {t : Fin 5} {s : State} (hk : Keeps Q C U B s) :
    Keeps Q C U B (outState s (execWavePoint t s)) := by
  unfold execWavePoint outState
  try dsimp -zeta only
  repeat' first
    | with_reducible assumption
    | with_reducible apply wavePoint_keeps
    | with_reducible refine Keeps.ite ?_ (fun _ => ?_)
    | fail_if_no_progress with_reducible refine Keeps.upd ?_ rfl rfl rfl rfl rfl rfl
    | split
    | extract_lets
    | dsimp only

end Sys2Proof.Machine
end

