-- ==== Sys2Proof/Laws/Log.lean ====
section
/-! SUPPORT. What one Logbook entry does to the Logbook (07 R328–R339). -/

namespace Sys2Proof.Machine

/-- Under WRAP and with room, an entry is appended with these contents, and nothing of the Logbook but its end and the next
number changes. -/
theorem logE_wraps {s : State} (hp : stopPolicy s = false) (hl : s.log.entries.length < 4096) (o : BitVec 16) (ev sub : Nat)
    (old new : Word) :
    ∃ e : Entry, (logE s o ev sub old new).log.entries = s.log.entries ++ [e] ∧
      (logE s o ev sub old new).log.anchor = s.log.anchor ∧ (logE s o ev sub old new).log.freeTo = s.log.freeTo ∧
      (logE s o ev sub old new).log.unlogged = s.log.unlogged ∧
      e.seq = s.log.nextSeq ∧ e.era = (tagOf s s.t.up).2 ∧ e.tick = (tagOf s s.t.up).1 ∧ e.origin = o ∧
      e.event = BitVec.ofNat 16 ev ∧ e.subject = BitVec.ofNat 16 sub ∧ e.old = old ∧ e.new = new ∧
      e.check = chainCheck s.log.newestCheck e := by
  have h : ¬ 4096 ≤ s.log.entries.length := by omega
  simp only [logE, logAt, logTag, hp, Bool.false_eq_true, if_false, LogSt.writeWrap, LogSt.append, h, ne_eq,
    not_true_eq_false, false_and]
  exact ⟨_, rfl, trivial, trivial, trivial, rfl, rfl, rfl, rfl, rfl, rfl, rfl, rfl, rfl⟩

/-- An entry written changes the Logbook alone. -/
theorem logE_shape (s : State) (o : BitVec 16) (ev sub : Nat) (old new : Word) :
    logE s o ev sub old new = { s with log := (logE s o ev sub old new).log } := rfl

/-- Under WRAP, a full Logbook gives up its oldest entry for the new one; no LOG_WRAP follows between multiples of 4 096. -/
theorem logE_full {s : State} (hp : stopPolicy s = false) {x : Entry} {rest : List Entry} (hl : s.log.entries = x :: rest)
    (hn : rest.length = 4095) (hm : (s.log.overwritten + 1) % 4096 ≠ 0) (o : BitVec 16) (ev sub : Nat) (old new : Word) :
    ∃ e : Entry, (logE s o ev sub old new).log.entries = rest ++ [e] ∧
      (logE s o ev sub old new).log.anchor = x.check ∧ (logE s o ev sub old new).log.overwritten = s.log.overwritten + 1 ∧
      e.event = BitVec.ofNat 16 ev := by
  have h : 4096 ≤ s.log.entries.length := by rw [hl, List.length_cons]; omega
  simp only [logE, logAt, logTag, hp, Bool.false_eq_true, if_false, LogSt.writeWrap, LogSt.append, h, if_true, hm, and_false]
  exact ⟨_, by rw [hl]; rfl, by rw [hl]; rfl, trivial, rfl⟩

/-- Under STOP, an entry that finds no place is counted, and the entries stay. -/
theorem logE_stops {s : State} (hp : stopPolicy s = true) (hl : 4096 ≤ s.log.entries.length) (o : BitVec 16) (ev sub : Nat)
    (old new : Word) : logE s o ev sub old new = { s with log.unlogged := s.log.unlogged + 1 } := by
  simp only [logE, logAt, logTag, hp, if_true, LogSt.writeStop, show ¬ s.log.entries.length < 4095 by omega,
    show ¬ s.log.entries.length = 4095 by omega, if_false]

end Sys2Proof.Machine
end

