-- ==== Sys2Proof/Laws/Packet.lean ====
section
/-! SUPPORT. What the shared path of a packet does (06 R284, R291): one lemma for a query, one for a changing packet. -/

namespace Sys2Proof.Machine

/-- What an opcode is given at a unit in no pair. -/
def ctxOf (s : State) (h : Hdr) : Ctx :=
  { src := h.src, seq := h.seq, bcast := h.bcast, origin := orgPkt h.src, role := roleOf s h.src.toNat, verdict := none }

theorem isLead_single {s : State} (h : s.twin.mode = 0) : isLead s = false := by simp [isLead, h]
theorem isTail_single {s : State} (h : s.twin.mode = 0) : isTail s = false := by simp [isTail, h]
theorem isSpanLead_single {s : State} (h : s.twin.mode = 0) : isSpanLead s = false := by simp [isSpanLead, h]

theorem partsOf_single {s : State} (h : s.twin.mode = 0) (opc : Nat) (pl : List Byte) : partsOf s opc pl = (some pl, none) := by
  simp [partsOf, isLead_single h]

theorem byteOf_toNat {n : Nat} (h : n < 256) : (byteOf n).toNat = n := by
  simp [byteOf, BitVec.toNat_ofNat, Nat.mod_eq_of_lt h]

theorem rejectNote_done (s : State) (p : Packet) (st : Nat) (data : List Byte) (h : st < 3) :
    rejectNote s p (answer st data) = s := by
  have e : (answer st data).status.toNat = st := byteOf_toNat (by omega)
  have r : isReject (answer st data) = false := by
    simp only [isReject, e, stRefused, stSeqDup, Bool.or_eq_false_iff]
    refine ⟨by simp; omega, by simp; omega⟩
  simp only [rejectNote, r, e, stDenied]
  split
  · rfl
  · rw [if_neg (by omega)]

/-- The answer of a query that passes. -/
theorem packetFinish_query (s : State) (h : Hdr) (opc : Nat) (pl data : List Byte) (ho : opc < 256) (hb : h.bcast = false)
    (hq : isQuery opc pl = true) : packetFinish s (rowPkt h opc pl) (answer stDone data) none = queried s h data := by
  simp only [packetFinish, rejectNote_done s _ stDone data (by decide)]
  simp [rowPkt, byteOf_toNat ho, hq, hb, replyAdd, queried, replyOf]

/-- The answer of a changing packet that passes. -/
theorem packetFinish_change (s : State) (h : Hdr) (opc : Nat) (pl : List Byte) (st : Nat) (data : List Byte) (ho : opc < 256)
    (hs : st < 3) (hq : isQuery opc pl = false) :
    packetFinish s (rowPkt h opc pl) (answer st data) none = answered s h st data := by
  simp only [packetFinish, rejectNote_done s _ st data hs]
  simp only [rowPkt, byteOf_toNat ho, hq, replyAdd, dupSet, answered, replyOf]
  cases h.bcast <;> rfl

theorem fate_query {s : State} {h : Hdr} (c : CanQuery s h) (opc : Nat) (pl : List Byte) (ho : opc < 256)
    (hq : isQuery opc pl = true) (hn : packetNames s (roleOf s h.src.toNat) opc pl = none) :
    packetFate s (rowPkt h opc pl) = .run := by
  have hs : ¬(h.src.toNat = 0 ∨ 125 < h.src.toNat) := by have := c.lo; have := c.hi; omega
  simp [packetFate, rowPkt, byteOf_toNat ho, c.ucast, c.room, hs, hq, hn]

theorem fate_change {s : State} {h : Hdr} {r : Nat} (c : CanChange s h r) (opc : Nat) (pl : List Byte) (ho : opc < 256)
    (hq : isQuery opc pl = false) (hn : packetNames s (roleOf s h.src.toNat) opc pl = none) :
    packetFate s (rowPkt h opc pl) = .run := by
  have hs : ¬(h.src.toNat = 0 ∨ 125 < h.src.toNat) := by have := c.lo; have := c.hi; omega
  have hd : dupOf s (rowPkt h opc pl) = none := by
    show (match aget s.cmd.dups h.src.toNat with
      | some d => if d.seq = h.seq then some d else none
      | none => none) = none
    cases e : aget s.cmd.dups h.src.toNat with
    | none => rfl
    | some d => simp [c.fresh d e]
  have hr : (!h.bcast && repliesFull s) = false := by
    rcases c.room with hb | hb <;> simp [hb]
  have ho' := byteOf_toNat ho
  simp only [packetFate, isTail_single c.single, Bool.and_false, hd]
  simp [rowPkt, ho', hr, hs, hq, hn]

/-- A changing packet that fails one of steps 3 to 7 answers its status. -/
theorem rowRun_fail {s : State} {h : Hdr} {r : Nat} (c : CanChange s h r) (opc : Nat) (pl : List Byte) (ho : opc < 256)
    (hq : isQuery opc pl = false) {a : Answer} (hn : packetNames s (roleOf s h.src.toNat) opc pl = some a) :
    rowRun s h opc pl = packetFinish s (rowPkt h opc pl) a none := by
  have hs : ¬(h.src.toNat = 0 ∨ 125 < h.src.toNat) := by have := c.lo; have := c.hi; omega
  have hd : dupOf s (rowPkt h opc pl) = none := by
    show (match aget s.cmd.dups h.src.toNat with
      | some d => if d.seq = h.seq then some d else none
      | none => none) = none
    cases e : aget s.cmd.dups h.src.toNat with
    | none => rfl
    | some d => simp [c.fresh d e]
  have hr : (!h.bcast && repliesFull s) = false := by
    rcases c.room with hb | hb <;> simp [hb]
  have ho' := byteOf_toNat ho
  have hf : packetFate s (rowPkt h opc pl) = .fail a := by
    simp only [packetFate, isTail_single c.single, Bool.and_false, hd]
    simp [rowPkt, ho', hr, hs, hq, hn]
  simp [rowRun, c.runs, hf, execTaken, packetEnd]

/-- No STATE request: the armed latch stays. -/
theorem stateAsked_other (s : State) (h : Hdr) {opc : Nat} (pl : List Byte) (ho : opc < 256) (hx : opc ≠ 0x05 ∨ pl = []) :
    stateAsked s (rowPkt h opc pl) = s := by
  have e : ¬((rowPkt h opc pl).opc = 0x05 ∧ (rowPkt h opc pl).payload ≠ []) := by
    rintro ⟨a, b⟩
    rcases hx with hx | hx
    · have := congrArg BitVec.toNat a
      simp [rowPkt, byteOf_toNat ho] at this
      exact hx this
    · exact b hx
  simp only [stateAsked]
  split
  · next k => exact absurd (by simpa using k) e
  · rfl

/-- A query is executed at once. -/
theorem rowRun_query {s : State} {h : Hdr} (c : CanQuery s h) (opc : Nat) (pl : List Byte) (ho : opc < 256)
    (hq : isQuery opc pl = true) (hn : packetNames s (roleOf s h.src.toNat) opc pl = none) (hd : isDecided opc pl = false)
    (ht : stateTakes s.u.st opc = true) :
    rowRun s h opc pl = resultEnd (opRun s (ctxOf s h) opc pl) (rowPkt h opc pl) := by
  have hf := fate_query c opc pl ho hq hn
  have ho' := byteOf_toNat ho
  have ha : stateAsked s (rowPkt h opc pl) = s := stateAsked_other s h pl ho (by
    by_cases e : opc = 0x05
    · subst e
      exact .inr (by cases pl <;> simp_all [isQuery])
    · exact .inl e)
  simp only [rowRun, c.runs, hf, partsOf_single c.single, isLead_single c.single, hd, execTaken, packetEnd, ownRun, stepsRun, stopHeld, ha]
  simp [rowPkt, ho', hq, ht, ctxOf]

/-- A changing packet that asks the scheduler for nothing is executed at once. -/
theorem rowRun_change {s : State} {h : Hdr} {r : Nat} (c : CanChange s h r) (opc : Nat) (pl : List Byte) (ho : opc < 256)
    (hq : isQuery opc pl = false) (hn : packetNames s (roleOf s h.src.toNat) opc pl = none) (hd : isDecided opc pl = false)
    (ht : opc = 0x03 ∨ stateTakes s.u.st opc = true) (h5 : opc ≠ 0x05) :
    rowRun s h opc pl = resultEnd (opRun s (ctxOf s h) opc pl) (rowPkt h opc pl) := by
  have hf := fate_change c opc pl ho hq hn
  have ho' := byteOf_toNat ho
  have ha : stateAsked s (rowPkt h opc pl) = s := stateAsked_other s h pl ho (.inl h5)
  have hg : ¬(¬opc = 0x03 ∧ stateTakes s.u.st opc = false) := by
    rcases ht with e | e <;> simp [e]
  simp only [rowRun, c.runs, hf, partsOf_single c.single, isLead_single c.single, hd, execTaken, packetEnd, ownRun,
    stepsRun, stopHeld, c.wraps, ha]
  simp only [rowPkt, ho', ctxOf]
  simp [hg]

/-- A STATE request for a state other than DORMANT is executed at once, the armed latch cleared first (03 R156). -/
theorem rowRun_state {s : State} {h : Hdr} {r : Nat} (c : CanChange s h r) (b : Byte) (hb : b ≠ 0)
    (hn : packetNames s (roleOf s h.src.toNat) 0x05 [b] = none) (ht : stateTakes s.u.st 0x05 = true) :
    rowRun s h 0x05 [b] = resultEnd (opRun (stateTaken s) (ctxOf s h) 0x05 [b]) (rowPkt h 0x05 [b]) := by
  have hq : isQuery 0x05 [b] = false := by simp [isQuery]
  have hd : isDecided 0x05 [b] = false := by
    have : ∀ x : Byte, x ≠ 0 → isDecided 0x05 [x] = false := by decide
    exact this b hb
  have hf := fate_change c 0x05 [b] (by decide) hq hn
  have ho' : (byteOf 0x05).toNat = 0x05 := by decide
  have ha : stateAsked s (rowPkt h 0x05 [b]) = stateTaken s := by
    simp only [stateAsked, rowPkt]
    rfl
  have ht' : stateTakes (stateTaken s).u.st 0x05 = true := ht
  have hw : stopPolicy (stateTaken s) = false := c.wraps
  simp only [rowRun, c.runs, hf, partsOf_single c.single, isLead_single c.single, hd, execTaken, packetEnd, ownRun,
    stepsRun, stopHeld, ha, hw]
  simp only [rowPkt, ho', ctxOf]
  simp [ht']

/-- A changing packet carried out at once whose opcode answers. -/
theorem rowRun_answered {s : State} {h : Hdr} {r : Nat} (c : CanChange s h r) (opc : Nat) (pl : List Byte) (ho : opc < 256)
    (hq : isQuery opc pl = false) (hn : packetNames s (roleOf s h.src.toNat) opc pl = none) (hd : isDecided opc pl = false)
    (ht : opc = 0x03 ∨ stateTakes s.u.st opc = true) (h5 : opc ≠ 0x05) {s1 : State} {st : Nat} {data : List Byte} (hs : st < 3)
    (hr : opRun s (ctxOf s h) opc pl = (s1, some (answer st data))) :
    rowRun s h opc pl = answered s1 h st data := by
  rw [rowRun_change c opc pl ho hq hn hd ht h5, hr]
  exact packetFinish_change s1 h opc pl st data ho hs hq

/-- A query whose opcode answers. -/
theorem rowRun_queried {s : State} {h : Hdr} (c : CanQuery s h) (opc : Nat) (pl : List Byte) (ho : opc < 256)
    (hq : isQuery opc pl = true) (hn : packetNames s (roleOf s h.src.toNat) opc pl = none) (hd : isDecided opc pl = false)
    (ht : stateTakes s.u.st opc = true) {s1 : State} {data : List Byte}
    (hr : opRun s (ctxOf s h) opc pl = (s1, some (answer stDone data))) :
    rowRun s h opc pl = queried s1 h data := by
  rw [rowRun_query c opc pl ho hq hn hd ht, hr]
  exact packetFinish_query s1 h opc pl data ho c.ucast hq

/-- Steps 3 to 7 pass for an opcode of the right length that names known parameters, from a client of the right role. -/
theorem packetNames_pass {s : State} {role opc : Nat} {pl : List Byte} (hm : s.twin.mode = 0) (hl : lenOk opc pl = some true)
    (hx : opc ≠ 0x03) (hr : readNames s opc pl = true) (hmin : minRole opc pl ≤ role) :
    packetNames s role opc pl = none := by
  simp [packetNames, hl, isTail_single hm, hx, hr, Nat.not_lt.mpr hmin]

/-- A query with no parameter in it: its length is right and it answers. -/
theorem row_queried {s : State} {h : Hdr} (c : CanQuery s h) (opc : Nat) (pl : List Byte) (ho : opc < 256)
    (hq : isQuery opc pl = true) (hl : lenOk opc pl = some true) (hx : opc ≠ 0x03) (hr : readNames s opc pl = true)
    (hmin : minRole opc pl = observer) (hd : isDecided opc pl = false) (ht : stateTakes s.u.st opc = true)
    {s1 : State} {data : List Byte} (hrun : opRun s (ctxOf s h) opc pl = (s1, some (answer stDone data))) :
    rowRun s h opc pl = queried s1 h data :=
  rowRun_queried c opc pl ho hq (packetNames_pass c.single hl hx hr (by rw [hmin]; exact Nat.zero_le _)) hd ht hrun

/-- A changing packet with no parameter in it: its length is right and it answers. -/
theorem row_answered {s : State} {h : Hdr} {r : Nat} (c : CanChange s h r) (opc : Nat) (pl : List Byte) (ho : opc < 256)
    (hq : isQuery opc pl = false) (hl : lenOk opc pl = some true) (hx : opc ≠ 0x03) (hx2 : opc ≠ 0x02) (hx4 : opc ≠ 0x04)
    (hmin : minRole opc pl = r) (hd : isDecided opc pl = false) (ht : stateTakes s.u.st opc = true) (h5 : opc ≠ 0x05)
    {s1 : State} {st : Nat} {data : List Byte} (hs : st < 3)
    (hrun : opRun s (ctxOf s h) opc pl = (s1, some (answer st data))) :
    rowRun s h opc pl = answered s1 h st data :=
  rowRun_answered c opc pl ho hq
    (packetNames_pass c.single hl hx (by simp [readNames, hx2, hx4]) (by rw [hmin]; exact c.role)) hd (.inr ht) h5 hs hrun

/-- Checks that all hold. -/
theorem guarded_pass (s : State) (gs : List (Bool × Nat)) (run : OpResult) (h : gs.all (fun g => g.1) = true) :
    guarded s gs run = run := by
  have e : gs.find? (fun g => !g.1) = none := by
    rw [List.find?_eq_none]
    intro g hg
    have := List.all_eq_true.mp h g hg
    simp [this]
  simp [guarded, e]

end Sys2Proof.Machine
end

