-- ==== Sys2Proof/Machine/Pins.lean ====
section
/-! DEFINITION. What stands on the pins, read off the state (02 R90–R94, R97, R108, R111, R115, 10 R463, 11 R486). RESET_N low, with a
boot after it, is one command, so no state stands within it (log 86). -/

namespace Sys2Proof.Machine

/-! ### The core die's ports -/

/-- What the OUT port carries. -/
inductive OutPort where
  /-- CKO repeats CKI and DO repeats DI with nothing changed (R92). -/
  | relay
  /-- The ring's stream, with this unit's own changes. -/
  | forwarding
  /-- CKO carries the clock in force, on a lost CKI the backup clock, and DO the orphan beacon (R93, 04 R222). -/
  | beacon
  /-- CKOP and DOP low, CKON and DON high (R94, R115). -/
  | staticIdle
  deriving DecidableEq, Repr

/-- The OUT port. -/
def outPort (s : State) : OutPort :=
  if s.u.st = .dormant then .staticIdle
  else if s.u.romFail then (if s.ring.clk = .cki then .relay else .staticIdle)
  else
    match s.ring.clk with
    | .crystal => .staticIdle
    | .backup => .beacon
    | .cki => if s.ring.beaconing then .beacon else .forwarding

/-- The level of CKOP and DOP while the OUT port stands still. -/
def outIdle (s : State) : Option Bool := if outPort s = .staticIdle then some false else none

/-- What the IN port holds: receivers on, termination, fail-safe bias; in DORMANT the wake detector alone (R90, R94, R108). -/
structure InPort where
  receivers : Bool
  wakeDet   : Bool
  term      : Bool
  failSafe  : Bool
  deriving DecidableEq, Repr

/-- The IN port. -/
def inPort (s : State) : InPort :=
  let up := s.u.st != .dormant
  { receivers := up, wakeDet := !up, term := up && (s.u.romFail || pOn s idTerm), failSafe := up }

/-- The crystal oscillates while it is the source selected; in a core stopped by its ROM check, which holds the pins as in reset and boot,
wherever one is fitted (R90, 03 R131). -/
def xoOn (s : State) : Bool := s.u.st != .dormant && (if s.u.romFail then s.ring.xtal else s.ring.selected == .crystal)

/-- TP± drives, terminated, while the pole link is active (R111). -/
def tpActive (s : State) : Bool := alive s && s.twin.active

/-- ALERT_N is pulled low (R112, 16 R719); never in IDLE (R90). -/
def alertLow (s : State) : Bool := alive s && s.u.st != .idle && alertN s

/-! ### The field die's pins -/

/-- A bit of a field-die register, with VDDA in range: below it every output is inert (R97). -/
def fieldBit (s : State) (addr bit : Nat) : Bool := s.fd.vdda && (vget s.fd.regs addr 0).getLsbD bit

/-- The shorting switch of cell k is closed: SW on its WE pins and REk (R91). -/
def shortClosed (s : State) (k : Nat) : Bool := !fieldBit s (8 + k) 1

/-- CEk is driven. -/
def ceDriven (s : State) (k : Nat) : Bool := fieldBit s (8 + k) 0

/-- AMPn's amplifier holds WEn as its virtual ground. -/
def weHeld (s : State) (n : Nat) : Bool := fieldBit s n 0 && !shortClosed s (n / 2)

/-- WGn follows WEn. -/
def wgDriven (s : State) (n : Nat) : Bool := fieldBit s n 0

/-- RSnP and RSnN carry the excitation: while MOXn is enabled, in RUN; in every other state they are Z (R90; log 11). -/
def rsDriven (s : State) (n : Nat) : Bool := s.u.st == .run && fieldBit s (0x0C + n) 0

/-- The on-time of HTn in CLK: its drive word, while the driver is on and VHTR present (R97, 11 R487). -/
def htOnTime (s : State) (n : Nat) : Nat :=
  if s.fd.vdda && s.fd.vhtr && s.fd.htrOn.getLsbD n then min 2048 ((vget s.fd.drive n 0).toNat % 4096) else 0

/-- HTn is on in CLK `c` of the PWM period: from CLK 512 n for its on-time, wrapping at the period's end (11 R486). -/
def htOn (s : State) (n c : Nat) : Bool := decide ((c + 2048 - 512 * n) % 2048 < htOnTime s n)

/-- V_XS of bridge b in millivolts; none while the driver is off and EXbP, EXbN are Z (10 R463). -/
def exDrive (s : State) (b : Nat) : Option Nat :=
  if s.fd.vdda && s.fd.vhtr && s.fd.excOn.getLsbD b then
    let c := (vget s.fd.drive (4 + b) 0).toNat % 4096
    some (if c = 0 then 0 else max 500 (min 3000 c))
  else none

/-- AOUT is driven: its stage is enabled. -/
def aoutDriven (s : State) : Bool := fieldBit s 0x16 0

/-- Level at code 0 and LSB of an output range, in volts or amperes (18 R769). -/
def aoutScale : Nat → Rat × Rat
  | 0 => (0, 5 / 65536)
  | 1 => (0, 10 / 65536)
  | 2 => (0, 20 / 1000 / 65536)
  | 3 => (256 / 100000, 3125 / 10000000000)
  | _ => (0, 24 / 1000 / 65536)

/-- The level of code `c` in range `r`: low + c × LSB (18 R769). -/
def aoutOf (r : Nat) (c : BitVec 16) : Rat := (aoutScale r).1 + (c.toNat : Nat) * (aoutScale r).2

/-- The level at the AOUT pin, by the code the deglitcher lets through in the range of AOUTCTL (01 R58, 18 R769, R781); none while it is
high-impedance. -/
def aoutPin (s : State) : Option Rat :=
  if aoutDriven s then some (aoutOf (bits (vget s.fd.regs 0x16 0).toNat 3 1) s.fd.aoutLevel) else none

end Sys2Proof.Machine
end

