-- ==== Sys2Proof/WellFormed.lean ====
section
/-! DEFINITION. Which commands the outside can put on the wire: a payload fits its packet (06 R264), a narrow channel mask
has no bit above 31 (06 R942), a window has 512 bytes (04 R174), a pole-link message fits its LEN byte (19 R824). `exec` is
total: it gives every term a meaning, and a term this file refuses is one that no head-end, pin or pole link produces. -/

namespace Sys2Proof

/-- A payload of `n` bytes fits a packet: LEN is 0–240 (06 R264). -/
def payloadFits (n : Nat) : Bool := n ≤ 240

/-- The largest payload of a pole-link message: LEN is one byte (19 R824). -/
def messageFits (n : Nat) : Bool := n ≤ 255

/-- A four-byte mask names channels 0–31; an eight-byte one also the tail's (06 R942, 19 R842). -/
def Mask.wf (m : Mask) : Bool := m.wide || m.bits.toNat < 2 ^ 32

/-- The client of a packet is 1–125 (06 R264). -/
def Hdr.wf (h : Hdr) : Bool := 1 ≤ h.src.toNat && h.src.toNat ≤ 125

/-- The command can come from outside as it stands. -/
def wellFormed : Instr → Bool
  | .powerOn _ | .brownOut _ | .resetPin _ | .claimHoldoffEnd | .fieldDieReset | .vhtrPresentChange _
  | .vdrvPresentChange _ | .missingEdge | .clockReturn | .sckLoss | .wakeCki _ | .wakePin _ | .wakeInVigil
  | .dormantArm _ | .dormantEntry | .resetStart _ => true
  | .upFrame _ | .downFrame _ | .downFrameTimeout | .driveWordApply | .housekeepingStep => true
  | .superframeHeader _ _ | .headerArm _ | .headerDisarm _ | .headerSync _ | .pitchAll _ | .pitchCount _ | .pitchFill _
  | .pitchSticky _ | .pitchDrop _ | .pitchMeasure _ | .bulkGrant _ _ | .firePass _ | .resolvePass _ _
  | .confirmPass _ _ | .beaconHeader _ | .orphanBeacon | .dataLossBeacon => true
  | .pegClashRelease | .eventLost => true
  | .commandWindow w => w.length == 512
  | .slotWrite r => r.length == 1472
  | .nop h | .hello h | .stateQuery h | .stateIdle h | .stateRun h | .stateVigil h | .stateSafe h | .stateDormant h
  | .resetCmd h | .resetDefaults h | .claimCoded h _ _ | .claimQuery h _ | .grant h _ _ | .release h
  | .getblk h _ _ _ | .logread h _ _ _ _ | .logseal h | .logmark h _ _ | .logFreeTo h _ | .logPolicy h _
  | .timeset h _ _ | .timeq h | .range h _ _ | .firsel h _ _ _ | .syncnow h | .calwrite h _ _ _ | .biasEnable h _
  | .biasDisable h _ | .cellBiasWrite h _ _ | .cellRampWrite h _ _ | .autorangeWrite h _ _ _ | .leadCapture h _ _
  | .phaseTicks h _ _ | .phaseFrac h _ _ | .cableClk h _ | .ridgeTerm h _ | .tallyWindowWrite h _ _ _
  | .alarmEnable h _ _ | .waveSize h _ _ | .aoutEnable h _ | .alarmack h _ | .tallyread h _ | .tallyclear h _
  | .heatrun h _ _ | .heatstop h _ | .leadcal h _ | .triparm h _ _ | .tripdisarm h _ | .tripforce h _
  | .capread h _ _ _ | .capstat h | .capclear h | .aoutset h _ | .aoutrange h _ | .waveplay h _ _ _ _ | .wavestop h _
  | .twinjoin h _ _ | .twinsplit h | .twinstat h | .nvsave h _ | .nvload h _ | .taskq h _ | .rationq h
  | .fieldread h _ | .pins h => h.wf
  | .getp h ids => h.wf && payloadFits (2 * ids.length)
  | .setp h pairs => h.wf && payloadFits (6 * pairs.length)
  | .firload h _ _ cs => h.wf && payloadFits (2 + 3 * cs.length)
  | .profload h _ _ steps => h.wf && payloadFits (2 + 8 * steps.length)
  | .waveload h _ _ pts => h.wf && payloadFits (3 + 2 * pts.length)
  | .chstart h m | .chstop h m | .snap h m | .stream h m _ | .dcfreeze h m _ | .zcheck h m => h.wf && m.wf
  | .rightsRecordWrite _ | .logSealTask _ | .slewStep | .counterWrap | .rangeChangeRelease _ | .decadeChangeRelease _
  | .syncPin | .syncReset | .scsBoundary _ | .calwriteDone _ | .cellEnableStep _ | .cellDisableStep _ | .biasRampStep _
  | .sampleOutput _ | .tripwireAutoRearm | .nextSegment | .fifoWrite | .preRingDiscard | .overflowEvent => true
  | .sentinelBurst | .sentinelBurstEnd | .schedulerDecision | .profileAbort _ | .heaterMeasurement _ | .heaterLoop _
  | .bridgeLoop _ | .leadcalSwitch _ | .leadcalDone _ | .periodicCheckDue | .toneStart | .toneCode | .filmToneToggle
  | .clrNLevel _ | .wavePoint _ | .nvsaveDone _ _ | .nvLoadApply _ => true
  | .poleExchange _ | .twinHello _ | .twinJoin _ _ | .pairCommit | .joinTimeout | .twinVerdict _ _ _
  | .leadPacketDecide | .twinCommit _ _ | .twinAck _ | .pairDecision | .twinRule _ _ _ _ | .twinTrig _ _ _ _ _
  | .twinSlot _ _ _ _ | .twinSplitMsg _ | .tick | .vddaReturn | .tailGrantTimeout => true
  | .twinConf pairs => 1 ≤ pairs.length && pairs.length ≤ 40
  | .twinFwd _ _ _ _ pl => payloadFits pl.length
  | .twinAnswer _ _ _ _ data => data.length ≤ 14
  | .twinReq _ reqs => messageFits (5 + 11 * reqs.length)
  | .twinGrant outs => messageFits (2 * outs.length)

end Sys2Proof
end

