-- ==== Sys2Proof/Tests/Slice0.lean ====
section
/-! SUPPORT. Tests: each check of WellFormed refuses an ill-formed term; a state that meets the hypotheses of each statement; and
small results of single commands, worked out from the spec. -/

namespace Sys2Proof.Tests

set_option Elab.async false

open Sys2Proof Sys2Proof.Machine

/-! ### WellFormed -/

/-- A client's header, and one whose SRC names no client. -/
def hdr : Hdr := { bcast := false, src := 5, seq := 1 }
def hdrBad : Hdr := { bcast := false, src := 126, seq := 1 }

theorem test_wf_src : wellFormed (.nop hdrBad) = false ∧ wellFormed (.nop hdr) = true := by decide
theorem test_wf_getp : wellFormed (.getp hdr (List.replicate 121 0)) = false := by decide +kernel
theorem test_wf_setp : wellFormed (.setp hdr (List.replicate 41 (0, 0))) = false := by decide
theorem test_wf_firload : wellFormed (.firload hdr 0 0 (List.replicate 80 0)) = false := by decide
theorem test_wf_profload : wellFormed (.profload hdr 0 0 (List.replicate 30 0)) = false := by decide
theorem test_wf_waveload : wellFormed (.waveload hdr 0 0 (List.replicate 119 0)) = false := by decide +kernel
theorem test_wf_mask : wellFormed (.chstart hdr { wide := false, bits := 0x100000000 }) = false ∧
    wellFormed (.chstart hdr { wide := true, bits := 0x100000000 }) = true := by decide
theorem test_wf_window : wellFormed (.commandWindow []) = false := by decide
theorem test_wf_conf : wellFormed (.twinConf []) = false ∧ wellFormed (.twinConf (List.replicate 41 (0, 0))) = false := by decide
theorem test_wf_fwd : wellFormed (.twinFwd 1 5 1 0 (List.replicate 241 0)) = false := by decide +kernel
theorem test_wf_answer : wellFormed (.twinAnswer 1 0 15 0 (List.replicate 15 0)) = false := by decide
theorem test_wf_req : wellFormed (.twinReq { thermal := 0, current := 0, flags := 0 } (List.replicate 23
    { task := 1, cls := 1, energy := 0, current := 0, allowance := 0, age := 0 })) = false := by decide
theorem test_wf_grant : wellFormed (.twinGrant (List.replicate 128 (0, 0))) = false := by decide +kernel

/-! ### States for the witnesses -/

/-- Client 5 is Keeper, no hold-off runs, and the unit is in this state. -/
def st (u : UState) : State :=
  { State.reset with u.st := u, rights := { State.reset.rights with roles := [(5, 3)], holdoff := 0 } }

theorem can_change {s : State} {h : Hdr} {r : Nat} (a : (alive s && s.twin.mode == 0 && decide (1 ≤ h.src.toNat) &&
    decide (h.src.toNat ≤ 125) && !repliesFull s && s.cmd.dups.isEmpty && decide (r ≤ roleOf s h.src.toNat) && !stopPolicy s) = true) :
    CanChange s h r := by
  simp only [Bool.and_eq_true, Bool.not_eq_true', decide_eq_true_eq, beq_iff_eq, List.isEmpty_iff] at a
  obtain ⟨⟨⟨⟨⟨⟨⟨a1, a2⟩, a3⟩, a4⟩, a5⟩, a6⟩, a7⟩, a8⟩ := a
  exact ⟨a1, a2, a3, a4, .inr a5, fun d hd => (by rw [a6] at hd; cases hd), a7, a8⟩

theorem can_query {s : State} {h : Hdr} (a : (alive s && s.twin.mode == 0 && !h.bcast && decide (1 ≤ h.src.toNat) &&
    decide (h.src.toNat ≤ 125) && !repliesFull s) = true) : CanQuery s h := by
  simp only [Bool.and_eq_true, Bool.not_eq_true', decide_eq_true_eq, beq_iff_eq] at a
  obtain ⟨⟨⟨⟨⟨a1, a2⟩, a3⟩, a4⟩, a5⟩, a6⟩ := a
  exact ⟨a1, a2, a3, a4, a5, a6⟩

/-! ### Witnesses: the queue, queries, parameters -/

theorem witness_StepRunsFrontCommand : ({ State.reset with pending := [.tick] } : State).pending = .tick :: [] ∧
    State.reset.pending = [] := by decide +kernel

theorem witness_StepKeepsInvariant : Inv State.reset ∧ step State.reset = .next State.reset :=
  ⟨⟨by decide +kernel, by decide +kernel, by decide +kernel, by decide +kernel⟩, rfl⟩

theorem witness_EventsKeepConfiguration : (∃ t, exec .syncPin State.reset = .next t) ∧ keepsConfig .syncPin = true ∧
    keepsUnit .syncPin = true := ⟨⟨_, rfl⟩, rfl, rfl⟩

theorem witness_PlainQueriesAnswer : CanQuery (st .idle) hdr := can_query (by decide +kernel)

theorem witness_ParameterReadsAnswer : CanQuery (st .idle) hdr ∧ (descOf 0x0800).isSome = true ∧
    (descOf (0x0800#16).toNat).isSome = true ∧ (0x0800#16).toNat % 256 + (1#8).toNat ≤ 256 :=
  ⟨can_query (by decide +kernel), by decide +kernel, by decide +kernel, by decide +kernel⟩

theorem witness_StoreReadsAnswer : CanQuery (st .idle) hdr ∧ (0#8).toNat ≤ 1 ∧ 1 ≤ (7#16).toNat ∧ (7#16).toNat ≤ 7 ∧
    sealWriting (st .idle) = false ∧ (31#16).toNat ≤ 31 ∧ (23#8).toNat ≤ 23 ∧ (255#8).toNat ≠ 0 :=
  ⟨can_query (by decide +kernel), by decide +kernel, by decide +kernel, by decide +kernel, by decide +kernel, by decide +kernel, by decide +kernel, by decide +kernel⟩

theorem witness_BulkReadsWaitForGrants : CanQuery (st .idle) hdr ∧ (∀ b, (st .idle).cmd.bulk = some b → b.src = hdr.src) ∧
    logRun (logSource (st .idle) 0) 0 1 ≠ [] ∧ capRecs (st .idle) 0 1 = [] :=
  ⟨can_query (by decide +kernel), fun _ h => (by cases h), by decide +kernel, by decide +kernel⟩

/-- One record held. -/
def stRec : State := { st .idle with capt.recs := [{ num := 0, word := 0, at_ := 0 }], capt.nextRec := 1 }

theorem witness_BulkReadsWaitForGrants_records : CanQuery stRec hdr ∧ capRecs stRec 0 1 ≠ [] :=
  ⟨can_query (by decide +kernel), by decide +kernel⟩

theorem witness_DiagnosticsAnswer : CanChange (st .idle) hdr tuner ∧ CanChange (st .idle) hdr observer :=
  ⟨can_change (by decide +kernel), can_change (by decide +kernel)⟩

/-- 20 R898: a second FIELDREAD waits behind the first. -/
theorem test_two_fieldreads : (let s := exec (.fieldread hdr 3) (st .idle)
    match s with
    | .next t => (match exec (.fieldread { hdr with seq := 2 } 4) t with
      | .next u => u.seam.fieldRead.map Prod.fst
      | _ => [])
    | _ => []) = [3, 4] := by decide +kernel

theorem witness_WrittenParameterReadsBack : cfgWf State.reset.cfg = true := by decide +kernel

theorem witness_SetpAppliesAllOrNothing : CanChange (st .idle) hdr observer ∧
    setpCheck (st .idle) (roleOf (st .idle) 5) (orgPkt 5) [(idLog 0, 1)] = none ∧
    setpCheck (st .idle) (roleOf (st .idle) 5) (orgPkt 5) [(idLog 0, 1), (idLog 0, 2)] = some (stBadValue, 2) :=
  ⟨can_change (by decide +kernel), by decide +kernel, by decide +kernel⟩

theorem witness_CellWrites : CanChange (st .run) hdr observer ∧
    setpCheck (st .run) 3 (orgPkt 5) [(idCell 0 0, 0x3F800000)] = none ∧ setpCheck (st .run) 3 (orgPkt 5) [(idCell 3 1, 0)] = none :=
  ⟨can_change (by decide +kernel), by decide +kernel, by decide +kernel⟩

/-- Cell 0 open, its bias held. -/
def stOpen : State := { st .run with cell := vmod State.reset.cell 0 (fun c => { c with step := .open_ }) }

theorem witness_CellWrites_biased : CanChange stOpen hdr observer ∧
    setpCheck stOpen 3 (orgPkt 5) [(idCell 0 0, 0x3F800000)] = none ∧
    sameVal (idCell 0 0) (storedOf (idCell 0 0) 0x3F800000) (param stOpen (idCell 0 0)) = false ∧ zCell stOpen 0 = false ∧ (cellOf stOpen 0).step = .open_ ∧
    isPlaying stOpen 1 = false :=
  ⟨can_change (by decide +kernel), by decide +kernel, by decide +kernel, by decide +kernel, by decide +kernel, by decide +kernel⟩

theorem witness_ChannelWrites : CanChange (st .run) hdr observer ∧ setpCheck (st .run) 3 (orgPkt 5) [(idAmp 7 1, 1)] = none ∧
    setpCheck (st .run) 3 (orgPkt 5) [(idMox 0 1, 1)] = none ∧ setpCheck (st .idle) 3 (orgPkt 5) [(idFilt 13 6, 0)] = none ∧
    setpCheck (st .idle) 3 (orgPkt 5) [(idFilt 13 7, 1)] = none ∧
    param (st .idle) (idFilt 13 7) ≠ storedOf (idFilt 13 7) 1 :=
  ⟨can_change (by decide +kernel), by decide +kernel, by decide +kernel, by decide +kernel, by decide +kernel, by decide +kernel⟩

/-- MOX0 started. -/
def stMox : State := { st .run with chain := vmod State.reset.chain 8 (fun c => { c with started := true }) }

theorem witness_ChannelWrites_lead : CanChange stMox hdr observer ∧ setpCheck stMox 3 (orgPkt 5) [(idMox 0 7, 16)] = none ∧
    setpCheck stMox 3 (orgPkt 5) [(idFilt 8 7, 1)] = none ∧ filtRunning stMox 8 = true ∧ filtRunning (st .idle) 13 = false ∧
    param stMox (idFilt 8 7) ≠ storedOf (idFilt 8 7) 1 :=
  ⟨can_change (by decide +kernel), by decide +kernel, by decide +kernel, by decide +kernel, by decide +kernel, by decide +kernel⟩

theorem witness_UnitWrites : CanChange (st .idle) hdr observer ∧ setpCheck (st .idle) 3 (orgPkt 5) [(idCable, 1)] = none ∧
    setpCheck (st .idle) 3 (orgPkt 5) [(idTerm, 1)] = none ∧ setpCheck (st .idle) 3 (orgPkt 5) [(idTallyW 23, 8)] = none ∧
    setpCheck (st .idle) 3 (orgPkt 5) [(idTallyK 0, 1)] = none ∧ setpCheck (st .idle) 3 (orgPkt 5) [(idAlarm 0 15, 1)] = none ∧
    param (st .idle) (idAlarm 0 15) ≠ storedOf (idAlarm 0 15) 1 ∧ storedOf (idAlarm 0 15) 1 ≠ 0 ∧
    setpCheck (st .idle) 3 (orgPkt 5) [(idWave 0, 1)] = none ∧ setpCheck (st .run) 3 (orgPkt 5) [(idAout 0, 1)] = none :=
  ⟨can_change (by decide +kernel), by decide +kernel, by decide +kernel, by decide +kernel, by decide +kernel, by decide +kernel, by decide +kernel, by decide +kernel, by decide +kernel, by decide +kernel⟩

theorem witness_LogbookWrites : CanChange (st .idle) hdr observer ∧ setpCheck (st .idle) 3 (orgPkt 5) [(idLog 0, 1)] = none ∧
    setpCheck (st .idle) 3 (orgPkt 5) [(idLog 2, 0)] = none ∧ (st .idle).log.entries.length ≤ 4096 :=
  ⟨can_change (by decide +kernel), by decide +kernel, by decide +kernel, by decide +kernel⟩

/-! ### Witnesses: states, rights, Logbook, time -/

theorem witness_StateAndResetRequests : CanChange (st .idle) hdr operator ∧ CanChange (st .vigil) hdr operator ∧
    CanChange (st .safe) hdr operator ∧ safeCauses (st .safe) = 0 ∧ CanChange (st .idle) hdr keeper :=
  ⟨can_change (by decide +kernel), can_change (by decide +kernel), can_change (by decide +kernel), by decide +kernel, can_change (by decide +kernel)⟩

/-- No client holds a role, and no hold-off runs. -/
def stFree : State := { st .idle with rights := { State.reset.rights with holdoff := 0 } }

theorem witness_RightsCommands : CanChange stFree hdr observer ∧ hdr.bcast = false ∧ keepers stFree = 0 ∧
    stFree.rights.holdoff = 0 ∧ codeUpper (beBytes 8 (0x3232323232323232#64).toNat) = stFree.fac.claim ∧
    CanChange (st .idle) hdr keeper :=
  ⟨can_change (by decide +kernel), rfl, by decide +kernel, rfl, by decide +kernel, can_change (by decide +kernel)⟩

theorem witness_DeniedRequests : CanChange stFree hdr observer ∧ hdr.bcast = false ∧ stFree.log.entries.length < 4096 ∧
    keepers stFree = 0 ∧ stFree.rights.holdoff = 0 ∧ codeUpper (beBytes 8 (0#64).toNat) ≠ stFree.fac.claim ∧
    roleOf stFree 5 < keeper :=
  ⟨can_change (by decide +kernel), rfl, by decide +kernel, by decide +kernel, rfl, by decide +kernel, by decide +kernel⟩

theorem witness_LogmarkWritesItsEntry : CanChange (st .idle) hdr operator ∧ (st .idle).log.entries.length < 4096 :=
  ⟨can_change (by decide +kernel), by decide +kernel⟩

/-- An entry. -/
def ent : Entry := bootEntries.headD { seq := 0, era := 0, tick := 0, origin := 0, event := 0, subject := 0, old := 0, new := 0, check := 0 }

/-- A Logbook of 4 096 entries, under a policy. -/
def stFull (policy : Word) : State :=
  { st .idle with log := { LogSt0 with entries := List.replicate 4096 ent }, cfg := [(idLog 0, policy)] }

theorem witness_FullLogbook : CanChange (stFull 2) hdr operator ∧
    (stFull 2).log.entries = ent :: List.replicate 4095 ent ∧ (List.replicate 4095 ent).length = 4095 ∧
    ((stFull 2).log.overwritten + 1) % 4096 ≠ 0 ∧ CanQuery (stFull 1) hdr ∧
    (∀ d, aget (stFull 1).cmd.dups hdr.src.toNat = some d → d.seq ≠ hdr.seq) ∧ operator ≤ roleOf (stFull 1) hdr.src.toNat ∧
    stopPolicy (stFull 1) = true ∧ 4096 ≤ (stFull 1).log.entries.length :=
  ⟨can_change (by decide +kernel), rfl, List.length_replicate, by decide +kernel, can_query (by decide +kernel), fun _ h => (by cases h), by decide +kernel,
    by decide +kernel, by show 4096 ≤ (List.replicate 4096 ent).length; rw [List.length_replicate]⟩

/-- Aligned, a good header with FLAGS.TIMESET in this superframe, and an offset. -/
def stTime (off : Option Int) : State :=
  { st .idle with ring.hdr := .good, ring.timeset := true, t.unaligned := false, t.off := off }

theorem witness_TimesetMaps : CanChange (stTime none) hdr keeper ∧ timesetReady (stTime none) = true ∧
    timesetValue 10 0 = true ∧ CanChange (stTime (some 5121)) hdr keeper ∧ (512 * ((10#64).toNat : Int) - (0#48).toNat < 5121) ∧
    CanChange (stTime (some 4096)) hdr keeper ∧ timesetReady (stTime (some 4096)) = true ∧
    (512 * ((10#64).toNat : Int) - (0#48).toNat ≤ 4096 + 1024) ∧ CanChange (stTime (some 4095)) hdr keeper ∧
    ((4095 : Int) + 1024 < 512 * ((10#64).toNat : Int) - (0#48).toNat) :=
  ⟨can_change (by decide +kernel), by decide +kernel, by decide +kernel, can_change (by decide +kernel), by decide +kernel, can_change (by decide +kernel), by decide +kernel, by decide +kernel,
    can_change (by decide +kernel), by decide +kernel⟩

theorem witness_TimesetMaps_conditions : (stTime none).ring.hdr = .good ∧ (stTime none).ring.timeset = true ∧
    (stTime none).t.unaligned = false ∧ (stTime none).ring.orphan = false ∧ (10#64).toNat < 2 ^ 63 ∧ (0#48) ≠ BitVec.allOnes 48 := by
  decide +kernel

theorem witness_TimesetMaps_equal : CanChange (stTime (some 5120)) hdr keeper ∧
    (stTime (some 5120)).t.off = some (512 * ((10#64).toNat : Int) - (0#48).toNat) ∧ (stTime (some 5120)).t.slewLeft = 0 ∧
    (let s : State := { stTime (some 5120) with t.slewLeft := 7 }
     CanChange s hdr keeper ∧ s.t.off = some (512 * ((10#64).toNat : Int) - (0#48).toNat) ∧ s.t.slewLeft ≠ 0) :=
  ⟨can_change (by decide +kernel), by decide +kernel, by decide +kernel, can_change (by decide +kernel), by decide +kernel, by decide +kernel⟩

theorem witness_SlewStepMovesOneTick : let s : State := { State.reset with t.off := some 0, t.slewLeft := 1 }
    s.t.off = some 0 ∧ s.t.slewLeft ≠ 0 ∧ s.t.slewPhase ≤ s.t.up ∧ State.reset.t.off = none := by decide +kernel

/-! ### Witnesses: channels, filters, cells -/

/-- The mask of one channel. -/
def mask (c : Nat) : Mask := { wide := false, bits := BitVec.ofNat 64 (2 ^ c) }

theorem witness_ChannelsStartAndStop : CanChange (st .run) hdr operator ∧ maskVal (mask 13) < 2 ^ 24 ∧ (st .run).u.st = .run ∧
    (∀ c ∈ (maskList 14 (maskVal (mask 13))).filter (fun c => !(chainOf (st .run) c).started),
      chainDead (st .run) c = false ∧ inSnap (st .run) c = false) ∧
    (st .run).sched.tasks.length +
      (((maskList 14 (maskVal (mask 13))).filter (fun c => !(chainOf (st .run) c).started)).filter (12 ≤ ·)).length ≤ 16 :=
  ⟨can_change (by decide +kernel), by decide +kernel, rfl, by decide +kernel, by decide +kernel⟩

theorem witness_SnapIsATask : CanChange (st .run) hdr operator ∧ (st .run).u.st = .run ∧ maskVal (mask 11) < 2 ^ 24 ∧
    maskList 14 (maskVal (mask 11)) = maskList 12 (maskVal (mask 11)) ∧ maskList 12 (maskVal (mask 11)) ≠ [] ∧
    (∀ c ∈ maskList 12 (maskVal (mask 11)), filtRunning (st .run) c = false ∧ chainDead (st .run) c = false) ∧
    (st .run).sched.tasks.length < 16 :=
  ⟨can_change (by decide +kernel), rfl, by decide +kernel, by decide +kernel, by decide +kernel, by decide +kernel, by decide +kernel⟩

theorem witness_RangeAsksOnce : CanChange stMox hdr operator ∧ stMox.u.st = .run ∧ (8#8).toNat < 12 ∧ (5#8).toNat ≤ 5 ∧
    (chainOf stMox 8).started = true ∧ (rangerOn stMox 8 = true → rangerMin stMox 8 ≤ 5 ∧ 5 ≤ rangerMax stMox 8) ∧
    (5#8).toNat = activeRange stMox 8 ∧ (4#8).toNat ≠ activeRange stMox 8 :=
  ⟨can_change (by decide +kernel), rfl, by decide +kernel, by decide +kernel, by decide +kernel, by decide +kernel, by decide +kernel, by decide +kernel⟩

theorem witness_RangeAsksOnce_requests : (frontOf stMox 8).req = none ∧
    (let q : RangeReq := { range := 3, origin := 0, auto := false, reset := false, start := true }
     let s : State := { stMox with front := vmod State.reset.front 8 (fun f => { f with req := some q }) }
     CanChange s hdr operator ∧ s.u.st = .run ∧ (chainOf s 8).started = true ∧
       (rangerOn s 8 = true → rangerMin s 8 ≤ 4 ∧ 4 ≤ rangerMax s 8) ∧ (4#8).toNat ≠ activeRange s 8 ∧ (3#8).toNat = activeRange s 8 ∧
       (frontOf s 8).req = some q ∧ q.start = true) :=
  ⟨by decide +kernel, can_change (by decide +kernel), rfl, by decide +kernel, by decide +kernel, by decide +kernel, by decide +kernel,
    by decide +kernel, rfl⟩

theorem witness_StreamFreezeSync : let s : State := { st .run with t.up := 1 }
    CanChange s hdr operator ∧ s.u.st = .run ∧ maskVal (mask 13) < 2 ^ 14 ∧ maskVal (mask 23) < 2 ^ 24 ∧ (1#16) ≠ 0 ∧
      (1#8).toNat ≤ 1 ∧ s.ty ≠ s.t.up :=
  ⟨can_change (by decide +kernel), rfl, by decide +kernel, by decide +kernel, by decide +kernel, by decide +kernel, by decide +kernel⟩
theorem witness_StreamFreezeSync_again : let s : State := { st .run with t.up := 1, ty := 1 }
    CanChange s hdr operator ∧ s.u.st = .run ∧ s.ty = s.t.up ∧ s.t.up ≠ 0 :=
  ⟨can_change (by decide +kernel), rfl, rfl, by decide⟩

theorem witness_ResponsesLoadAndSelect : CanChange (st .idle) hdr tuner ∧ (st .idle).u.st ≠ .vigil ∧
    (0#8).toNat ≤ ((st .idle).usets[(15 : Fin 16)]).length ∧ (0#8).toNat + [(1 : BitVec 24)].length ≤ 128 ∧
    usetInUse (st .idle) 15 = false ∧ filtRunning (st .idle) 13 = false :=
  ⟨can_change (by decide +kernel), by decide +kernel, by decide +kernel, by decide +kernel, by decide +kernel, by decide +kernel⟩

/-- CIC code 3 on channel 0, and a set loaded. -/
def stCic : State := { st .idle with cfg := [(idFilt 0 0, 3)], usets := vset State.reset.usets 15 [1] }

theorem witness_ResponsesLoadAndSelect_cic : CanChange stCic hdr tuner ∧ filtRunning stCic 0 = false ∧
    pNat stCic (idFilt 0 0) = 3 ∧ stCic.usets[(15 : Fin 16)] ≠ [] :=
  ⟨can_change (by decide +kernel), by decide +kernel, by decide +kernel, by decide +kernel⟩

theorem witness_BiasCommands : CanChange (st .run) hdr operator ∧ (st .run).u.st = .run ∧ cellOn (st .run) 3 = false ∧
    ((st .run).cell[(3 : Fin 4)]).step = .shorted ∧ ((st .run).cell[(3 : Fin 4)]).task = 0 ∧ (st .run).sched.tasks.length < 16 ∧
    CanChange stOpen hdr operator ∧ cellOn stOpen 0 = true ∧ (stOpen.cell[(0 : Fin 4)]).step = .open_ ∧
    (stOpen.cell[(0 : Fin 4)]).task = 0 ∧ zCell stOpen 0 = false ∧ isPlaying stOpen 1 = false ∧
    (stOpen.cell[(0 : Fin 4)]).ramping = false ∧ (stOpen.cell[(0 : Fin 4)]).target = 0 ∧ stOpen.sched.tasks.length < 16 :=
  ⟨can_change (by decide +kernel), rfl, by decide +kernel, by decide +kernel, by decide +kernel, by decide +kernel, can_change (by decide +kernel), by decide +kernel, by decide +kernel,
    by decide +kernel, by decide +kernel, by decide +kernel, by decide +kernel, by decide +kernel, by decide +kernel⟩

/-- Cell 0 open, with its bias at half a volt. -/
def stBiased : State := { st .run with cell := vmod State.reset.cell 0 (fun c => { c with step := .open_, target := 1 / 2 }) }

theorem witness_BiasCommands_biased : CanChange stBiased hdr operator ∧ stBiased.u.st = .run ∧
    (stBiased.cell[(0 : Fin 4)]).step = .open_ ∧ (stBiased.cell[(0 : Fin 4)]).task = 0 ∧ stBiased.sched.tasks.length < 16 ∧
    zCell stBiased 0 = false ∧ isPlaying stBiased 1 = false ∧ (stBiased.cell[(0 : Fin 4)]).target ≠ 0 :=
  ⟨can_change (by decide +kernel), rfl, by decide +kernel, by decide +kernel, by decide +kernel, by decide +kernel, by decide +kernel,
    by decide +kernel⟩

/-- Cell 0 open, its enabling task 1 still running. -/
def stTask : State := { st .run with cell := vmod State.reset.cell 0 (fun c => { c with step := .open_, task := 1 }) }

theorem witness_BiasBusy : CanChange stTask hdr operator ∧ hdr.bcast = false ∧ (stTask.cell[(0 : Fin 4)]).task ≠ 0 ∧
    cellOn stTask 0 = true := ⟨can_change (by decide +kernel), rfl, by decide +kernel, by decide +kernel⟩
theorem test_bias_busy : exec (.biasDisable hdr 0) stTask = .next (answered stTask hdr stBusy []) := by
  show Host.Outcome.next _ = _
  exact congrArg _ (by decide +kernel)


/-! ### Witnesses: loads, Tripwire, alarms, outputs, pairs -/

theorem witness_HeaterCommands : CanChange (st .run) hdr operator ∧ (15#8).toNat < 16 ∧ CanChange (st .run) hdr tuner ∧
    (st .run).u.st ≠ .vigil ∧ (29 : Nat) ≤ 29 ∧ (3#8).toNat ≤ 31 ∧ (3#8).toNat + 29 ≤ 32 ∧
    (List.replicate 29 (0x0100000001000000#64)).all stepOk = true ∧ profInUse (st .run) 15 = false :=
  ⟨can_change (by decide +kernel), by decide +kernel, can_change (by decide +kernel), by decide +kernel, by decide +kernel,
    by decide +kernel, by decide +kernel, by decide +kernel, by decide +kernel⟩

/-- Slot 0 armed under ARM_ID 1. -/
def stArmed : State := { st .run with trip := { State.reset.trip with st := .armed, armed := 1, armId := 1 }, capt.phase := .recording }

theorem witness_TripwireCommands : CanChange (st .run) hdr operator ∧ (st .run).u.st = .run ∧
    (∀ i ∈ maskList 8 (0x81#8).toNat, slotFit (st .run) i = true) ∧ armBusy (st .run) 0 = false ∧
    CanChange stArmed hdr operator ∧ stArmed.trip.st = .armed ∧ stArmed.trip.armed ≠ 0 ∧ stArmed.trip.armed &&& ~~~(0x01#8) = 0 ∧
    stArmed.trip.armed &&& ~~~(0x02#8) ≠ 0 ∧ (st .run).trip.st = .disarmed :=
  ⟨can_change (by decide +kernel), rfl, by decide +kernel, by decide +kernel, can_change (by decide +kernel), rfl, by decide +kernel,
    by decide +kernel, by decide +kernel, rfl⟩

theorem witness_AlarmAndTallyCommands : CanChange (st .idle) hdr operator := can_change (by decide +kernel)
theorem witness_AlarmackOfNothing : CanChange (st .idle) hdr operator ∧
    (∀ r : Fin 16, bit (0xFFFF#16).toNat r = true → ((st .idle).alarm[r]).st ≠ .latched) :=
  ⟨can_change (by decide +kernel), by decide +kernel⟩
theorem test_alarmack_nothing : exec (.alarmack hdr 0xFFFF) (st .idle) = .next (answered (st .idle) hdr stDone []) := by
  show Host.Outcome.next _ = _
  exact congrArg _ (by decide +kernel)

/-- AOUT enabled. -/
def stAout : State := { st .run with aout := { State.reset.aout with enabled := true }, wave.points := vset State.reset.wave.points 15 [1, 2] }

theorem witness_OutputCommands : CanChange stAout hdr operator ∧ stAout.u.st = .run ∧ isPlaying stAout 0 = false ∧
    CanChange (st .run) hdr tuner ∧ (st .run).u.st ≠ .vigil ∧ (st .run).aout.enabled = false ∧ (st .run).aout.range ≠ (4 : Fin 5) ∧
    (0#16).toNat ≤ ((st .run).wave.points[(15 : Fin 16)]).length ∧ (0#16).toNat + 118 ≤ waveSize (st .run) 15 ∧
    waveBusy (st .run) 15 = false ∧ playReady stAout 0 = true ∧ stAout.wave.points[(15 : Fin 16)] ≠ [] ∧
    CanChange stOpen hdr operator ∧ playReady stOpen 1 = true ∧ zCell stOpen 0 = false :=
  ⟨can_change (by decide +kernel), rfl, by decide +kernel, can_change (by decide +kernel), by decide +kernel, rfl, by decide +kernel,
    by decide +kernel, by decide +kernel, by decide +kernel, by decide +kernel, by decide +kernel, can_change (by decide +kernel),
    by decide +kernel, by decide +kernel⟩

/-- Pitched at peg 3, hop 3. -/
def stPeg (u : UState) : State := { st u with ring := { State.reset.ring with lock := .locked, peg := 3, hop := 3, hdr := .good } }

/-- A Span lead (1), Mirror lead (2) or a tail of either (3, 4). -/
def stPair (mode : Nat) (u : UState) : State :=
  { stPeg u with twin := { State.reset.twin with mode := mode, partner := 4, active := true } }

theorem witness_TwinCommands : CanChange (stPeg .idle) hdr tuner ∧ (stPeg .idle).twin.join = none ∧
    (4#8).toNat = (stPeg .idle).ring.peg + 1 ∧ (2#8).toNat + 1 = (stPeg .idle).ring.peg ∧ (stPeg .idle).sched.tasks.length < 16 ∧
    joinRefused (stPeg .idle) 1 = false ∧ joinRefused (stPeg .idle) 2 = false ∧
    alive (stPair 1 .run) = true ∧ (stPair 2 .run).twin.mode = 2 ∧ hdr.bcast = false ∧ repliesFull (stPair 1 .run) = false ∧
    (∀ d, aget (stPair 1 .run).cmd.dups hdr.src.toNat = some d → d.seq ≠ hdr.seq) ∧ tuner ≤ roleOf (stPair 1 .run) hdr.src.toNat ∧
    stopPolicy (stPair 1 .run) = false ∧ (stPair 1 .run).cmd.taken = [] :=
  ⟨can_change (by decide +kernel), rfl, by decide +kernel, by decide +kernel, by decide +kernel, by decide +kernel, by decide +kernel,
    by decide +kernel, rfl, rfl, by decide +kernel, fun _ h => (by cases h), by decide +kernel, by decide +kernel, rfl⟩

/-! ### Witnesses: long requests, NV, boots, time -/

/-- Profile 15 begins with an OFF step, heater 3 is fitted, and cell 0 is open with AMP0 started. -/
def stLong : State :=
  { st .run with profiles := vset State.reset.profiles 15 (List.replicate 32 0x0100000001000000#64), cfg := [(idHtr 3 0, 1)],
                 chain := vmod State.reset.chain 0 (fun c => { c with started := true }) }

theorem witness_LongRequestsStartTasks : stLong.sched.tasks.length < 16 ∧ CanChange stLong hdr operator ∧ sealRuns stLong = false ∧
    CanChange (st .idle) hdr operator ∧ stLong.u.st = .run ∧ (htrOf stLong 3).fault = false ∧ stMode (profStep stLong 15 0) ≠ 0 ∧
    htrRunning stLong 3 = false ∧ pNat stLong (idHtr 3 0) = 1 ∧ maskVal (mask 0) ≠ 0 ∧ maskVal (mask 0) < 2 ^ 14 ∧
    (∀ c ∈ maskChans (maskVal (mask 0)), (chainOf stLong c).started = true) ∧
    (∃ c ∈ maskChans (maskVal (mask 0)), zBusy stLong c = false) ∧ CanChange stLong hdr keeper ∧ nvTaskRuns stLong = false ∧
    loadLocked stLong 1 = false ∧ loadLocked stLong 2 = false ∧ calOk 0x40000000 (1 / 2) 2 = true ∧
    calOk 0xC9800000 (-1048576) 1048576 = true :=
  ⟨by decide +kernel, can_change (by decide +kernel), by decide +kernel, can_change (by decide +kernel), rfl, by decide +kernel,
    by decide +kernel, by decide +kernel, by decide +kernel, by decide +kernel, by decide +kernel, by decide +kernel,
    by decide +kernel, can_change (by decide +kernel), by decide +kernel, by decide +kernel, by decide +kernel, by decide +kernel,
    by decide +kernel⟩

/-- A task 1 of this kind, granted. -/
def tsk (obj : TaskObj) : TaskRec :=
  { num := 1, opc := 0x44, cls := .chore, origin := orgPkt 5, obj := obj, born := 0, state := .granted, reason := 0, defers := 0,
    logged := none, energy := 1, stage := 0 }

/-- Images of reset parameters and empty copies. -/
def imgs : CfgImage × CopyImage :=
  ({ params := [], peg := 2, hop := 2, gains := [], offs := [] }, { profiles := [], waves := [] })

/-- Task 1 of this kind writes a region of NV. -/
def stNv (region : Nat) (obj : TaskObj) : State :=
  { st .idle with sched.tasks := [tsk obj], nv.writing := some (region, 1), nv.staged := some imgs, nv.cfg := .good imgs.1,
                  nv.copies := .good imgs.2, nv.sealing := [ent] }

theorem witness_NvTasksEnd : nvTask (stNv 1 (.nvsave 3)) 1 = some (tsk (.nvsave 3)) ∧ (stNv 1 (.nvsave 3)).nv.staged = some imgs ∧
    nvTask (stNv 2 (.nvsave 3)) 2 = some (tsk (.nvsave 3)) ∧
    nvTask (stNv 1 (.calwrite 13 0x3F800000 0)) 1 = some (tsk (.calwrite 13 0x3F800000 0)) ∧
    nvTask (stNv 4 .rights) 4 = some (tsk .rights) ∧ nvTask (stNv 3 (.sealLog false)) 3 = some (tsk (.sealLog false)) ∧
    (stNv 3 (.sealLog false)).nv.sealing.getLast? = some ent ∧ nvTask (stNv 3 (.sealLog true)) 3 = some (tsk (.sealLog true)) ∧
    (tsk (.sealLog true)).stage = 0 ∧ (stNv 1 (.nvload 3)).t.p = 0 ∧
    (stNv 1 (.nvload 3)).sched.tasks.find? (loadsRegion 1) = some (tsk (.nvload 3)) ∧ loadLocked (stNv 1 (.nvload 3)) 1 = false ∧
    loadPairs (stNv 1 (.nvload 3)) imgs.1 = [] ∧
    (stNv 1 (.nvload 2)).sched.tasks.find? (loadsRegion 2) = some (tsk (.nvload 2)) ∧ loadLocked (stNv 1 (.nvload 2)) 2 = false :=
  ⟨by decide +kernel, rfl, by decide +kernel, by decide +kernel, by decide +kernel, by decide +kernel, by decide +kernel,
    by decide +kernel, rfl, rfl, by decide +kernel, by decide +kernel, by decide +kernel, by decide +kernel, by decide +kernel⟩

/-- What a boot finds: with a clock or without. -/
def env (cki : Bool) : BootEnv :=
  { cki := cki, crystal := false, romGood := true, seamUp := true, frev := 0, vdda := true, vhtr := true, vdrv := true,
    testen := false, bootUs := 0, header := none, window := none, region := none }

theorem witness_BootsAndWakes : ((env true).cki = true ∨ (env true).crystal = true) ∧ (env true).romGood = true ∧
    (st .idle).u.romFail = false ∧ (st .dormant).u.st = .dormant ∧
    (let s : State := { st .idle with u := { State.reset.u with resetDue := some (0, 0) }, t.sf := 1 }
     alive s = true ∧ s.t.p = 0 ∧ s.u.resetDue = some (0, 0) ∧ 0 < s.t.sf) ∧
    (env false).cki = false ∧ (env false).crystal = false ∧
    (let s : State := { st .idle with u := { State.reset.u with armed := true }, ring.clk := .backup }
     s.u.armed = true ∧ s.u.st = .idle ∧ s.ring.clk = .backup) := by decide +kernel

theorem witness_TickAdvances : alive (st .run) = true ∧ (st .run).t.fix = none ∧
    (let s : State := { st .run with t.count := BitVec.allOnes 48, t.p := 511 }
     alive s = true ∧ s.t.fix = none ∧ s.t.count = BitVec.allOnes 48 ∧ s.t.p = 511) := by decide +kernel

theorem witness_ClockLossAndReturn : alive (st .run) = true ∧ (st .run).ring.clk ≠ .backup ∧
    (let s : State := { st .run with ring.clk := .backup }
     alive s = true ∧ s.ring.clk = .backup ∧ s.t.p = 0 ∧ s.u.armed = false) ∧
    (let s : State := { st .run with t.up := 16384 }
     alive s = true ∧ s.t.p = 0 ∧ s.ring.clk = .cki ∧ s.ring.lock ≠ .locked ∧ s.u.armed = false ∧
       s.ring.unlockedAt + 32 * 512 ≤ s.t.up) := by decide +kernel

theorem witness_VigilAndHoldoffEvents :
    (let s : State := { st .vigil with cfg := [(idSched 5, 1)], rights.holdEnd := true, t.up := 512 }
     s.rights.holdEnd = true ∧ s.u.st = .vigil ∧ burstDue s = true ∧ s.vigil.burst = none) ∧
    (let s : State := { st .vigil with cfg := [(idSched 5, 1)], vigil.burst := some 0, t.up := 512 }
     burstDue s = true ∧ s.vigil.burst = some 0 ∧ 0 ≠ s.t.up ∧ s.vigil.burst.isSome = true ∧ s.vigil.waiting = 0) := by
  decide +kernel

/-! ### Witnesses: the Seam and the ring -/

theorem witness_FieldDieEvents : ({ State.reset with fd.vdda := false } : State).fd.vdda = false ∧
    256 ≤ ({ State.reset with fd.gap := 256 } : State).fd.gap ∧ State.reset.t.p = 0 := by decide +kernel

theorem witness_FrameCodecs : frameOk (.bias (some (3, 0x3FFF)) none) = true ∧ frameOk (.drive 3 0xFFFF 0) = true ∧ 255 < 256 := by
  decide +kernel

theorem witness_SeamFrames : alive (st .run) = true ∧ seamRuns (st .run) = true ∧ (st .run).fd.vdda = true ∧
    (st .run).seam.cut = false ∧ 506 ≤ ({ st .run with t.p := 511 } : State).t.p ∧
    (let s : State := { st .run with t.p := 3, seam.regQ := [regAccess State.reset 0x17 3], t.up := 2 }
     s.t.p % 8 = 3 ∧ s.t.p < 506 ∧ s.seam.up = true ∧ releaseFront s = none ∧ (regAccess State.reset 0x17 3).read = false ∧
     (regAccess State.reset 0x17 3).tries = 0 ∧ (regAccess State.reset 0x17 3).at_ < s.t.up ∧
       (regAccess State.reset 0x17 3).addr.toNat < 24) ∧
    (let s : State := { st .run with t.p := 3, front := vmod State.reset.front 11 (fun f => { f with holdAt := some 0 }), t.up := 15 }
     s.t.p % 8 = 3 ∧ releaseFront s = some 11) ∧
    (let s : State := { st .run with fd.inbox := .good (downWord 5 (.drive 2 1 2)) }
     s.t.p < 511 ∧ s.t.count ≠ BitVec.allOnes 48 ∧ s.twin.mode ≠ 3 ∧ frameOk (.drive 2 1 2) = true ∧
       s.fd.inbox = .good (downWord 5 (.drive 2 1 2))) ∧
    (let s : State := { st .run with fd.inbox := .good (downWord 5 (.reg false 0x17 3)) }
     frameOk (.reg false 0x17 3) = true ∧ (0x17#8).toNat < 24 ∧ s.fd.inbox = .good (downWord 5 (.reg false 0x17 3))) ∧
    (let x : UpTx := { p := 1, stat := 0, good := true, cut := false }
     let u : UpIn := { codes := 0, pins := 0, ilim := 0, warn := false, err := 0 }
     let s : State := { st .run with fd.tx := some x, t.up := 2 }
     s.fd.tx = some x ∧ 2 ≤ s.t.up ∧ x.good = true ∧ x.cut = false ∧ (st .run).fd.tx = none ∧
       (let s1 := { s with fd := { s.fd with tx := none, clamps := s.fd.clamps ||| u.pins } }
        upGood (upFrame (sentCodes s1 u 0 ((x.p + 511) % 512)) (flagsOf u).toNat (statByte s1 u x) u.err) = true ∧
        upGood (upFrame (sentCodes s1 u 0 ((x.p + 511) % 512)) (flagsOf u).toNat (statByte s1 u x) 1) = false)) := by decide +kernel

/-- A header with its syncword, and the same with a good HCRC. -/
def hdrW : BitVec 512 := hPut 0 0 32 0x7C6B3E95
def hdrGood : BitVec 512 := hSeal hdrW 0

theorem witness_HeaderPasses : alive (stPeg .run) = true ∧ (stPeg .run).ring.clk = .cki ∧ (stPeg .run).ring.lock = .locked ∧
    syncOk hdrGood = true ∧ syndrome hdrGood = 0 ∧ hGet hdrGood 408 8 = 0 ∧ syncOk (hSeal hdrW 1) = true ∧
    syndrome (hSeal hdrW 1) ≠ 0 ∧ syncOk 0 = false ∧ (st .run).ring.lock = .unlocked ∧
    (let s : State := { stPeg .run with ring.missedRun := 3 }
     s.ring.lock = .locked ∧ s.ring.missedRun = 3 ∧ (stPeg .run).ring.missedRun < 3) ∧
    (let s : State := { st .run with ring.lock := .acquiring [bitZero (st .run) 5 - 32768] }
     bitZero s 5 - 32768 ∈ [bitZero (st .run) 5 - 32768] ∧ bitZero s 6 - 32768 ∉ [bitZero (st .run) 5 - 32768]) := by decide +kernel

theorem witness_HeaderFieldRows : ringLive (stPeg .run) = true ∧ isPitched (stPeg .run) = true ∧ (stPeg .run).t.fix = none ∧
    (stPeg .run).syncs = [] ∧ (stPeg .run).t.p < 512 ∧ hGet (hSeal (hPut hdrW 408 8 1) 0) 408 8 ≠ 0 ∧
    syndrome (hSeal (hPut hdrW 408 8 1) 0) = 0 ∧ 13 ≤ (448#16).toNat ∧ (448#16).toNat ≤ 448 ∧ (stPeg .run).ring.peg < 256 ∧
    (let s : State := { stPeg .run with cmd.bulk := some { src := 5, seq := 1, bytes := [1], offset := 0, total := 1, far := none }, ring.pegDrop := true, t.p := 16 }
     s.cmd.bulk = some { src := 5, seq := 1, bytes := [1], offset := 0, total := 1, far := none } ∧ alive s = true ∧ s.ring.pegDrop = true ∧ s.t.p = 16) := by
  decide +kernel

theorem witness_PitchRows : ringLive (stPeg .run) = true ∧ isPitched (stPeg .run) = true ∧ (stPeg .run).twin.mode = 0 ∧
    (stPeg .run).ring.peg = rev8 0xC0 ∧
    (let s : State := { stPeg .run with ring.peg := 0, ring.savedPeg := 60, ring.savedHop := 3 }
     ringLive s = true ∧ isPitched s = false ∧ 1 ≤ s.ring.savedPeg ∧ s.ring.savedPeg ≤ 60 ∧ s.ring.savedHop = rev8 0xC0) := by
  decide +kernel

theorem witness_FirePasses : ringLive (stPeg .run) = true ∧ isPitched (stPeg .run) = true ∧ fireDue (stPeg .run) = none ∧
    (let s : State := { stPeg .run with ring.fire := some 7, ring.fireSf := 0, t.sf := 1 }
     ringLive s = true ∧ isPitched s = true ∧ fireDue s = some 7 ∧ s.ring.fire = some 7) := by decide +kernel

/-- A region of slots and guard: empty, or with slot 3 filled. -/
def region (filled : Bool) : List Byte :=
  List.replicate 48 0 ++ List.replicate 24 (if filled then 0xFF else 0) ++ List.replicate 1400 0

theorem witness_SlotWindowAndEvents :
    (let s : State := { stPeg .run with t.p := 161 }
     s.ring.beaconing = false ∧ (region false).length = 1472 ∧ (region true).length = 1472 ∧ slotDue s = true ∧
       bit ((region false).getD (slotAt s.ring.peg) 0).toNat 7 = false ∧ bit ((region true).getD (slotAt s.ring.peg) 0).toNat 7 = true) ∧
    relays (stPeg .run) = true ∧ slotDue (stPeg .run) = false ∧ (stPeg .run).ring.beaconing = false ∧
    ringPart (stPeg .run) = true ∧ isLead (stPeg .run) = false ∧ (List.replicate 240 (0 : Byte)).length ≤ 240 ∧
    1 ≤ (60#8).toNat ∧ (60#8).toNat ≤ 60 ∧ (60#8).toNat ≠ (stPeg .run).ring.peg ∧
    (let w : List Byte := [0x3C, 5, 1, 0, 0, 0, 1]
     w.headD 0 ≠ 0 ∧ (w.headD 0).toNat < 0x3D ∧ packetAt (windowFill w) = none) ∧
    (relays (st .idle) = true ∧ ringPart (st .idle) = false ∧ (st .idle).ring.beaconing = false) ∧
    ({ stPeg .run with ring.beaconing := true } : State).ring.beaconing = true ∧
    (let s : State := { stPeg .run with cmd.lost := 1 }
     s.cmd.lost ≠ 0 ∧ s.cmd.events.length < 16) := by decide +kernel

/-! ### Witnesses: signals, cells, outputs, capture -/

/-- A sample. -/
def smp (value : Int) (qual ch : Nat) : Sample := { ch := ch, tag := 0, span := 1, value := value, qual := qual, range := 0 }

theorem witness_SampleWordFields : (smp (-8388608) 7 31).qual < 8 ∧ (smp (-8388608) 7 31).ch < 32 ∧
    -8388608 ≤ (smp (-8388608) 7 31).value ∧ (smp 8388607 0 0).value ≤ 8388607 := by decide +kernel

theorem witness_SignalEvents :
    (let s : State := { st .run with t.up := 3, chain := vmod State.reset.chain 13 (fun c => { c with outs := [{ tag := 0, val := 1 }] }) }
     (s.chain[(13 : Fin 14)]).outs = [{ tag := 0, val := 1 }] ∧ 0 + 3 ≤ s.t.up ∧ (s.chain[(13 : Fin 14)]).past = none ∧
       alive s = true ∧ s.u.st ≠ .vigil) ∧
    (let p : PastRun := { presentRun (chainOf (st .run) 13) with cut := 1 }
     let s : State := { st .run with t.up := 3, chain := vmod State.reset.chain 13 (fun c =>
       { c with outs := [{ tag := 0, val := 1 }], past := some p }) }
     (s.chain[(13 : Fin 14)]).outs = [{ tag := 0, val := 1 }] ∧ (s.chain[(13 : Fin 14)]).past = some p ∧ 0 < p.cut) ∧
    (let s : State := { st .run with t.up := 3, hk.out := some { ch := 23, tag := 0, sum := 0 } }
     s.hk.out = some { ch := 23, tag := 0, sum := 0 } ∧ 0 + 3 ≤ s.t.up) ∧
    (let s : State := { st .run with cfg := [(idFilt 0 5, 1)], chain := vmod State.reset.chain 0 (fun c => { c with started := true }) }
     (s.chain[(0 : Fin 14)]).started = true ∧ (s.chain[(0 : Fin 14)]).conv = none ∧ pOn s (idFilt 0 5) = true ∧ s.u.st ≠ .vigil ∧
       chainPscs s 0 ≠ 0 ∧ ((s.t.up : Int) - baseNow (s.chain[(0 : Fin 14)])) % (chainPscs s 0 : Int) = 0 ∧
       (s.t.up, baseNow (s.chain[(0 : Fin 14)]), true) ∉ (s.chain[(0 : Fin 14)]).due) ∧
    (let s : State := { st .run with syncs := [{ up := 0, count := none, order := 2, origin := orgPin }] }
     ∃ d ∈ s.syncs, d.due s = true) ∧ (∀ d ∈ (st .run).syncs, d.due (st .run) = false) ∧
    (let s : State := { st .run with front := vmod State.reset.front 11 (fun f => { f with freeAt := some 16 }) }
     (frontOf s 11).freeAt = some 16) ∧ (frontOf (st .run) 7).freeAt = none := by decide +kernel

/-- Cell 3 in a step, begun at tick 0, at tick `up`. -/
def stCell (step : CellStep) (up : Nat) : State :=
  { st .run with t.up := up, cell := vmod State.reset.cell 3 (fun c => { c with step := step }) }

theorem witness_CellSequences :
    (let s := stCell (.opening 1) 64
     (s.cell[(3 : Fin 4)]).stuck = false ∧ cellBusy s 3 = false ∧ (s.cell[(3 : Fin 4)]).step = .opening 1 ∧
       (s.cell[(3 : Fin 4)]).rampAt + 64 ≤ s.t.up) ∧
    (let s := stCell (.opening 2) 320
     (s.cell[(3 : Fin 4)]).step = .opening 2 ∧ (s.cell[(3 : Fin 4)]).rampAt + 320 ≤ s.t.up ∧ cellBusy s 3 = false) ∧
    (let s := stCell (.opening 3) 336
     (s.cell[(3 : Fin 4)]).step = .opening 3 ∧ (s.cell[(3 : Fin 4)]).rampAt + 336 ≤ s.t.up ∧ cellBusy s 3 = false) ∧
    (let s := stCell (.opening 4) 512
     (s.cell[(3 : Fin 4)]).step = .opening 4 ∧ s.t.p = 0 ∧ (s.cell[(3 : Fin 4)]).rampAt < s.t.up ∧
       (s.cell[(3 : Fin 4)]).suspended = false ∧ cellBusy s 3 = false) ∧
    (let s := stCell (.closing 1) 0
     (s.cell[(3 : Fin 4)]).step = .closing 1 ∧ (s.cell[(3 : Fin 4)]).ramping = false) ∧
    (stCell (.closing 2) 0).cell[(3 : Fin 4)].step = .closing 2 ∧
    (let s := stCell (.closing 3) 64
     (s.cell[(3 : Fin 4)]).step = .closing 3 ∧ (s.cell[(3 : Fin 4)]).rampAt + 64 ≤ s.t.up) ∧
    (let s := stCell (.closing 4) 64
     (s.cell[(3 : Fin 4)]).step = .closing 4 ∧ cellDark s 3 = true) ∧
    (let s : State := { st .run with cell := vmod State.reset.cell 0 (fun c => { c with step := .open_, ramping := true }) }
     (s.cell[(0 : Fin 4)]).ramping = true ∧ (s.cell[(0 : Fin 4)]).suspended = false) := by decide +kernel

/-- Waveform 15, of two points, at its last point on target 4, with passes left. -/
def stPlay (point passes : Nat) : State :=
  { st .run with wave.points := vset State.reset.wave.points 15 [1, 2],
                 wave.play := vset State.reset.wave.play 4
                   { st := .playing, wave := 15, point := point, passes := passes, period := 1, due := 0 } }

theorem witness_WaveformAndClearEvents :
    (let s := stPlay 0 1
     alive s = true ∧ (s.wave.play[(4 : Fin 5)]).st = .playing ∧ (s.wave.play[(4 : Fin 5)]).due ≤ s.t.up ∧
       (s.wave.play[(4 : Fin 5)]).point + 1 < (wavePts s (s.wave.play[(4 : Fin 5)]).wave).length) ∧
    (let s := stPlay 1 0
     (wavePts s (s.wave.play[(4 : Fin 5)]).wave).length ≤ (s.wave.play[(4 : Fin 5)]).point + 1 ∧ (s.wave.play[(4 : Fin 5)]).passes ≠ 1) ∧
    (let s := stPlay 1 1
     (wavePts s (s.wave.play[(4 : Fin 5)]).wave).length ≤ (s.wave.play[(4 : Fin 5)]).point + 1 ∧ (s.wave.play[(4 : Fin 5)]).passes = 1) ∧
    (let s : State := { st .run with aout.clrWas := false }
     s.aout.clrWas = false ∧ s.aout.clrLow = false) ∧
    (st .run).aout.clrWas ≠ false ∧ (st .run).aout.clrLow ≠ true := by decide +kernel

/-- 18 R782: of two low samples in a row the second takes the level. -/
theorem test_clr_n : (let low (s : State) : State := (match exec (.clrNLevel false) s with
      | .next t => t
      | _ => s)
    let s1 := low (st .run)
    let s2 := low { s1 with aout.clrWas := s1.aout.clrNow }
    (s1.aout.clrLow, s2.aout.clrLow, s2.aout.clrCount)) = (false, true, 1) := by decide +kernel

theorem witness_CaptureEvents :
    (let s : State := { stArmed with cfg := [(0x3080, 1)], trip.st := .dead, t.up := 100000 }
     pOn s 0x3080 = true ∧ s.trip.recogAt + pNat s 0x3081 ≤ s.t.up ∧ s.capt.phase = .recording ∧ s.trip.st = .dead) ∧
    (let s : State := { stArmed with capt.nextDue := true, t.up := 1 }
     s.capt.nextDue = true ∧ lastMade s.capt < s.t.up) ∧
    (let s : State := { stArmed with capt.fifo := [{ word := 0, at_ := 0, outside := false }] }
     s.capt.fifo = [{ word := 0, at_ := 0, outside := false }] ∧ s.capt.wroteAt ≠ some s.t.up ∧ s.capt.recs.length < 32768 ∧
       ([] : List FifoRec).takeWhile FifoRec.outside = [] ∧ s.capt.stopping = false) ∧
    stArmed.capt.fifo = [] ∧
    (stArmed.capt.phase = .recording ∧ stArmed.capt.stopping = false ∧ stArmed.capt.lostAt = none) ∧
    (let s : State := { stArmed with capt.lostAt := some 0 }
     s.capt.lostAt = some 0 ∧ s.capt.fifo = [] ∧ capRunning s = true ∧ s.capt.recs.length + 2 ≤ 32768) := by decide +kernel

/-! ### Witnesses: loads, energy and checks -/

/-- Heater 3 in step 0 of profile 15, which is this step. -/
def stHtr (w : BitVec 64) : State :=
  { st .run with profiles := vset State.reset.profiles 15 [w], htr := vmod State.reset.htr 3 (fun h => { h with prof := some 15 }) }

/-- Heater 3 in superframe `idx` of a LEADCAL, with this many good measurements. -/
def stLead (idx good p : Nat) : State :=
  { st .run with t.p := p, htr := vmod State.reset.htr 3 (fun h =>
      { h with lead := some { idx := idx, sumA := 32, sumB := 0, good := good, bad := false, noRs := false, d := 256, origin := orgPkt 5 } }) }

theorem witness_HeaterAndBridgeEvents :
    (let s := stHtr 0x0100000001000000
     (s.htr[(3 : Fin 4)]).prof = some 15 ∧ (s.htr[(3 : Fin 4)]).done < stDur (profStep s 15 (s.htr[(3 : Fin 4)]).step) ∧
       stMode (profStep s 15 (s.htr[(3 : Fin 4)]).step) = 1) ∧
    (let s := stHtr 0x0203E80001000000
     (s.htr[(3 : Fin 4)]).prof = some 15 ∧ (s.htr[(3 : Fin 4)]).done < stDur (profStep s 15 (s.htr[(3 : Fin 4)]).step) ∧
       stMode (profStep s 15 (s.htr[(3 : Fin 4)]).step) = 2 ∧ stRamp (profStep s 15 (s.htr[(3 : Fin 4)]).step) = false ∧
       0 < ionNow s 3 * ionNow s 3 * rhNow s 3) ∧
    (let s := stHtr 0x0403E80001000000
     (s.htr[(3 : Fin 4)]).prof = some 15 ∧ (s.htr[(3 : Fin 4)]).done < stDur (profStep s 15 (s.htr[(3 : Fin 4)]).step) ∧
       stMode (profStep s 15 (s.htr[(3 : Fin 4)]).step) = 4) ∧
    (let s := stHtr 0
     (s.htr[(3 : Fin 4)]).prof ≠ none ∧ (stepReady s 3).2 = true) ∧
    ((st .run).htr[(3 : Fin 4)]).prof = none ∧
    (let s : State := { st .run with t.p := 2, t.up := 514, htr := vmod State.reset.htr 3 (fun h =>
        { h with doneOn := true, doneDuty := 2048, doneSeen := true, doneI := 1 }) }
     s.t.p = 2 ∧ (s.htr[(3 : Fin 4)]).doneOn = true ∧ 514 ≤ s.t.up ∧ measValid (s.htr[(3 : Fin 4)]) = true ∧
       (s.htr[(3 : Fin 4)]).doneOld = false) ∧
    ((stLead 4 0 480).htr[(3 : Fin 4)]).lead = some { idx := 4, sumA := 32, sumB := 0, good := 0, bad := false, noRs := false, d := 256, origin := orgPkt 5 } ∧
    (stLead 4 0 480).t.p = 480 ∧
    ((stLead 35 32 2).htr[(3 : Fin 4)]).lead = some { idx := 35, sumA := 32, sumB := 0, good := 32, bad := false, noRs := false, d := 256, origin := orgPkt 5 } ∧
    (stLead 35 32 2).t.p = 2 ∧ (stLead 4 0 480).twin.mode ≠ 1 ∧ (31 : Nat) ≠ 32 ∧
    (let s : State := { st .run with htr := vmod State.reset.htr 3 (fun h => { h with prof := some 15, abort := some 1 }) }
     (s.htr[(3 : Fin 4)]).abort = some 1 ∧ htrRunning s 3 = true ∧ s.t.p = 0) ∧
    ((st .run).htr[(3 : Fin 4)]).abort = none ∧
    (let s : State := { st .run with brg := vmod State.reset.brg 1 (fun b => { b with running := true, task := 1 }) }
     (s.brg[(1 : Fin 2)]).running = true ∧ (s.brg[(1 : Fin 2)]).task ≠ 0) := by decide +kernel

/-- A tone run of a target, granted. -/
def zr (target : ZTarget) (ch inc : Nat) (t0 : Option Nat) : ZRun :=
  { task := 1, target := target, chans := [{ ch := ch, xs := [], win := none, invalid := false, ended := false }], inc := inc, cycles := 1,
    ampl := 1 / 100, granted := true, t0 := t0, tEnd := 0, pts := [] }

/-- That run, at phase p of a tick. -/
def stTone (r : ZRun) (p up : Nat) : State := { st .run with z := { State.reset.z with run := some r }, t.p := p, t.up := up }

theorem witness_DecisionsAndChecks :
    (let s : State := { st .run with t.p := 496 }
     alive s = true ∧ s.t.p = 496 ∧ s.twin.mode ≠ 1 ∧ s.twin.mode ≠ 3 ∧ s.sched.doneSf ≠ some s.t.sf) ∧
    (let s : State := { st .run with t.p := 496, sched.doneSf := some 0 }
     alive s = true ∧ s.t.p = 496 ∧ s.sched.doneSf = some s.t.sf) ∧
    (let s : State := { st .run with cfg := [(idZchk 3 0, 1)], t.sf := 1,
                                     chain := vmod State.reset.chain 0 (fun c => { c with started := true }) }
     alive s = true ∧ s.t.p = 0 ∧ periodicOwed s = false ∧ tasksFull s = false ∧ (List.range 14).filter (checkDue s) ≠ []) ∧
    (let r := zr (.film 3) 11 0 none
     (stTone r 4 4).z.run = some r ∧ r.granted = true ∧ r.t0 = none ∧ (stTone r 4 4).t.p = toneTick r) ∧
    (let r := zr (.cell 0) 0 8388608 (some 1)
     (stTone r 8 8).z.run = some r ∧ r.target = .cell 0 ∧ r.t0 = some 1 ∧ r.tEnd = 0 ∧ (stTone r 8 8).t.p % 8 = 0 ∧
       (stTone r 8 8).t.up + 1 < toneOver r 1) ∧
    (let r := zr (.film 3) 11 8 (some 4)
     (stTone r 11 11).z.run = some r ∧ r.t0 = some 4 ∧ r.tEnd = 0 ∧ (stTone r 11 11).t.p % 8 = 3 ∧
       (stTone r 11 11).t.up + 1 < toneOver r 4 ∧ r.inc ≠ 0 ∧ ((stTone r 11 11).t.up + 1 - 4) % r.inc = 0 ∧
       (frontOf (stTone r 11 11) 11).range ≠ 0) := by decide +kernel

/-! ### Witnesses: the pole link -/

/-- A join of a mode at the lead or the tail, begun in superframe 0. -/
def jn (mode : Nat) (lead : Bool) (commit : Option Nat) (acked : Bool) : Join :=
  { mode := mode, lead := lead, peg := if lead then 4 else 2, since := 0, client := 5, task := 1, hello := none, copied := false,
    commit := commit, acked := acked }

/-- A unit at peg 3 in a join. -/
def stJoin (j : Join) : State := { stPeg .idle with twin := { State.reset.twin with active := true, join := some j } }

/-- The HELLO that a lead's partner at peg 4 would send. -/
def hel (mode : Byte) : Hello :=
  { helloOf (stJoin (jn 1 true none false)) (jn 1 true none false) with hop := 4, peg := 4, mode := mode, partner := 3 }

theorem witness_JoinMessages :
    (let j := jn 1 true none false
     (stJoin j).twin.join = some j ∧ joinFail (stJoin j) j (hel 1) = none ∧ joinFail (stJoin j) j (hel 2) = some 5) ∧
    (let j := jn 2 false none false
     (stJoin j).twin.join = some j ∧ j.mode = 2 ∧ j.lead = false ∧ (2#8).toNat = j.mode) ∧
    ((stPair 3 .run).twin.join = none ∧ isTail (stPair 3 .run) = true ∧ (0x3102#16).toNat / 256 = 0x31 ∧
      captShared ((0x3102#16).toNat % 256) = true ∧ captShared ((0x3105#16).toNat % 256) = true ∧ (stPair 3 .run).twin.mode ≠ 0) ∧
    (let j := jn 1 true (some 0) true
     (stJoin j).twin.join = some j ∧ (stJoin j).t.p = 0 ∧ j.commit = some 0 ∧ 0 ≤ (stJoin j).t.sf ∧ j.acked = true) ∧
    (let j := jn 1 true (some 0) false
     (stJoin j).twin.join = some j ∧ j.lead = true ∧ j.acked = false ∧ (stJoin j).t.sf < j.since + pNat (stJoin j) (idTwin 0x10)) ∧
    (let s : State := { stJoin (jn 1 true none false) with t.sf := 60000 }
     s.twin.join = some (jn 1 true none false) ∧ (jn 1 true none false).since + pNat s (idTwin 0x10) ≤ s.t.sf) ∧
    (alive (stPair 1 .run) = true ∧ (stPair 1 .run).twin.active = true ∧ (st .run).twin.active = false) ∧
    leadSide (stPair 3 .run) = !leadSide (stPair 1 .run) ∧ (stPair 3 .run).ring.clk ≠ .backup ∧
    ({ st .run with ring.clk := .backup } : State).ring.clk = .backup := by decide +kernel

/-- A packet of client 5, and its part at the tail under handle 7. -/
def pkt (opc : Byte) : Packet := { bcast := false, src := 5, seq := 1, opc := opc, payload := [] }
def fw (opc : Byte) (done : Option Answer) : Fwd :=
  { handle := 7, pkt := pkt opc, own := none, tail := pkt opc, verdict := none, judged := none, commit := none, acked := false, done := done,
    status := 0, rlen := 0, data := [] }

/-- A Span lead that has forwarded it. -/
def stFwd (f : Fwd) (p : Nat) : State :=
  { stPair 1 .run with t.p := p, cmd.taken := [{ pkt := f.pkt, verdict := none, fwd := some 7 }],
                       twin := { (stPair 1 .run).twin with fwd := [f] } }

theorem witness_ForwardedPackets : isTail (stPair 4 .run) = true ∧ isTail (stPair 3 .run) = true ∧
    (let s := stFwd (fw 0x15 none) 440
     isLead s = true ∧ s.t.p ≤ 440 ∧ fwdOf s 7 = some (fw 0x15 none) ∧ (fw 0x15 none).commit = none ∧ (7#8) ≠ 0 ∧ s.t.p = 440 ∧
       s.cmd.taken = [{ pkt := pkt 0x15, verdict := none, fwd := some 7 }] ∧ s.t.p ≤ 496) ∧
    (let f := fw 0x48 (some (answer stDone []))
     fwdOf (stFwd f 0) 7 = some f ∧ f.done = some (answer stDone []) ∧ f.data = [] ∧ f.pkt.opc ≠ 0x02 ∧
       ([] : List Byte).length < 256) ∧
    (∀ s ∈ [stFwd (fw 0x48 (some (answer stDone []))) 0], isLead s = true) ∧
    (let j := jn 1 true (some 1) false
     (stJoin j).twin.join = some j ∧ j.commit = some 1 ∧ (stJoin j).t.sf + 1 = 1 ∧ (stJoin j).t.p ≤ 496 ∧ 0 < (stJoin j).t.sf + 1) := by
  decide +kernel

/-- A Span lead whose rule 15 watches the tail's channel 0 (alarm channel 32). -/
def stFar : State := { stPair 1 .run with cfg := [(idAlarm 1 15, 32)] }

/-- A request of task 1, in a REQ message. -/
def tq : TailReq := { task := 1, cls := 3, energy := 1, current := 0, allowance := 0, age := 0 }
def caps0 : TailCaps := { thermal := 0, current := 0, flags := 0 }

/-- A Span tail with a seal waiting for its energy. -/
def stTail (p : Nat) : State :=
  { stPair 3 .run with t.p := p, sched.tasks := [{ tsk (.sealLog false) with state := .waiting }],
                       twin := { (stPair 3 .run).twin with req := some (caps0, [tq]) } }

theorem witness_PairEnergyAndRules :
    (let s : State := { stPair 1 .run with t.p := 480, twin := { (stPair 1 .run).twin with req := some (caps0, [tq]) } }
     s.twin.mode = 1 ∧ alive s = true ∧ s.t.p = 480 ∧ s.sched.doneSf ≠ some s.t.sf ∧ s.twin.req = some (caps0, [tq])) ∧
    (farRule stFar (15#8).toNat = true ∧ (1#8).toNat < 2 ∧ stFar.twin.ruleWait = [] ∧ ((ruleOf stFar (15#8).toNat).st = .raised ↔ (1#8).toNat ≠ 1) ∧
      stFar.twin.mode = 1) ∧
    (let w : RuleWait := { rule := 15, was := .clear, next := .raised, up := 0, sf := 0 }
     let s : State := { stFar with twin := { stFar.twin with ruleWait := [w] } }
     farRule s (15#8).toNat = true ∧ s.twin.ruleWait = [w] ∧ w.rule = (15#8).toNat ∧ (w.next = .raised ↔ (1#8).toNat = 1) ∧
       s.log.entries.length < 4096) ∧
    ((stPair 3 .run).twin.mode = 3 ∧ (stPair 3 .run).twin.req = none ∧ isTail (stPair 3 .run) = true) ∧
    ((stTail 0).twin.req = some (caps0, [tq]) ∧ [tq].any (fun t => t.task == 1) = true ∧
      ((tailAll (stTail 0) (trialReqs (stTail 0))).find? (fun r => byteOf r.task == 1)).isSome = true ∧ (0#8).toNat % 4 = 0 ∧ (1#8).toNat % 4 ≠ 0 ∧
      (stTail 506).t.p = 506) ∧
    (let s : State := { stPair 1 .run with trip := { State.reset.trip with st := .armed, armId := 1 },
                                           capt := { State.reset.capt with armId := 1, placed := true, trigTick := 5 } }
     s.trip.st ≠ .disarmed ∧ s.trip.armId = 1 ∧ s.capt.armId = 1 ∧
       (pointKey s).any (fun p => decide (p.toNat ≤ (mkKey 6 0).toNat)) = true ∧
       (pointKey s).any (fun p => decide (p.toNat ≤ (mkKey 4 0).toNat)) = false) ∧
    ((stPair 1 .run).twin.mode ≠ 0 ∧ (stPair 1 .run).trip.st = .disarmed) := by decide +kernel

/-! ### Single results, worked out from the spec -/

/-- What a row's meaning leaves, or the state before a stop. -/
def after (o : Host.Outcome State Fault Refusal) (s : State) : State :=
  match o with
  | .next t => t
  | _ => s

/-- A row's effect on a state. -/
def run (i : Instr) (s : State) : State := after (exec i s) s

/-- The status byte and the data of the first queued reply. -/
def reply (s : State) : Option (Byte × List Byte) := s.cmd.replies.head?.map (fun r => (r.ans.status, r.ans.data))

/-- The check values of 00 and of 01 R60. -/
theorem test_crc : (let b := [0x31, 0x32, 0x33, 0x34, 0x35, 0x36, 0x37, 0x38, 0x39]
    crc8 b = 0xA1 ∧ crc16 b = 0x29B1 ∧ crc32 b = 0xCBF43926) := by decide +kernel

/-- The packet of 06, "a STATE query". -/
theorem test_packet_state_query : packetBytes 6 { bcast := false, src := 2, seq := 0x11, opc := 5, payload := [] } =
    [0x06, 0x02, 0x11, 0x05, 0x00, 0xBA, 0x47] := by decide +kernel

/-- 07 R330: each entry's check, the first one against the chain's seed. -/
theorem test_reset_chain : bootEntries.map (fun e => (e.event, e.check)) =
    [(0x0001, chainCheck LogSt0.newestCheck (bootEntries.headD ent)),
     (0x0002, chainCheck ((bootEntries.headD ent).check) (bootEntries.getD 1 ent))] := by decide +kernel

/-- 20, the Reset column of FILT's read-only values: P 256, S 4 221, G 2 110. -/
theorem test_chain_reset_figures : chainP State.reset 0 = 256 ∧ chainS State.reset 0 = 4221 ∧ chainG State.reset 0 = 2110 := by
  decide +kernel

/-- 22: C = 256, BYPASS, A = 16 gives P 4 096, S 4 861, G 2 430, N_G 2 and P_SCS 8 192. -/
theorem test_chain_figures : (let s : State := { st .idle with cfg := [(idFilt 0 0, 5), (idFilt 0 1, 0), (idFilt 0 4, 16)] }
    chainP s 0 = 4096 ∧ chainS s 0 = 4861 ∧ chainG s 0 = 2430 ∧ chainNG s 0 = 2 ∧ chainPscs s 0 = 8192) := by decide +kernel

/-- 12 R532: a constant +15 at C = 8 settles to 15 · C⁴. -/
theorem test_cic_constant : ((List.range 40).foldl (fun (p : Vector (BitVec 37) 4 × Vector (BitVec 37) 4 × Int) i =>
      let a := integrate p.1 15
      if i % 8 = 7 then (a, combs p.2.1 (vget a 3 0)) else (a, p.2))
    (Vector.replicate 4 0, Vector.replicate 4 0, 0)).2.2 = 15 * 8 ^ 4 := by decide +kernel

/-- 05 R242, 22: NEXT_PEG 0x80 returns as 0x94 after forty units. -/
theorem test_pitch_forty_units : (List.range 40).foldl (fun n _ => addOne n) 0x80 = 0x94 := by decide +kernel

/-- 05, PITCH ALL: the third unit takes peg 3 and hop 3, and writes PEG_SET. -/
theorem test_pitch_all : (let t := run (.pitchAll (byteOf (rev8 3))) { stPeg .idle with ring.peg := 0, ring.hop := 0 }
    t.ring.peg = 3 ∧ t.ring.hop = 3 ∧ (t.log.entries.getLastD ent).new = 0x0303) := by decide +kernel

/-- 22: the first alignment at hop 40, HTICK 10 240 and CABLE_CLK 0, aims at 10 756. -/
theorem test_first_alignment : (let h := hSeal (hPut (hPut hdrW 64 48 10240) 408 8 0) 0
    (run (.superframeHeader h 0) { stPeg .idle with ring.hop := 40, t.p := 16 }).t.fix.map Fix.target = some 10756) := by decide +kernel

/-- 04 R193: a poisoned header is counted and moves no time. -/
theorem test_poisoned_header : (let t := run (.superframeHeader (hSeal hdrW 1) 0) { stPeg .idle with t.p := 16 }
    t.ring.hdr = .poisoned ∧ t.ring.poisoned = 1 ∧ t.t.fix = none) := by decide +kernel

/-- 22: RATION 338 and SHARE 512 give income 676 and net 616. -/
theorem test_income : (let s : State := { stPeg .run with cfg := [(idSched 0, 512)], t.p := 496,
                                                          ring := { (stPeg .run).ring with ration := 338, anyGood := true } }
    (run .schedulerDecision s).sched.last.map (fun d => (d.rin, d.share, d.income, d.net)) = some (338, 512, 676, 616)) := by
  decide +kernel

/-- 03 R125: the thirteen bytes after reset: IDLE, no flag set by a fault, RCAUSE 0, no cause, the change at era 0, tick 0. -/
theorem test_state_query : (reply (run (.stateQuery hdr) State.reset)).map (fun r => (r.1, r.2.length, r.2.head?, r.2.drop 2)) =
    some (0, 13, some 1, [0, 0, 0, 0, 0, 0, 0, 0, 0, 0, 0]) := by decide +kernel

/-- 06: an ID that names no parameter is BADID with its position, and no pair applies. -/
theorem test_setp_badid : (let t := run (.setp hdr [(0x0600, 1), (0xFF00, 1)]) (st .idle)
    (reply t).map Prod.fst = some 0x12 ∧ t.cfg = []) := by decide +kernel

/-- 03 R126: CHSTART outside RUN is WRONG_STATE. -/
theorem test_chstart_idle : (reply (run (.chstart hdr (mask 0)) (st .idle))).map Prod.fst = some 0x16 := by decide +kernel

/-- 06 R285: a repeated SEQ of the same client is answered SEQDUP's record and not carried out again. -/
theorem test_duplicate : (let t := run (.logmark hdr 1 2) (run (.logmark hdr 1 2) (st .idle))
    t.log.entries.length = 3) := by decide +kernel

/-- 07, "first claim and its entry". -/
theorem test_claim_entry : (let s : State := { stFree with t.count := 320512, t.era := 3, log.nextSeq := 18,
                                                           t.marks := [{ up := 0, count := 320512, era := 3 }],
                                                           fac.claim := [0x37, 0x4B, 0x33, 0x50, 0x39, 0x32, 0x51, 0x44] }
    let t := run (.claimCoded hdr 3 0x374B335039325144) s
    let e := t.log.entries.getLastD ent
    reply t = some (0, [3]) ∧ e.seq = 0x12 ∧ e.era = 3 ∧ e.tick = 0x4E400 ∧ e.origin = 0x0501 ∧ e.event = 0x0020 ∧
      e.subject = 0x0385 ∧ e.old = 0 ∧ e.new = 3 ∧ e.check = chainCheck s.log.newestCheck e) := by decide +kernel

/-- 08 R372, 22: WALL 1 767 247 200 000 at TICK 548 352. -/
theorem test_timeset : (run (.timeset hdr 1767247200000 548352) (stTime none)).t.off = some (512 * 1767247200000 - 548352) := by
  decide +kernel

/-- 09, "a bias ramp": code 4 096 for −0.600 V, reached after 30 720 001 ticks. -/
theorem test_bias_ramp : (let s : State := { stOpen with cfg := [(idCell 0 0, 0xBF19999A), (idCell 0 1, 0x3C23D70A)] }
    storedOf (idCell 0 0) 0xBF199A00 = 0xBF19999A ∧ biasCode (pVal s (idCell 0 0)) = 4096 ∧ biasCode (rampAfter s 0 3750) = 8192 ∧ biasCode (rampAfter s 0 3751) = 8191 ∧
      rampAfter s 0 30720000 ≠ cellGoal s 0 ∧ rampAfter s 0 30720001 = cellGoal s 0) := by decide +kernel

/-- 14, "two slew slots on one splash": slot 1's crossings and its trigger. -/
theorem test_slew_slot : (let g : SlotCfg := { pol := false, type := 3, mode := 0, a := 1 / 10, b := 4 / 10, rel := 0, tmin := 256 * 256, tmax := 0 }
    let p1 : Pair := { ta := 999935, va := 5 / 100, tb := 999999, vb := 18 / 100 }
    let p2 : Pair := { ta := 1000063, va := 30 / 100, tb := 1000127, vb := 43 / 100 }
    let k := (trackSlew g p1 (trackInit g 999935 (5 / 100))).1
    k.at_ = 999959 * 256 + 0x80 ∧ (trackSlew g p2 k).2 = some (1000112 * 256 + 0x40)) := by decide +kernel

/-- 20, "reading a supply": the sample word and the value of channel 20. -/
theorem test_house_sample : wordOf (smp 5033165 0 20) = 0x4CCCCD14 ∧ convert State.reset 20 0 5033165 = 5033165 * 8 / 8388608 := by
  decide +kernel

/-- 15 R673, 22: COMPLETE with the ring fire received is 0x41. -/
theorem test_close_status : captStatus { CaptSt0 with close := 1, gotFire := true } = 0x41 := by decide +kernel

/-- 11 R511: HEATSTOP ends a running profile. -/
theorem test_heatstop : (let t := run (.heatstop hdr 8) (stHtr 0x0100000001000000)
    htrRunning t 3 = false ∧ reply t = some (0, [])) := by decide +kernel

/-- 01 R53: a BIAS frame of cells 1 and 3 reads back as sent. -/
theorem test_down_frame : downParse (downWord 0x1234 (.bias (some (1, 0x2000)) (some (3, 0x1FFF)))) =
    .bias (some (1, 0x2000)) (some (3, 0x1FFF)) := by decide +kernel
end Sys2Proof.Tests
end

section
/-! SUPPORT. The invariant of every state (01 R43, 06 R290, 07 R338, 20 R883): it holds at reset, and each row of the table keeps it. -/

namespace Sys2Proof.Machine

section
variable {Q : List Instr} {C : List (Nat × Word) → Prop} {U : UnitSt → Prop} {B : Prop}

/-- One case for each row of the table, by what its meaning keeps. -/
theorem exec_keeps {s : State} (hC : CfgClosed C) (hU : UFree U) (hk : Keeps Q C U B s) :
    ∀ i : Instr, Keeps Q C U B (outState s (exec i s))
  | .powerOn _ => execPowerOn_keeps hC hU hk
  | .brownOut _ => execBrownOut_keeps hC hU hk
  | .resetPin _ => execResetPin_keeps hC hU hk
  | .claimHoldoffEnd => execClaimHoldoffEnd_keeps hk
  | .fieldDieReset => execFieldDieReset_keeps hk
  | .vhtrPresentChange _ => execVhtrPresentChange_keeps hk
  | .vdrvPresentChange _ => execVdrvPresentChange_keeps hk
  | .missingEdge => execMissingEdge_keeps hk
  | .clockReturn => execClockReturn_keeps hk
  | .sckLoss => execSckLoss_keeps hk
  | .wakeCki _ => execWakeCki_keeps hC hU hk
  | .wakePin _ => execWakePin_keeps hC hU hk
  | .wakeInVigil => execWakeInVigil_keeps hk
  | .dormantArm _ => execDormantArm_keeps hU hk
  | .dormantEntry => execDormantEntry_keeps hC hU hk
  | .resetStart _ => execResetStart_keeps hC hU hk
  | .upFrame _ => execUpFrame_keeps hU hk
  | .downFrame _ => execDownFrame_keeps hk
  | .downFrameTimeout => execDownFrameTimeout_keeps hk
  | .driveWordApply => execDriveWordApply_keeps hU hk
  | .housekeepingStep => execHousekeepingStep_keeps hk
  | .superframeHeader _ _ => execSuperframeHeader_keeps hU hk
  | .headerArm _ => execHeaderArm_keeps hk
  | .headerDisarm _ => execHeaderDisarm_keeps hk
  | .headerSync _ => execHeaderSync_keeps hk
  | .pitchAll _ => execPitchAll_keeps hk
  | .pitchCount _ => execPitchCount_keeps hk
  | .pitchFill _ => execPitchFill_keeps hk
  | .pitchSticky _ => execPitchSticky_keeps hk
  | .pitchDrop _ => execPitchDrop_keeps hk
  | .pitchMeasure _ => execPitchMeasure_keeps hk
  | .bulkGrant _ _ => execBulkGrant_keeps hk
  | .firePass _ => execFirePass_keeps hk
  | .resolvePass _ _ => execResolvePass_keeps hk
  | .confirmPass _ _ => execConfirmPass_keeps hk
  | .beaconHeader _ => execBeaconHeader_keeps hk
  | .orphanBeacon => execOrphanBeacon_keeps hk
  | .dataLossBeacon => execDataLossBeacon_keeps hk
  | .slotWrite _ => execSlotWrite_keeps hU hk
  | .pegClashRelease => execPegClashRelease_keeps hk
  | .commandWindow _ => execCommandWindow_keeps hU hk
  | .eventLost => execEventLost_keeps hk
  | .nop _ => execNop_keeps hC hU hk
  | .hello _ => execHello_keeps hC hU hk
  | .getp _ _ => execGetp_keeps hC hU hk
  | .setp _ _ => execSetp_keeps hC hU hk
  | .getblk _ _ _ _ => execGetblk_keeps hC hU hk
  | .stateQuery _ => execStateQuery_keeps hC hU hk
  | .stateIdle _ => execStateIdle_keeps hC hU hk
  | .stateRun _ => execStateRun_keeps hC hU hk
  | .stateVigil _ => execStateVigil_keeps hC hU hk
  | .stateSafe _ => execStateSafe_keeps hC hU hk
  | .stateDormant _ => execStateDormant_keeps hC hU hk
  | .resetCmd _ => execResetCmd_keeps hC hU hk
  | .resetDefaults _ => execResetDefaults_keeps hC hU hk
  | .claimCoded _ _ _ => execClaimCoded_keeps hC hU hk
  | .claimQuery _ _ => execClaimQuery_keeps hC hU hk
  | .grant _ _ _ => execGrant_keeps hC hU hk
  | .release _ => execRelease_keeps hC hU hk
  | .rightsRecordWrite _ => execRightsRecordWrite_keeps hC hk
  | .logread _ _ _ _ _ => execLogread_keeps hC hU hk
  | .logseal _ => execLogseal_keeps hC hU hk
  | .logSealTask _ => execLogSealTask_keeps hk
  | .logmark _ _ _ => execLogmark_keeps hC hU hk
  | .logFreeTo _ _ => execLogFreeTo_keeps hC hU hk
  | .logPolicy _ _ => execLogPolicy_keeps hC hU hk
  | .timeset _ _ _ => execTimeset_keeps hC hU hk
  | .slewStep => execSlewStep_keeps hk
  | .counterWrap => execCounterWrap_keeps hC hU hk
  | .timeq _ => execTimeq_keeps hC hU hk
  | .chstart _ _ => execChstart_keeps hC hU hk
  | .chstop _ _ => execChstop_keeps hC hU hk
  | .range _ _ _ => execRange_keeps hC hU hk
  | .rangeChangeRelease _ => execRangeChangeRelease_keeps hk
  | .decadeChangeRelease _ => execDecadeChangeRelease_keeps hk
  | .snap _ _ => execSnap_keeps hC hU hk
  | .stream _ _ _ => execStream_keeps hC hU hk
  | .firload _ _ _ _ => execFirload_keeps hC hU hk
  | .firsel _ _ _ _ => execFirsel_keeps hC hU hk
  | .dcfreeze _ _ _ => execDcfreeze_keeps hC hU hk
  | .syncnow _ => execSyncnow_keeps hC hU hk
  | .syncPin => execSyncPin_keeps hk
  | .syncReset => execSyncReset_keeps hk
  | .scsBoundary _ => execScsBoundary_keeps hk
  | .calwrite _ _ _ _ => execCalwrite_keeps hC hU hk
  | .calwriteDone _ => execCalwriteDone_keeps hC hk
  | .biasEnable _ _ => execBiasEnable_keeps hC hU hk
  | .biasDisable _ _ => execBiasDisable_keeps hC hU hk
  | .cellEnableStep _ => execCellEnableStep_keeps hk
  | .cellDisableStep _ => execCellDisableStep_keeps hk
  | .biasRampStep _ => execBiasRampStep_keeps hk
  | .cellBiasWrite _ _ _ => execCellBiasWrite_keeps hC hU hk
  | .cellRampWrite _ _ _ => execCellRampWrite_keeps hC hU hk
  | .autorangeWrite _ _ _ _ => execAutorangeWrite_keeps hC hU hk
  | .leadCapture _ _ _ => execLeadCapture_keeps hC hU hk
  | .phaseTicks _ _ _ => execPhaseTicks_keeps hC hU hk
  | .phaseFrac _ _ _ => execPhaseFrac_keeps hC hU hk
  | .cableClk _ _ => execCableClk_keeps hC hU hk
  | .ridgeTerm _ _ => execRidgeTerm_keeps hC hU hk
  | .tallyWindowWrite _ _ _ _ => execTallyWindowWrite_keeps hC hU hk
  | .alarmEnable _ _ _ => execAlarmEnable_keeps hC hU hk
  | .waveSize _ _ _ => execWaveSize_keeps hC hU hk
  | .aoutEnable _ _ => execAoutEnable_keeps hC hU hk
  | .sampleOutput _ => execSampleOutput_keeps hC hU hk
  | .tripwireAutoRearm => execTripwireAutoRearm_keeps hk
  | .nextSegment => execNextSegment_keeps hk
  | .fifoWrite => execFifoWrite_keeps hk
  | .preRingDiscard => execPreRingDiscard_keeps hk
  | .overflowEvent => execOverflowEvent_keeps hk
  | .alarmack _ _ => execAlarmack_keeps hC hU hk
  | .tallyread _ _ => execTallyread_keeps hC hU hk
  | .tallyclear _ _ => execTallyclear_keeps hC hU hk
  | .sentinelBurst => execSentinelBurst_keeps hk
  | .sentinelBurstEnd => execSentinelBurstEnd_keeps hk
  | .schedulerDecision => execSchedulerDecision_keeps hk
  | .profileAbort _ => execProfileAbort_keeps hk
  | .heaterMeasurement _ => execHeaterMeasurement_keeps hU hk
  | .heaterLoop _ => execHeaterLoop_keeps hk
  | .bridgeLoop _ => execBridgeLoop_keeps hk
  | .heatrun _ _ _ => execHeatrun_keeps hC hU hk
  | .heatstop _ _ => execHeatstop_keeps hC hU hk
  | .profload _ _ _ _ => execProfload_keeps hC hU hk
  | .leadcal _ _ => execLeadcal_keeps hC hU hk
  | .leadcalSwitch _ => execLeadcalSwitch_keeps hk
  | .leadcalDone _ => execLeadcalDone_keeps hC hk
  | .zcheck _ _ => execZcheck_keeps hC hU hk
  | .periodicCheckDue => execPeriodicCheckDue_keeps hk
  | .toneStart => execToneStart_keeps hk
  | .toneCode => execToneCode_keeps hk
  | .filmToneToggle => execFilmToneToggle_keeps hk
  | .triparm _ _ _ => execTriparm_keeps hC hU hk
  | .tripdisarm _ _ => execTripdisarm_keeps hC hU hk
  | .tripforce _ _ => execTripforce_keeps hC hU hk
  | .capread _ _ _ _ => execCapread_keeps hC hU hk
  | .capstat _ => execCapstat_keeps hC hU hk
  | .capclear _ => execCapclear_keeps hC hU hk
  | .aoutset _ _ => execAoutset_keeps hC hU hk
  | .aoutrange _ _ => execAoutrange_keeps hC hU hk
  | .clrNLevel _ => execClrNLevel_keeps hk
  | .waveload _ _ _ _ => execWaveload_keeps hC hU hk
  | .waveplay _ _ _ _ _ => execWaveplay_keeps hC hU hk
  | .wavePoint _ => execWavePoint_keeps hk
  | .wavestop _ _ => execWavestop_keeps hC hU hk
  | .twinjoin _ _ _ => execTwinjoin_keeps hC hU hk
  | .twinsplit _ => execTwinsplit_keeps hC hU hk
  | .twinstat _ => execTwinstat_keeps hC hU hk
  | .nvsave _ _ => execNvsave_keeps hC hU hk
  | .nvsaveDone _ _ => execNvsaveDone_keeps hC hk
  | .nvload _ _ => execNvload_keeps hC hU hk
  | .nvLoadApply _ => execNvLoadApply_keeps hC hk
  | .taskq _ _ => execTaskq_keeps hC hU hk
  | .rationq _ => execRationq_keeps hC hU hk
  | .fieldread _ _ => execFieldread_keeps hC hU hk
  | .pins _ => execPins_keeps hC hU hk
  | .poleExchange _ => execPoleExchange_keeps hC hU hk
  | .twinHello _ => execTwinHello_keeps hk
  | .twinConf _ => execTwinConf_keeps hC hk
  | .twinJoin _ _ => execTwinJoin_keeps hk
  | .pairCommit => execPairCommit_keeps hk
  | .joinTimeout => execJoinTimeout_keeps hk
  | .twinFwd _ _ _ _ _ => execTwinFwd_keeps hC hU hk
  | .twinVerdict _ _ _ => execTwinVerdict_keeps hk
  | .leadPacketDecide => execLeadPacketDecide_keeps hk
  | .twinCommit _ _ => execTwinCommit_keeps hk
  | .twinAck _ => execTwinAck_keeps hk
  | .twinAnswer _ _ _ _ _ => execTwinAnswer_keeps hk
  | .twinReq _ _ => execTwinReq_keeps hk
  | .pairDecision => execPairDecision_keeps hk
  | .twinGrant _ => execTwinGrant_keeps hk
  | .twinRule _ _ _ _ => execTwinRule_keeps hk
  | .twinTrig _ _ source type _ => execTwinTrig_keeps (_source := source) (_type := type) hk
  | .twinSlot _ _ _ _ => execTwinSlot_keeps hk
  | .twinSplitMsg _ => execTwinSplitMsg_keeps hk
  | .tick => execTick_keeps hC hU hk
  | .vddaReturn => execVddaReturn_keeps hk
  | .tailGrantTimeout => execTailGrantTimeout_keeps hk

end

/-- The canonical form of the configuration list is kept by every write and holds of the empty list. -/
theorem cfgClosed_cfgWf : CfgClosed (fun c => cfgWf c = true) :=
  ⟨fun _ id w h => cfgWf_cfgSet h id w, rfl⟩

/-- The invariant says what `Keeps` says of the canonical form and the bounds, whatever the queue holds. -/
theorem Inv.keeps {s : State} (h : Inv s) (q : List Instr) :
    Keeps q (fun c => cfgWf c = true) (fun _ => True) True { s with pending := q } :=
  ⟨rfl, h.config, trivial, fun _ => h.phase, fun _ => h.log, fun _ => h.events⟩

theorem Inv.of_keeps {s : State} {q : List Instr} (h : Keeps q (fun c => cfgWf c = true) (fun _ => True) True s) : Inv s :=
  ⟨h.phase trivial, h.config, h.log trivial, h.events trivial⟩

theorem exec_inv {i : Instr} {s t : State} {q : List Instr} (h : Inv s) (e : exec i { s with pending := q } = .next t) : Inv t := by
  have k := exec_keeps cfgClosed_cfgWf (fun _ => trivial) (h.keeps q) i
  rw [e] at k
  exact .of_keeps k

/-- Settles O4: at reset the phase is 0, no parameter has left its Reset column, two entries stand and no event waits. -/
theorem resetHasInvariant : Obligations.ResetHasInvariant :=
  ⟨by decide, rfl, by decide, by decide⟩

/-- Settles O5: an idle step changes nothing, and any other runs the front command, which keeps the invariant. -/
theorem stepKeepsInvariant : Obligations.StepKeepsInvariant := by
  intro s t h e
  unfold step at e
  cases hp : s.pending with
  | nil =>
    rw [hp] at e
    cases e
    exact h
  | cons c rest =>
    rw [hp] at e
    exact exec_inv h e

end Sys2Proof.Machine
end

section
/-! SUPPORT. The frames of the Seam (01 R47, R52, R53, R60): a frame is its bytes followed by their CRC, so its receiver finds the CRC
good and reads each field where it was laid. -/

namespace Sys2Proof.Machine

/-! ### Bytes with their CRC -/

theorem crcBit_lt (reg : Nat) (b : Bool) : crcBit 8 0x07 reg b < 2 ^ 8 := by
  unfold crcBit
  dsimp only
  split
  · exact Nat.xor_lt_two_pow (Nat.mod_lt _ (by decide)) (by decide)
  · exact Nat.mod_lt _ (by decide)

theorem crcBits_lt (k x : Nat) {reg : Nat} (h : reg < 2 ^ 8) : crcBits 8 0x07 k x reg < 2 ^ 8 := by
  induction k generalizing reg with
  | zero => exact h
  | succ k ih => exact ih (crcBit_lt _ _)

theorem crc8_lt (bs : List Byte) : crc8 bs < 256 := by
  have h : ∀ reg < 2 ^ 8, bs.foldl (fun reg b => crcBits 8 0x07 8 b.toNat reg) reg < 2 ^ 8 := by
    induction bs with
    | nil => exact fun _ h => h
    | cons b bs ih => exact fun reg h => ih _ (crcBits_lt 8 b.toNat h)
  exact Nat.xor_lt_two_pow (h 0 (by decide)) (by decide)

/-- `k` bytes and their CRC as one number, in a word wide enough. -/
theorem withCrc_toNat {k x w : Nat} (hx : x < 256 ^ k) (hw : 256 ^ k * 256 ≤ 2 ^ w) :
    (BitVec.ofNat w (beNat (beBytes k x) * 256 + crc8 (beBytes k x))).toNat = x * 256 + crc8 (beBytes k x) := by
  have hc := crc8_lt (beBytes k x)
  rw [beNat_beBytes, Nat.mod_eq_of_lt hx, BitVec.toNat_ofNat, Nat.mod_eq_of_lt]
  calc x * 256 + crc8 (beBytes k x) < (x + 1) * 256 := by omega
    _ ≤ 256 ^ k * 256 := Nat.mul_le_mul_right 256 hx
    _ ≤ 2 ^ w := hw

/-- A word read from a number that spells it in its low bits. -/
theorem ofNat_eq_of_mod {w n : Nat} {v : BitVec w} (h : n % 2 ^ w = v.toNat) : BitVec.ofNat w n = v :=
  BitVec.eq_of_toNat_eq (by rw [BitVec.toNat_ofNat, h])

theorem b2n_le (b : Bool) : b2n b ≤ 1 := by cases b <;> decide

/-- A flag read from a number that holds it at that bit. -/
theorem bit_eq_of_mod {x i : Nat} {b : Bool} (h : x / 2 ^ i % 2 = b2n b) : bit x i = b := by
  rw [bit, Nat.testBit_eq_decide_div_mod_eq, h]
  cases b <;> rfl

/-! ### Down frames -/

theorem biasSlot_lt {a : Option (Nat × BitVec 14)} (h : slotOk a = true) : biasSlot a < 2 ^ 17 := by
  cases a with
  | none => decide
  | some p =>
    obtain ⟨k, c⟩ := p
    have hk : k < 4 := by simpa [slotOk] using h
    have hc := c.isLt
    simp only [biasSlot]
    omega

theorem slotParse_biasSlot {a : Option (Nat × BitVec 14)} (h : slotOk a = true) : slotParse (biasSlot a) = a := by
  cases a with
  | none => rfl
  | some p =>
    obtain ⟨k, c⟩ := p
    have hk : k < 4 := by simpa [slotOk] using h
    have hc := c.isLt
    have hb : bit (2 ^ 16 + k * 2 ^ 14 + c.toNat) 16 = true := bit_eq_of_mod (b := true) (by rw [b2n, if_pos rfl]; omega)
    have hcell : (2 ^ 16 + k * 2 ^ 14 + c.toNat) / 2 ^ 14 % 4 = k := by omega
    have hcode : BitVec.ofNat 14 (2 ^ 16 + k * 2 ^ 14 + c.toNat) = c := ofNat_eq_of_mod (by omega)
    simp only [slotParse, biasSlot, hb, if_true, hcell, hcode]

/-- TYPE and payload fill 48 bits, of which the last twelve are free. -/
theorem frameBits_bound {f : DownFrame} (h : frameOk f = true) : f.bits < 2 ^ 48 ∧ f.bits % 2 ^ 12 = 0 := by
  cases f with
  | bias a b =>
    obtain ⟨ha, hb⟩ : slotOk a = true ∧ slotOk b = true := by simpa [frameOk] using h
    have := biasSlot_lt ha
    have := biasSlot_lt hb
    simp only [DownFrame.bits]
    omega
  | drive p lo hi =>
    have hp : p < 4 := by simpa [frameOk] using h
    have := lo.isLt
    have := hi.isLt
    simp only [DownFrame.bits]
    omega
  | reg rd a d =>
    have := a.isLt
    have := d.isLt
    have := b2n_le rd
    simp only [DownFrame.bits]
    omega
  | idle => decide

/-- A down frame as a number: code, TYPE and payload, CRC. -/
theorem downWord_toNat (c : BitVec 16) {f : DownFrame} (h : frameOk f = true) :
    (downWord c f).toNat = c.toNat * 2 ^ 48 + f.bits + crc8 (beBytes 7 ((c.toNat * 2 ^ 48 + f.bits) / 256)) := by
  obtain ⟨hl, hz⟩ := frameBits_bound h
  have hc := c.isLt
  have hx : (c.toNat * 2 ^ 48 + f.bits) / 256 < 256 ^ 7 := by omega
  rw [downWord, withCrc_toNat hx (by decide)]
  omega

/-- A down frame as its receiver splits it: the code, then a rest whose fields stand above bit 8. -/
theorem downWord_split (c : BitVec 16) {f : DownFrame} (h : frameOk f = true) :
    ∃ r < 256, (downWord c f).toNat = c.toNat * 2 ^ 48 + f.bits + r :=
  ⟨_, crc8_lt _, downWord_toNat c h⟩

theorem downWord_aout (c : BitVec 16) {f : DownFrame} (h : frameOk f = true) :
    BitVec.ofNat 16 ((downWord c f).toNat / 2 ^ 48) = c := by
  obtain ⟨hl, hz⟩ := frameBits_bound h
  obtain ⟨r, hr, e⟩ := downWord_split c h
  have hc := c.isLt
  exact ofNat_eq_of_mod (by omega)

theorem downWord_crc (c : BitVec 16) {f : DownFrame} (h : frameOk f = true) :
    crc8 (beBytes 7 ((downWord c f).toNat / 256)) = (downWord c f).toNat % 256 := by
  obtain ⟨hl, hz⟩ := frameBits_bound h
  have e := downWord_toNat c h
  have hr := crc8_lt (beBytes 7 ((c.toNat * 2 ^ 48 + f.bits) / 256))
  have hq : (downWord c f).toNat / 256 = (c.toNat * 2 ^ 48 + f.bits) / 256 := by omega
  rw [hq]
  omega

theorem downParse_downWord (c : BitVec 16) {f : DownFrame} (h : frameOk f = true) : downParse (downWord c f) = f := by
  obtain ⟨r, hr, e⟩ := downWord_split c h
  unfold downParse
  dsimp only
  cases f with
  | bias a b =>
    obtain ⟨ha, hb⟩ : slotOk a = true ∧ slotOk b = true := by simpa [frameOk] using h
    have la := biasSlot_lt ha
    have lb := biasSlot_lt hb
    simp only [DownFrame.bits] at e
    have ht : (downWord c (.bias a b)).toNat / 2 ^ 46 % 4 = 0 := by omega
    have h1 : (downWord c (.bias a b)).toNat / 2 ^ 29 % 2 ^ 17 = biasSlot a := by omega
    have h2 : (downWord c (.bias a b)).toNat / 2 ^ 12 % 2 ^ 17 = biasSlot b := by omega
    simp only [ht, h1, h2, slotParse_biasSlot ha, slotParse_biasSlot hb]
  | drive p lo hi =>
    have hp : p < 4 := by simpa [frameOk] using h
    have := lo.isLt
    have := hi.isLt
    simp only [DownFrame.bits] at e
    have ht : (downWord c (.drive p lo hi)).toNat / 2 ^ 46 % 4 = 1 := by omega
    have h1 : (downWord c (.drive p lo hi)).toNat / 2 ^ 44 % 4 = p := by omega
    have h2 : BitVec.ofNat 16 ((downWord c (.drive p lo hi)).toNat / 2 ^ 28) = lo := ofNat_eq_of_mod (by omega)
    have h3 : BitVec.ofNat 16 ((downWord c (.drive p lo hi)).toNat / 2 ^ 12) = hi := ofNat_eq_of_mod (by omega)
    simp only [ht, h1, h2, h3]
  | reg rd a d =>
    have := a.isLt
    have := d.isLt
    simp only [DownFrame.bits] at e
    have hrd := b2n_le rd
    have ht : (downWord c (.reg rd a d)).toNat / 2 ^ 46 % 4 = 2 := by omega
    have h1 : bit (downWord c (.reg rd a d)).toNat 45 = rd := bit_eq_of_mod (by omega)
    have h2 : BitVec.ofNat 8 ((downWord c (.reg rd a d)).toNat / 2 ^ 37) = a := ofNat_eq_of_mod (by omega)
    have h3 : BitVec.ofNat 16 ((downWord c (.reg rd a d)).toNat / 2 ^ 21) = d := ofNat_eq_of_mod (by omega)
    simp only [ht, h1, h2, h3]
  | idle =>
    simp only [DownFrame.bits] at e
    have ht : (downWord c .idle).toNat / 2 ^ 46 % 4 = 3 := by omega
    simp only [ht]

/-! ### Up frames -/

/-- What an up frame holds before its CRC, as a number. -/
def upBody (codes : BitVec 92) (flags stat : Nat) : Nat := codes.toNat * 2 ^ 28 + flags * 2 ^ 20 + stat * 2 ^ 12

theorem upBody_lt (codes : BitVec 92) (flags : BitVec 8) {stat : Nat} (h : stat < 256) :
    upBody codes flags.toNat stat < 256 ^ 15 := by
  have := codes.isLt
  have := flags.isLt
  simp only [upBody]
  omega

/-- An up frame without errors as a number. -/
theorem upFrame_toNat (codes : BitVec 92) (flags : BitVec 8) {stat : Nat} (h : stat < 256) :
    (upFrame codes flags.toNat stat 0).toNat =
      upBody codes flags.toNat stat * 256 + crc8 (beBytes 15 (upBody codes flags.toNat stat)) := by
  rw [← withCrc_toNat (upBody_lt codes flags h) (show 256 ^ 15 * 256 ≤ 2 ^ 128 by decide)]
  exact congrArg BitVec.toNat (BitVec.xor_zero ..)

theorem upFrame_good (codes : BitVec 92) (flags : BitVec 8) {stat : Nat} (h : stat < 256) :
    upGood (upFrame codes flags.toNat stat 0) = true := by
  have hc := crc8_lt (beBytes 15 (upBody codes flags.toNat stat))
  have e := upFrame_toNat codes flags h
  have hq : (upFrame codes flags.toNat stat 0).toNat / 256 = upBody codes flags.toNat stat := by omega
  rw [upGood, hq, beq_iff_eq]
  omega

/-- Its codes, FLAGS and rotation byte stand where they are read. -/
theorem upFrame_fields (codes : BitVec 92) (flags : BitVec 8) {stat : Nat} (h : stat < 256) :
    BitVec.ofNat 92 ((upFrame codes flags.toNat stat 0).toNat / 2 ^ 36) = codes ∧
      BitVec.ofNat 8 ((upFrame codes flags.toNat stat 0).toNat / 2 ^ 28) = flags ∧
      (upFrame codes flags.toNat stat 0).toNat / 2 ^ 20 % 256 = stat := by
  have hc := crc8_lt (beBytes 15 (upBody codes flags.toNat stat))
  have e := upFrame_toNat codes flags h
  have := codes.isLt
  have := flags.isLt
  rw [upBody] at e hc
  exact ⟨ofNat_eq_of_mod (by omega), ofNat_eq_of_mod (by omega), by omega⟩

/-- Settles O43: the fields of a frame fill disjoint places above its CRC. -/
theorem frameCodecs : Obligations.FrameCodecs :=
  ⟨fun c _ h => ⟨downParse_downWord c h, downWord_aout c h, downWord_crc c h⟩,
   fun codes flags _ h => ⟨upFrame_good codes flags h, upFrame_fields codes flags h⟩⟩

end Sys2Proof.Machine
end

section
/-! SUPPORT. Clock loss, clock return and the unit's own beacons (01 R36, R38, 04 R219, R222, R225, 08 R362). -/

namespace Sys2Proof.Machine

/-! ### The ORPHAN condition -/

@[simp] theorem orphanEnter_seam (s : State) : (orphanEnter s).seam = s.seam := by
  unfold orphanEnter
  split <;> rfl

theorem orphanEnter_ring (s : State) : ∃ n, (orphanEnter s).ring = { s.ring with orphan := true, orphans := n } := by
  unfold orphanEnter
  split
  · next h => exact ⟨s.ring.orphans, by rw [← h]⟩
  · exact ⟨s.ring.orphans + 1, rfl⟩

theorem orphanEnter_unaligned {s : State} (h : s.ring.orphan = false) : (orphanEnter s).t.unaligned = true := by
  unfold orphanEnter
  rw [if_neg (by simp [h])]
  rfl

@[simp] theorem orphanLeave_seam (s : State) : (orphanLeave s).seam = s.seam := by
  unfold orphanLeave
  split <;> rfl

theorem orphanLeave_orphan (s : State) : (orphanLeave s).ring.orphan = false := by
  unfold orphanLeave
  split
  · next h => simpa using h
  · rfl

@[simp] theorem orphanLeave_clk (s : State) : (orphanLeave s).ring.clk = s.ring.clk := by
  unfold orphanLeave
  split <;> rfl

/-! ### A switchover -/

theorem clkSwitch_ring (s : State) (k : ClkSrc) : (clkSwitch s k).ring = { s.ring with
    clk := k, lock := .unlocked, unlockedAt := s.t.up, missedRun := 0, beaconing := false, beaconLock := false, dataLoss := false } := rfl

theorem clkSwitch_seam (s : State) (k : ClkSrc) :
    (clkSwitch s k).seam = { s.seam with cut := true, switches := s.seam.switches + 1 } := rfl

theorem execMissingEdge_acts {s : State} (ha : alive s = true) (hc : s.ring.clk ≠ .backup) :
    execMissingEdge s = .next (orphanEnter (clkSwitch s .backup)) := by
  simp [execMissingEdge, ha, hc]

theorem execClockReturn_acts {s : State} (ha : alive s = true) (hc : s.ring.clk = .backup) :
    execClockReturn s = .next (if s.ring.selected = .crystal then orphanLeave (clkSwitch s s.ring.selected)
      else clkSwitch s s.ring.selected) := by
  simp [execClockReturn, ha, hc]

/-! ### Beacons -/

theorem execOrphanBeacon_acts {s : State} (ha : alive s = true) (hp : s.t.p = 0) (hc : s.ring.clk = .backup)
    (hd : s.u.armed = false) : execOrphanBeacon s = .next (beaconSend s) := by
  simp [execOrphanBeacon, ha, hp, hc, hd]

theorem execDataLossBeacon_acts {s : State} (ha : alive s = true) (hp : s.t.p = 0) (hc : s.ring.clk = .cki)
    (hl : s.ring.lock ≠ .locked) (hd : s.u.armed = false) (hu : s.ring.unlockedAt + 32 * 512 ≤ s.t.up) :
    execDataLossBeacon s = .next (beaconSend (orphanEnter { s with ring.dataLoss := true })) := by
  simp [execDataLossBeacon, ha, hp, hc, hl, hd, hu]

/-- The beacon superframe's number: the one after the last beacon's, or counted on from the last header taken (04 R221). -/
theorem beaconSend_ring (s : State) : (beaconSend s).ring = { s.ring with
    beaconing := true,
    beaconSfn := if s.ring.beaconing then s.ring.beaconSfn + 1
      else s.ring.lastSfn + BitVec.ofNat 32 (s.t.sf - s.ring.sfnSf) } := rfl

theorem beaconSend_out (s : State) : (beaconSend s).out = { s.out with
    beacon := beaconOf (beaconSend s), window := List.replicate 512 0, lane := none, region := List.replicate 1472 0 } := rfl

/-- Settles O40: a missing edge switches to the backup oscillator and enters the ORPHAN condition, the clock's return switches back
and leaves it on a crystal; at p = 0 a beacon superframe is sent. -/
theorem clockLossAndReturn : Obligations.ClockLossAndReturn := by
  intro s ha
  refine ⟨fun hc => ⟨_, execMissingEdge_acts ha hc, ?_⟩, fun hc => ⟨_, execClockReturn_acts ha hc, ?_⟩,
    fun hp hc hd => ⟨_, execOrphanBeacon_acts ha hp hc hd, ?_⟩,
    fun hp hc hl hd hu => ⟨_, execDataLossBeacon_acts ha hp hc hl hd hu, ?_⟩⟩
  · obtain ⟨n, hr⟩ := orphanEnter_ring (clkSwitch s .backup)
    simp only [hr, orphanEnter_seam, clkSwitch_ring, clkSwitch_seam, true_and]
    exact fun h => orphanEnter_unaligned h
  · split
    · simp [orphanLeave_orphan, clkSwitch_ring, clkSwitch_seam]
    · next hx => simp [hx, clkSwitch_ring, clkSwitch_seam]
  · simp only [beaconSend_ring, beaconSend_out, and_self]
  · obtain ⟨n, hr⟩ := orphanEnter_ring { s with ring.dataLoss := true }
    simp only [beaconSend_ring, beaconSend_out, hr, and_self]

end Sys2Proof.Machine
end

section
/-! SUPPORT. What moves neither the field die, nor the time, nor the pair: the meaning the core die gives to a control register's write, and
an event of a source without an action. -/

namespace Sys2Proof.Machine

/-- From `s` to `t` nothing of the field die, the time or the pair has moved. -/
structure SameField (s t : State) : Prop where
  fd   : t.fd = s.fd
  time : t.t = s.t
  twin : t.twin = s.twin

theorem SameField.refl (s : State) : SameField s s := ⟨rfl, rfl, rfl⟩

section
variable {s x y : State}

theorem SameField.ite {c : Prop} [Decidable c] (hx : SameField s x) (hy : SameField s y) : SameField s (if c then x else y) := by
  split
  · exact hx
  · exact hy

theorem SameField.modFront (h : SameField s x) (n : Nat) (f : Front → Front) : SameField s (modFront x n f) :=
  ⟨h.fd, h.time, h.twin⟩

theorem SameField.modChain (h : SameField s x) (c : Nat) (f : Chain → Chain) : SameField s (modChain x c f) :=
  ⟨h.fd, h.time, h.twin⟩

theorem SameField.settleFrom (h : SameField s x) (c ref : Nat) : SameField s (settleFrom x c ref) := h.modChain c _

theorem SameField.logAt (h : SameField s x) (u : Nat) (o : BitVec 16) (ev sub : Nat) (old new : Word) :
    SameField s (logAt x u o ev sub old new) := ⟨h.fd, h.time, h.twin⟩

theorem SameField.zSpoilChan (h : SameField s x) (c : Nat) : SameField s (zSpoilChan x c) := ⟨h.fd, h.time, h.twin⟩

theorem SameField.rangeAsk (h : SameField s x) (n rg : Nat) (o : BitVec 16) (auto reset : Bool) :
    SameField s (rangeAsk x n rg o auto reset) :=
  .ite (h.modFront n _) ⟨h.fd, h.time, h.twin⟩

/-- A source without an action of its own. -/
theorem SameField.tallyEvent (h : SameField s x) {i : Nat} (hi : ∀ s, lastingAction s i = s) : SameField s (tallyEvent x i) := by
  have hl (z : State) (k : SameField s z) : SameField s (tallyLatch z i) := by
    constructor <;> simp [tallyLatch, k.fd, k.time, k.twin]
  have hn (z : State) (k : SameField s z) : SameField s (tallyNow z i) := by
    unfold tallyNow
    rw [hi]
    exact .ite k (hl z k)
  have ha : SameField s (tallyAdd x i) := ⟨h.fd, h.time, h.twin⟩
  exact .ite (hn _ ha) ha

theorem SameField.startApplied (h : SameField s x) (n rg e : Nat) : SameField s (startApplied x n rg e) := by
  unfold Machine.startApplied
  extract_lets f s1 asSync s2 s3
  have h2 : SameField s s2 := (h.modFront n _).modChain n _
  have h3 : SameField s s3 := .ite h2 (h2.settleFrom n e)
  split
  · exact .ite h3 (h3.rangeAsk ..)
  · exact h3

theorem SameField.holdApplied (h : SameField s x) (n : Nat) (q : RangeReq) (r : Nat) : SameField s (holdApplied x n q r) := by
  unfold Machine.holdApplied
  extract_lets f live moved s1 s2 s3
  have h1 : SameField s s1 := .ite (h.logAt ..) h
  have h2 : SameField s s2 := h1.modFront n _
  have h3 : SameField s s3 := .ite (h2.modChain n _) h2
  exact .zSpoilChan (.ite (h3.modChain n _) h3) n

theorem SameField.frontApplied (h : SameField s x) (n : Nat) (w : BitVec 16) (r : Nat) : SameField s (frontApplied x n w r) := by
  unfold Machine.frontApplied
  extract_lets f rg frees
  have hf : SameField s (frees x) := .ite (h.modFront n _) h
  split
  · exact .ite (.ite (h.startApplied ..) (h.holdApplied ..)) hf
  · exact hf

theorem SameField.stepCount (h : SameField s x) (s0 : State) (n : Nat) : SameField s (stepCount s0 x n) := by
  unfold Machine.stepCount
  split
  · extract_lets was s1 s2 keep s3
    have h2 : SameField s s2 := (h.modFront n _).tallyEvent fun _ => rfl
    have h3 : SameField s s3 := h2.modFront n _
    exact .ite h (.ite (.ite h3 (h3.rangeAsk ..)) h2)
  · exact h

theorem SameField.writeMeaning (h : SameField s x) (a : Nat) (d : BitVec 16) : SameField s (writeMeaning x a d) := by
  unfold Machine.writeMeaning
  extract_lets n s1
  have h1 : SameField s s1 := .ite ((h.modChain _ _).settleFrom _ _) h
  clear_value n
  cases n with
  | none => exact h1
  | some n => exact (h1.frontApplied n d _).stepCount s1 n

end

end Sys2Proof.Machine
end

section
/-! SUPPORT. What the field die does on its own (01 R41, R54, R55, R67, R69, R939). -/

namespace Sys2Proof.Machine

/-! ### What a superframe's begin leaves of the field die -/

theorem forEach_fd {f : State → Nat → State} (hf : ∀ s i, (f s i).fd = s.fd) (ns : List Nat) (s : State) :
    (forEach s ns f).fd = s.fd := by
  unfold forEach
  induction ns generalizing s with
  | nil => rfl
  | cons n ns ih => exact (ih (f s n)).trans (hf s n)

/-- A bound episode's source has no action of its own. -/
@[simp] theorem tallyEvent_bound_fd (s : State) : (tallyEvent s 16).fd = s.fd :=
  ((SameField.refl s).tallyEvent fun _ => rfl).fd

/-- Every branch writes heaters, channels, the Logbook and the tally alone. -/
theorem heaterBegin_fd (s : State) (n : Nat) : (heaterBegin s n).fd = s.fd := by
  unfold heaterBegin
  dsimp only
  repeat' split
  all_goals simp

theorem bridgeBound_fd (s : State) (b : Nat) : (bridgeBound s b).fd = s.fd := by
  unfold bridgeBound
  dsimp only
  repeat' split
  all_goals simp

theorem bridgeBegin_fd (s : State) (b : Nat) : (bridgeBegin s b).fd = s.fd := by
  unfold bridgeBegin
  dsimp only
  repeat' split
  all_goals simp [bridgeBound_fd, bridgeVoid]

/-! ### Drive words -/

/-- The drive words with word `i` taken from its copy, if a good one has come (01 R55). -/
def copyTaken (copies : Vector (Option (BitVec 16)) 6) (v : Vector (BitVec 16) 6) (i : Nat) : Vector (BitVec 16) 6 :=
  match vget copies i none with
  | some c => vset v i c
  | none => v

theorem copyTaken_get (copies : Vector (Option (BitVec 16)) 6) (v : Vector (BitVec 16) 6) (i : Nat) (j : Fin 6) :
    (copyTaken copies v i)[j] = if i = j then copies[j].getD v[j] else v[j] := by
  have hj := j.isLt
  unfold copyTaken
  by_cases h : i = j
  · subst h
    rw [if_pos rfl, vget, dif_pos hj]
    split
    · next c e => simp [vset, vmod, hj, e]
    · next e => simp [e]
  · rw [if_neg h]
    split
    · simp only [vset, vmod]
      split
      · exact Vector.getElem_set_ne _ _ h
      · rfl
    · rfl

/-- After the first `n` words. -/
theorem copiesTaken_get (copies : Vector (Option (BitVec 16)) 6) (v : Vector (BitVec 16) 6) (n : Nat) (j : Fin 6) :
    ((List.range n).foldl (copyTaken copies) v)[j] = if j < n then copies[j].getD v[j] else v[j] := by
  induction n with
  | zero => rfl
  | succ n ih =>
    rw [List.range_succ, List.foldl_append, List.foldl_cons, List.foldl_nil, copyTaken_get, ih]
    grind

/-- The field die at p = 0: each word from its copy, and the copies are gone. -/
def driveApplied (s : State) : State :=
  { s with fd := { s.fd with drive := (List.range 6).foldl (copyTaken s.fd.copies) s.fd.drive,
                             copies := Vector.replicate 6 none } }

theorem execDriveWordApply_acts {s : State} (hp : s.t.p = 0) :
    execDriveWordApply s = .next (forEach (forEach (driveApplied s) (List.range 4) heaterBegin) [0, 1] bridgeBegin) := by
  unfold execDriveWordApply
  rw [if_neg (by simp [hp])]
  rfl

/-- A superframe's begin changes no parameter. -/
theorem execDriveWordApply_cfg {s t : State} (e : execDriveWordApply s = .next t) : t.cfg = s.cfg := by
  have k := (execDriveWordApply_keeps (Q := s.pending) (C := (· = s.cfg)) (U := fun _ => True) (B := False) (fun _ => trivial)
    ⟨rfl, rfl, trivial, False.elim, False.elim, False.elim⟩).config
  rw [e] at k
  exact k

theorem driveWordApply_fd (s : State) :
    (forEach (forEach (driveApplied s) (List.range 4) heaterBegin) [0, 1] bridgeBegin).fd = (driveApplied s).fd := by
  rw [forEach_fd bridgeBegin_fd, forEach_fd heaterBegin_fd]

/-- Settles O42: each event of the field die writes its own state alone; the begin of a drive superframe leaves the words taken. -/
theorem fieldDieEvents : Obligations.FieldDieEvents := by
  intro s
  refine ⟨⟨(fieldReset s false).fd, rfl, rfl, rfl, rfl, rfl, rfl⟩, fun hv => ⟨(fieldReset s true).fd, ?_, rfl, rfl, rfl⟩,
    fun _ => rfl, fun _ => rfl, fun hg => ?_, rfl, fun hp => ?_, fun hp => ⟨_, execDriveWordApply_acts hp, ?_⟩⟩
  · show execVddaReturn s = _
    simp [execVddaReturn, hv, fieldReset]
  · show execDownFrameTimeout s = _
    simp [execDownFrameTimeout, Nat.not_lt.mpr hg, driversOff]
  · show execHousekeepingStep s = _
    simp [execHousekeepingStep, hp]
  · rw [driveWordApply_fd]
    exact ⟨rfl, fun i => (copiesTaken_get _ _ 6 i).trans (if_pos i.isLt), execDriveWordApply_cfg (execDriveWordApply_acts hp)⟩

end Sys2Proof.Machine
end

section
/-! SUPPORT. The frames of a tick (01 R44, R46, R52–R59): what leaves the core die, what the field die takes at the next tick, and when an
up frame is taken. -/

namespace Sys2Proof.Machine

/-! ### What a down frame carries -/

/-- With the Seam up the frame chosen goes out with the AOUT code, and the field die receives it. -/
theorem execDownFrame_sends {s t : State} {f : DownFrame} (err : BitVec 64) (ha : alive s = true) (hr : seamRuns s = true)
    (hu : s.seam.up = true) (hc : downChoose s = (t, f)) (hs : t.seam.aout = s.seam.aout) :
    execDownFrame err s = .next (sentDown t f err) := by
  simp [execDownFrame, ha, hr, hu, hc, ← hs, sentDown]

/-- From p = 506 the drive pairs go out, twice in turn (01 R55). -/
theorem downChoose_drive {s : State} (hu : s.seam.up = true) (hp : 506 ≤ s.t.p) :
    downChoose s = (s, .drive ((s.t.p - 506) % 3) (vget s.seam.drive (2 * ((s.t.p - 506) % 3)) 0)
      (vget s.seam.drive (2 * ((s.t.p - 506) % 3) + 1) 0)) := by
  simp [downChoose, hu, hp]

/-- At p mod 8 = 3 a pending register access goes first (01 R56). -/
theorem downChoose_reg {s : State} {r : State × DownFrame} (hu : s.seam.up = true) (hp : s.t.p % 8 = 3) (hl : s.t.p < 506)
    (hr : sendReg s = some r) : downChoose s = r := by
  simp [downChoose, hu, hp, Nat.not_le.mpr hl, hr]

/-- With no release due, the access at the front of the queue is next. -/
theorem sendReg_front {s : State} {acc : RegAcc} {rest : List RegAcc} (hn : releaseFront s = none)
    (hq : s.seam.regQ = acc :: rest) (ht : acc.at_ < s.t.up) (hr : acc.read = false) :
    sendReg s = some (sendWrite s acc rest) := by
  simp [sendReg, hn, hq, regReady, ht, hr]

/-- A first write goes out with its own data. -/
theorem sendWrite_frame (s : State) {acc : RegAcc} (rest : List RegAcc) (h : acc.tries = 0) :
    (sendWrite s acc rest).2 = .reg false acc.addr acc.data := by
  simp [sendWrite, h]

theorem sendReg_release {s : State} {n : Nat} (h : releaseFront s = some n) : sendReg s = some (sendRelease s n) := by
  simp [sendReg, h]

theorem sendWrite_shape (s : State) (acc : RegAcc) (rest : List RegAcc) :
    (sendWrite s acc rest).1 = { s with seam := (sendWrite s acc rest).1.seam } := rfl

theorem vget_vset_same {α : Type} {n : Nat} (v : Vector α n) {i : Nat} (a d : α) (h : i < n) : vget (vset v i a) i d = a :=
  vget_vmod_same v i _ d h

/-- The data of a first write is the latest sent to its address, and its read-back waits at the front (01 R59). -/
theorem sendWrite_notes (s : State) {acc : RegAcc} (rest : List RegAcc) (h : acc.tries = 0) (ha : acc.addr.toNat < 24) :
    vget (sendWrite s acc rest).1.seam.sent acc.addr.toNat 0 = acc.data ∧
      (sendWrite s acc rest).1.seam.regQ.head? = some { acc with read := true, tries := 1, alts := [] } := by
  simp [sendWrite, h, vget_vset_same _ _ _ ha]

theorem releaseFront_lt {s : State} {n : Nat} (h : releaseFront s = some n) : n < 12 :=
  List.mem_range.mp (List.mem_of_find?_eq_some h)

/-- A release goes out as a write of its front end's control register. -/
theorem sendRelease_frame (s : State) (n : Nat) :
    (sendRelease s n).2 = .reg false (byteOf (ctlAddr n)) (freeWord (regWant s (ctlAddr n)) n (frontOf s n).range) :=
  sendWrite_frame _ _ rfl

theorem sendRelease_front (s : State) (n : Nat) :
    (sendRelease s n).1.front = vmod s.front n (fun f => { f with relSent := true }) := rfl

theorem sendRelease_notes (s : State) {n : Nat} (h : n < 12) :
    (frontOf (sendRelease s n).1 n).relSent = true ∧ (frontOf (sendRelease s n).1 n).range = (frontOf s n).range := by
  simp only [frontOf, sendRelease_front, vget_vmod_same _ _ _ _ h, and_self]

/-! ### What the field die takes at the next tick -/

/-- From `s` to `t` the time and the pair stand, and so do the code in force, the count of ticks without a good frame and what waits. -/
structure SameLink (s t : State) : Prop where
  time  : t.t = s.t
  twin  : t.twin = s.twin
  gap   : t.fd.gap = s.fd.gap
  aout  : t.fd.aout = s.fd.aout
  inbox : t.fd.inbox = s.fd.inbox

theorem SameField.link {s t : State} (h : SameField s t) : SameLink s t :=
  ⟨h.time, h.twin, by rw [h.fd], by rw [h.fd], by rw [h.fd]⟩

theorem fieldWrite_link (s : State) (a : Nat) (d : BitVec 16) : SameLink s (fieldWrite s a d) := by
  unfold fieldWrite
  split <;> exact ⟨rfl, rfl, rfl, rfl, rfl⟩

theorem fieldBias_link (s : State) (a : Option (Nat × BitVec 14)) : SameLink s (fieldBias s a) := by
  cases a <;> exact ⟨rfl, rfl, rfl, rfl, rfl⟩

theorem fieldWrite_reg (s : State) {a : Nat} (d : BitVec 16) (h : a < 24) : vget (fieldWrite s a d).fd.regs a 0 = d := by
  unfold fieldWrite
  rw [if_neg (by omega)]
  exact vget_vset_same _ d 0 h

/-- What a good frame brings whatever it carries: its code is in force and the count of ticks without one starts anew. -/
structure FrameTaken (s t : State) (c : BitVec 16) : Prop where
  time  : t.t = s.t
  twin  : t.twin = s.twin
  gap   : t.fd.gap = 0
  aout  : t.fd.aout = c
  inbox : t.fd.inbox = s.fd.inbox

theorem FrameTaken.link {s t x : State} {c : BitVec 16} (h : FrameTaken s t c) (k : SameLink t x) : FrameTaken s x c :=
  ⟨k.time.trans h.time, k.twin.trans h.twin, k.gap.trans h.gap, k.aout.trans h.aout, k.inbox.trans h.inbox⟩

theorem fieldTake_taken (s : State) (c : BitVec 16) (f : DownFrame) : FrameTaken s (fieldTake s c f) c := by
  unfold fieldTake
  extract_lets fd s1
  have h1 : FrameTaken s s1 c := ⟨rfl, rfl, rfl, rfl, rfl⟩
  clear_value s1
  cases f with
  | bias a b => exact (h1.link (fieldBias_link s1 a)).link (fieldBias_link _ b)
  | drive p lo hi =>
    dsimp only
    split
    · exact h1
    · exact h1.link ⟨rfl, rfl, rfl, rfl, rfl⟩
  | reg rd a d =>
    cases rd with
    | true => exact h1.link ⟨rfl, rfl, rfl, rfl, rfl⟩
    | false => exact (h1.link (fieldWrite_link s1 a.toNat d)).link ((SameField.refl _).writeMeaning a.toNat d).link
  | idle => exact h1

/-- A drive pair's words stand in their copies, limited (01 R54). -/
theorem fieldTake_drive (s : State) (c : BitVec 16) {k : Nat} (lo hi : BitVec 16) (h : k < 3) :
    vget (fieldTake s c (.drive k lo hi)).fd.copies (2 * k) none = some (driveTaken k lo) ∧
      vget (fieldTake s c (.drive k lo hi)).fd.copies (2 * k + 1) none = some (driveTaken k hi) := by
  have hk : k ≠ 3 := by omega
  simp only [fieldTake, if_neg hk]
  refine ⟨?_, vget_vset_same _ _ _ (by omega)⟩
  exact (vget_vmod_other _ _ _ _ _ (by omega)).trans (vget_vset_same _ _ _ (by omega))

theorem fieldTake_reg (s : State) (c : BitVec 16) {a : Byte} (d : BitVec 16) (h : a.toNat < 24) :
    vget (fieldTake s c (.reg false a d)).fd.regs a.toNat 0 = d := by
  have hw (x : State) : (writeMeaning (fieldWrite x a.toNat d) a.toNat d).fd = (fieldWrite x a.toNat d).fd :=
    ((SameField.refl _).writeMeaning a.toNat d).fd
  simp only [fieldTake, hw, fieldWrite_reg _ d h]

/-- At CLK 0 nothing waits any more, and one more tick has gone by. -/
def inboxEmptied (s : State) : State := { s with fd := { s.fd with inbox := .none, gap := s.fd.gap + 1 } }

/-- At CLK 0 a good frame that waits is taken. -/
theorem fieldApply_good {s : State} {c : BitVec 16} {f : DownFrame} (hf : frameOk f = true)
    (hi : s.fd.inbox = .good (downWord c f)) :
    fieldApply s = fieldTake (inboxEmptied s) c f := by
  unfold fieldApply
  rw [hi]
  simp only [downWord_aout c hf, downParse_downWord c hf, inboxEmptied]

/-- What the end of a tick leaves for the field die to apply. -/
theorem fieldSends_inbox (s : State) : (fieldSends s).fd.inbox = s.fd.inbox ∧ (fieldSends s).twin = s.twin := by
  unfold fieldSends fieldAnswer
  dsimp only
  repeat' split
  all_goals exact ⟨rfl, rfl⟩

/-- Within a superframe and an era, a tick advances the count and the phase, and the field die applies what it received. -/
theorem tickAdvance_within {s : State} (hp : s.t.p < 511) (hc : s.t.count ≠ BitVec.allOnes 48) (hs : s.seam.cut = false) :
    ∃ x : State, tickAdvance s = fieldApply x ∧ x.fd.inbox = s.fd.inbox ∧ x.t.p = s.t.p + 1 ∧ x.twin = s.twin := by
  obtain ⟨hi, hw⟩ := fieldSends_inbox s
  have h0 : s.t.count + 1 ≠ 0 := fun e => hc ((eq_neg_of_add_eq_zero_left e).trans BitVec.neg_one_eq_allOnes)
  have h1 : ¬ s.t.p = 511 := by omega
  unfold tickAdvance
  extract_lets s0 p _ t _ fd _ _ s1
  have hpp : p = s.t.p + 1 := if_neg h1
  have hn : ¬ (p = 0 && t.fix.isSome) = true := by simp [hpp]
  refine ⟨s1, ?_, ?_, hpp, hw⟩
  · rw [if_neg hn, wrapCheck, if_neg h0]
  · show fd.inbox = _
    simp only [fd, hs]
    exact hi

/-- The tick after a good frame takes it. -/
theorem execTick_takes {s : State} (ha : alive s = true) (hp : s.t.p < 511) (hc : s.t.count ≠ BitVec.allOnes 48)
    (hm : s.twin.mode ≠ 3) (hs : s.seam.cut = false) {c : BitVec 16} {f : DownFrame} (hf : frameOk f = true)
    (hi : s.fd.inbox = .good (downWord c f)) :
    ∃ y : State, execTick s = .next (fieldTake y c f) ∧ y.fd.inbox = .none := by
  obtain ⟨x, he, hx, hxp, hxw⟩ := tickAdvance_within hp hc hs
  rw [fieldApply_good hf (hx.trans hi)] at he
  obtain ⟨ht, hw, -, -, -⟩ := he ▸ fieldTake_taken (inboxEmptied x) c f
  have h0 : ¬ (tickAdvance s).t.p = 0 := by
    rw [ht]
    exact hxp ▸ Nat.succ_ne_zero _
  have h3 : tailAskDue (tickAdvance s) = false := by
    have hm3 : (tickAdvance s).twin.mode ≠ 3 := by
      rw [hw]
      exact hxw ▸ hm
    simp [tailAskDue, hm3]
  refine ⟨inboxEmptied x, ?_, rfl⟩
  rw [← he]
  simp only [execTick, ha, if_true, tickRun, if_neg h0, h3, Bool.false_eq_true, if_false]

/-! ### When an up frame is taken (01 R61, R68) -/

/-- The unit as a frame that has travelled reaches it: the frame is gone, the pins it brings are latched. -/
def upArrived (s : State) (u : UpIn) : State := { s with fd := { s.fd with tx := none, clamps := s.fd.clamps ||| u.pins } }

/-- The frame received in this tick, with the codes of two ticks before (log 35). -/
def upReceived (s : State) (u : UpIn) (x : UpTx) : BitVec 128 :=
  upFrame (sentCodes (upArrived s u) u (s.t.up - 2) ((x.p + 511) % 512)) (flagsOf u).toNat (statByte (upArrived s u) u x) u.err

/-- It travelled whole, with VDDA in range, and its CRC holds. -/
def upWhole (s : State) (u : UpIn) (x : UpTx) : Bool := x.good && !x.cut && upGood (upReceived s u x)

theorem fieldSent_seam (s : State) (j : Nat) : (fieldSent s j).seam = s.seam := by
  unfold fieldSent
  split <;> rfl

/-- What a frame that has travelled brings, once two ticks have passed. -/
theorem execUpFrame_some {s : State} {x : UpTx} (hx : s.fd.tx = some x) (u : UpIn) : execUpFrame u s = .next (
    if !alive s || s.t.up < 2 then s
    else
      let s2 := if upWhole s u x then fieldSent (upArrived s u) (x.p % 16) else upArrived s u
      if !s2.seam.up then
        (if upWhole s u x then bringUp s2 (upReceived s u x) (s.t.up - 2) (x.p % 16) else bringFail s2 (x.p % 16))
      else if upWhole s u x then upTake s2 (upReceived s u x) (s.t.up - 2) x.p
      else upFail s2 (s.t.up - 2) x.p x.cut) := by
  unfold execUpFrame
  rw [hx]
  rfl

/-- A whole frame is taken; while the Seam is down it counts toward the sixteen. -/
theorem execUpFrame_whole {s : State} {u : UpIn} {x : UpTx} (ha : alive s = true) (hx : s.fd.tx = some x) (ht : 2 ≤ s.t.up)
    (hw : upWhole s u x = true) : execUpFrame u s = .next (if s.seam.up
      then upTake (fieldSent (upArrived s u) (x.p % 16)) (upReceived s u x) (s.t.up - 2) x.p
      else bringUp (fieldSent (upArrived s u) (x.p % 16)) (upReceived s u x) (s.t.up - 2) (x.p % 16)) := by
  have hs : (upArrived s u).seam = s.seam := rfl
  rw [execUpFrame_some hx]
  simp only [ha, Nat.not_lt.mpr ht, hw, if_true, fieldSent_seam, hs]
  cases s.seam.up <;> rfl

/-- Any other fails. -/
theorem execUpFrame_broken {s : State} {u : UpIn} {x : UpTx} (ha : alive s = true) (hx : s.fd.tx = some x) (ht : 2 ≤ s.t.up)
    (hw : upWhole s u x = false) : execUpFrame u s = .next (if s.seam.up
      then upFail (upArrived s u) (s.t.up - 2) x.p x.cut else bringFail (upArrived s u) (x.p % 16)) := by
  have hs : (upArrived s u).seam = s.seam := rfl
  rw [execUpFrame_some hx]
  simp only [ha, Nat.not_lt.mpr ht, hw, Bool.false_eq_true, if_false, hs]
  cases s.seam.up <;> rfl

/-- With no frame under way nothing arrives (log 17). -/
theorem execUpFrame_none {s : State} (hx : s.fd.tx = none) (u : UpIn) : execUpFrame u s = .next s := by
  unfold execUpFrame
  rw [hx]

/-- Settles O44: the frame chosen goes out, the next tick's field die parses it back and applies it, and an up frame is taken exactly where
it travelled whole and its CRC holds. -/
theorem seamFrames : Obligations.SeamFrames := by
  intro s ha
  refine ⟨fun hr hu err => ⟨fun hp => ?_, fun hp hl hn acc rest hq ht hw h0 ha24 => ?_, fun hp hl n hn => ?_⟩,
    fun hp hc hm hs c f hf hi => ?_, fun u x hx ht => ?_, fun hx u => execUpFrame_none hx u⟩
  · exact execDownFrame_sends err ha hr hu (downChoose_drive hu hp) rfl
  · have hd := downChoose_reg hu hp hl (sendReg_front hn hq ht hw)
    refine ⟨(sendWrite s acc rest).1, ?_, sendWrite_shape s acc rest, sendWrite_notes s rest h0 ha24⟩
    rw [← sendWrite_frame s rest h0]
    exact execDownFrame_sends err ha hr hu hd rfl
  · have hd := downChoose_reg hu hp hl (sendReg_release hn)
    refine ⟨(sendRelease s n).1, ?_, sendRelease_notes s (releaseFront_lt hn)⟩
    rw [← sendRelease_frame s n]
    exact execDownFrame_sends err ha hr hu hd rfl
  · obtain ⟨y, he, hy⟩ := execTick_takes ha hp hc hm hs hf hi
    obtain ⟨-, -, hg, hc', hib⟩ := fieldTake_taken y c f
    refine ⟨_, he, hg, hc', hib.trans hy, fun k lo hi' hk e => ?_, fun a d ha24 e => ?_⟩
    · subst e
      exact fieldTake_drive y c lo hi' hk
    · subst e
      exact fieldTake_reg y c d ha24
  · refine ⟨fun hv hc hg => execUpFrame_whole ha hx ht ?_, fun hb => execUpFrame_broken ha hx ht ?_⟩
    · change upGood (upReceived s u x) = true at hg
      simp [upWhole, hv, hc, hg]
    · change _ ∨ _ ∨ upGood (upReceived s u x) = false at hb
      rcases hb with h | h | h <;> simp [upWhole, h]

end Sys2Proof.Machine
end

section
/-! SUPPORT. What a reset leaves (03 R133–R137), and the queries without a payload (03 R125, 06 R296, 08 R377, 15 R680, 17 R757). -/

namespace Sys2Proof.Machine

/-- Settles O3: each field of the state after a power-on boot is as the rules give it; the Reset columns and the roles stand, for no
configuration value and no role is listed. -/
theorem resetLeaves : Obligations.ResetLeaves := by
  unfold Obligations.ResetLeaves
  have hrole : ∀ c, roleOf State.reset c = observer := fun _ => rfl
  have hparam : ∀ id, param State.reset id = resetOf id := fun _ => rfl
  exact ⟨rfl, rfl, rfl, rfl, rfl, rfl, rfl, rfl, rfl, rfl, rfl, hrole, rfl, hparam, rfl, rfl, rfl, rfl, rfl, rfl, rfl, rfl, rfl,
    by decide, by decide, by decide, by decide, rfl, rfl, rfl, rfl, rfl⟩

/-- The queries that may come without a payload. -/
def bareQueries : List Nat := [0x00, 0x01, 0x05, 0x11, 0x34, 0x42, 0x4A]

/-- Steps 3 to 7 of 06 R284 find nothing to object to in such a query, and no scheduler decides it. -/
theorem bareQueries_pass : ∀ opc ∈ bareQueries, opc < 256 ∧ isQuery opc [] = true ∧ lenOk opc [] = some true ∧ opc ≠ 0x03 ∧
    minRole opc [] = observer ∧ isDecided opc [] = false ∧ opc ≠ 0x02 ∧ opc ≠ 0x04 := by decide

/-- Every state takes it (03 R126). -/
theorem bareQueries_taken (st : UState) : ∀ opc ∈ bareQueries, stateTakes st opc = true := by
  cases st <;> decide

theorem row_queried_bare {s : State} {h : Hdr} (c : CanQuery s h) {opc : Nat} (hm : opc ∈ bareQueries) {data : List Byte}
    (hrun : opRun s (ctxOf s h) opc [] = opDone s data) : rowRun s h opc [] = queried s h data := by
  obtain ⟨ho, hq, hl, h3, hmin, hd, h2, h4⟩ := bareQueries_pass opc hm
  exact row_queried c opc [] ho hq hl h3 (by simp [readNames, h2, h4]) hmin hd (bareQueries_taken _ opc hm) hrun

/-- A unit in no pair is neither lead nor tail; what is left of HELLO's flags is whether a client is Keeper. -/
theorem helloFlags_single {s : State} (h : s.twin.mode = 0) :
    byteOf (packFlags [isLead s, isTail s, decide (keepers s ≠ 0)]) = if keepers s = 0 then 0 else 4 := by
  rw [isLead_single h, isTail_single h]
  by_cases hk : keepers s = 0
  · rw [if_pos hk, hk]
    rfl
  · rw [if_neg hk, decide_eq_true hk]
    rfl

/-- Settles O7: each of the seven passes the packet's checks, and its opcode answers from the state it leaves as it was. -/
theorem plainQueriesAnswer : Obligations.PlainQueriesAnswer := by
  intro s h c
  have ask {opc : Nat} {data : List Byte} (hm : opc ∈ bareQueries) (hrun : opRun s (ctxOf s h) opc [] = opDone s data) :
      Host.Outcome.next (rowRun s h opc []) = (.next (queried s h data) : Host.Outcome State Fault Refusal) :=
    congrArg _ (row_queried_bare c hm hrun)
  refine ⟨ask (opc := 0x00) (by decide) rfl, ask (opc := 0x01) (by decide) ?_, ask (opc := 0x05) (by decide) rfl,
    ask (opc := 0x11) (by decide) rfl, ask (opc := 0x34) (by decide) rfl, ask (opc := 0x42) (by decide) ?_,
    ask (opc := 0x4A) (by decide) rfl⟩
  · rw [← helloFlags_single c.single]
    rfl
  · show opTwinstat s (ctxOf s h) [] = _
    simp only [opTwinstat, c.single]
    rfl

end Sys2Proof.Machine
end

section
/-! SUPPORT. Unit states entered by request (03 R125, R139–R155), and RESET (03 R138). -/

namespace Sys2Proof.Machine

/-- A state keeps its own queue, configuration and condition. -/
theorem Keeps.self (s : State) : Keeps s.pending (· = s.cfg) (· = s.u) False s :=
  ⟨rfl, rfl, rfl, False.elim, False.elim, False.elim⟩

/-! ### What entry to a state leaves of the unit's condition -/

/-- From `s` to `t` the unit has entered a state for a cause, at the present tick; the rest of its condition and the configuration stand. -/
structure Entered (s t : State) (st : UState) (cause : BitVec 16) : Prop where
  unit   : t.u = { s.u with st := st, safecause := cause, chgEra := s.t.era, chgTick := s.t.count }
  config : t.cfg = s.cfg

/-- What follows the change itself and keeps the unit's condition and the configuration. -/
theorem Entered.keeps {s x t : State} {st : UState} {cause : BitVec 16} (h : Entered s x st cause)
    (k : Keeps x.pending (· = x.cfg) (· = x.u) False t) : Entered s t st cause :=
  ⟨k.unit.trans h.unit, k.config.trans h.config⟩

theorem stateTo_entered (s : State) (st : UState) (cause o : BitVec 16) : Entered s (stateTo s st cause o) st cause := by
  unfold stateTo
  extract_lets old new s1 _ s2 s3
  have h2 : Entered s s2 st cause := ⟨rfl, rfl⟩
  exact h2.keeps (joinEndSend_keeps (queueEvent_keeps (Keeps.self s2)))

/-- A unit that was in VIGIL wakes its sample path (03 R941). -/
theorem wakeOf_keeps (s : State) (was : UState) :
    Keeps s.pending (· = s.cfg) (· = s.u) False (if was = .vigil then vigilLeave s else s) :=
  Keeps.ite' (Keeps.self s) vigilLeave_keeps

theorem enterIdle_entered (s : State) (o : BitVec 16) : Entered s (enterIdle s o) .idle 0 := by
  unfold enterIdle
  extract_lets was s1 s2 s3
  have h3 : Keeps s1.pending (· = s1.cfg) (· = s1.u) False s3 := idleStops_keeps (wakeOf_keeps s1 was)
  clear_value s3
  exact (stateTo_entered s .idle 0 o).keeps (h3.same rfl rfl rfl rfl rfl rfl)

theorem enterRun_entered (s : State) (o : BitVec 16) : Entered s (enterRun s o) .run 0 := by
  unfold enterRun
  extract_lets was s1
  exact (stateTo_entered s .run 0 o).keeps (wakeOf_keeps s1 was)

theorem enterVigil_entered (s : State) (o : BitVec 16) : Entered s (enterVigil s o) .vigil 0 := by
  unfold enterVigil
  extract_lets s1 s2 s3 s4 s5 s6 s7 v _ s8
  have h2 : Keeps s1.pending (· = s1.cfg) (· = s1.u) False s2 :=
    forEach_keeps (zLeave_keeps (Keeps.self s1)) fun _ _ => htrEnd_keeps
  have h3 := forEach_keeps (l := [0, 1]) (f := fun s b => bridgeEnd s b 3 6) h2 fun _ _ => bridgeEnd_keeps
  have h4 := forEach_keeps (l := [8, 9, 10, 11, 12, 13]) (f := fun s c => chanHalt s c orgUnit) h3 fun _ _ => chanHalt_keeps
  have h5 := forEach_keeps (l := List.range 8) (f := fun s c => snapEnd s c false) h4 fun _ _ => snapEnd_keeps
  have h6 := tripDisarm_keeps (mask := 0xFF) (origin := orgUnit) (capStop_keeps (playEndAll_keeps (streamOff_keeps h5)))
  have h7 : Keeps s1.pending (· = s1.cfg) (· = s1.u) False s7 := regSet_keeps h6
  have h8 : Keeps s1.pending (· = s1.cfg) (· = s1.u) False s8 := by
    clear_value s7
    exact h7.same rfl rfl rfl rfl rfl rfl
  exact (stateTo_entered s .vigil 0 o).keeps (autoSeal_keeps (forEach_keeps h8 fun _ _ => modRule_keeps))

theorem enterSafe_entered {s : State} (hs : s.u.st ≠ .safe) (hd : s.u.st ≠ .dormant) (cause o : BitVec 16) :
    Entered s (enterSafe s cause o) .safe cause := by
  unfold enterSafe
  rw [if_neg hs, if_neg hd]
  extract_lets was s1 s2 s3
  have h3 := safeLoads_keeps (zLeave_keeps (playSuspend_keeps (wakeOf_keeps s1 was)))
  exact (stateTo_entered s .safe cause o).keeps (autoSeal_keeps (forEach_keeps (safeAout_keeps h3) fun _ _ => cellToSafe_keeps))

/-! ### The request (03 R125, R139) -/

/-- A STATE request for one of the targets 1 to 4 that is reached, or is the present state, is answered with the 13 bytes of the state
entered, from the unit with its armed latch cleared. -/
theorem row_stateAnswered {s : State} {h : Hdr} (c : CanChange s h operator) {b : Byte} (h1 : 1 ≤ b.toNat) (h4 : b.toNat ≤ 4)
    (hr : b.toNat = stCode s.u.st ∨ stateReach s b.toNat = true) :
    let t := stateEnter (stateTaken s) b.toNat (orgPkt h.src)
    rowRun s h 0x05 [b] = answered t h stDone (stateData t) := by
  intro t
  have hb : b ≠ 0 := fun e => by simp [e] at h1
  have hb' : b.toNat ≠ 0 := by omega
  have hpass := packetNames_pass (pl := [b]) c.single (opc := 0x05) rfl (by decide) rfl (hmin := c.role)
  have hgo : opRun (stateTaken s) (ctxOf s h) 0x05 [b] = opDone t (stateData t) := by
    show opState (stateTaken s) (ctxOf s h) [b] = _
    have hreach : stateReach (stateTaken s) b.toNat = stateReach s b.toNat := rfl
    have hst : (stateTaken s).u.st = s.u.st := rfl
    simp only [opState, plByte, List.isEmpty_cons, List.getD_cons_zero, Bool.false_eq_true, if_false, hreach, hst]
    rw [guarded_pass _ _ _ (by simpa [h4, hb'] using hr), if_neg hb']
    rfl
  rw [rowRun_state c b hb hpass rfl, hgo]
  exact packetFinish_change t h 0x05 [b] stDone _ (by decide) (by decide) (by simp [isQuery])

theorem alive_not_dormant {s : State} (h : alive s = true) : s.u.st ≠ .dormant := fun e => by simp [alive, e] at h

theorem stCode_inj {a b : UState} (h : stCode a = stCode b) : a = b := by
  revert h
  cases a <;> cases b <;> decide

/-- A target other than the present state is entered; SAFE by request has cause bit 6 (03 R152). -/
theorem stateEnter_entered {s : State} {st : UState} (hd : s.u.st ≠ .dormant) (ht : st ≠ .dormant) (hn : s.u.st ≠ st) (o : BitVec 16) :
    Entered s (stateEnter s (stCode st) o) st (if st = .safe then 0x0040 else 0) := by
  unfold stateEnter
  rw [if_neg fun e => hn (stCode_inj e.symm)]
  cases st with
  | dormant => exact absurd rfl ht
  | idle => exact enterIdle_entered s o
  | run => exact enterRun_entered s o
  | vigil => exact enterVigil_entered s o
  | safe => exact enterSafe_entered hn hd 0x0040 o

/-- A STATE request answers from a unit in its target, reached anew or already present: the armed latch is clear, the configuration
stands (03 R156), and SAFE has cause bit 6. -/
theorem row_stateReached {s : State} {h : Hdr} (c : CanChange s h operator) {b : Byte} {st : UState} (hb : b.toNat = stCode st)
    (ht : st ≠ .dormant) (hr : s.u.st = st ∨ stateReach s b.toNat = true) :
    ∃ t : State, rowRun s h 0x05 [b] = answered t h stDone (stateData t) ∧ t.u.st = st ∧ t.u.armed = false ∧ t.cfg = s.cfg ∧
      (s.u.st ≠ st → t.u.safecause = if st = .safe then 0x0040 else 0) := by
  have hd : s.u.st ≠ .dormant := alive_not_dormant c.runs
  have hlo : 1 ≤ b.toNat := by rw [hb]; revert ht; cases st <;> decide
  have hhi : b.toNat ≤ 4 := by rw [hb]; cases st <;> decide
  refine ⟨_, row_stateAnswered c hlo hhi (hr.imp_left fun e => by rw [hb, e]), ?_⟩
  rw [hb]
  by_cases hn : s.u.st = st
  · have he : stateEnter (stateTaken s) (stCode st) (orgPkt h.src) = stateTaken s := if_pos (congrArg stCode hn.symm)
    rw [he]
    exact ⟨hn, rfl, rfl, fun hx => absurd hn hx⟩
  · have he := stateEnter_entered (s := stateTaken s) hd ht hn (orgPkt h.src)
    rw [he.unit]
    exact ⟨rfl, rfl, he.config, fun _ => rfl⟩

/-! ### What each target is reached from (03 R139, R155) -/

theorem stateReach_idle {s : State} (hd : s.u.st ≠ .dormant) (hs : s.u.st = .safe → safeCauses s = 0) :
    s.u.st = .idle ∨ stateReach s 1 = true := by
  cases e : s.u.st with
  | dormant => exact absurd e hd
  | idle => exact .inl rfl
  | run => exact .inr (by simp [stateReach, e])
  | vigil => exact .inr (by simp [stateReach, e])
  | safe => exact .inr (by simp [stateReach, e, hs e])

theorem stateReach_run {s : State} (hs : s.u.st = .idle ∨ s.u.st = .run ∨ s.u.st = .vigil) :
    s.u.st = .run ∨ stateReach s 2 = true := by
  rcases hs with e | e | e
  · exact .inr (by simp [stateReach, e])
  · exact .inl e
  · exact .inr (by simp [stateReach, e])

theorem stateReach_vigil {s : State} (hs : s.u.st = .run ∨ s.u.st = .vigil) : s.u.st = .vigil ∨ stateReach s 3 = true :=
  hs.symm.imp_right fun e => by simp [stateReach, e]

theorem stateReach_safe (s : State) : s.u.st = .safe ∨ stateReach s 4 = true := by
  by_cases e : s.u.st = .safe
  · exact .inl e
  · exact .inr (by simp [stateReach, e])

/-! ### RESET (03 R138) -/

/-- A partner the unit joins is told of the reset. -/
def resetTold (s : State) : State := if s.twin.join.isSome then twinSend s 0x0E [2] else s

/-- A RESET of a mode, taken: its entry is written, and its mode and superframe stand. -/
def resetTaken (s : State) (o : BitVec 16) (mode : Nat) : State :=
  { logE (resetTold s) o Config.resetEvent.toNat 0 0 0 with u.resetDue := some (mode, s.t.sf) }

theorem row_resetAnswered {s : State} {h : Hdr} (c : CanChange s h keeper) {m : Byte} (hm : m.toNat ≤ 1) :
    rowRun s h 0x06 [m] = answered (resetTaken s (orgPkt h.src) m.toNat) h stDone [] := by
  have hrun : opRun s (ctxOf s h) 0x06 [m] = (resetTaken s (orgPkt h.src) m.toNat, some (answer stDone [])) :=
    guarded_pass s [(decide (m.toNat ≤ 1), stBadValue)] _ (by simpa using hm)
  exact row_answered c 0x06 [m] (by decide) rfl rfl (by decide) (by decide) (by decide) rfl rfl rfl (by decide) (by decide) hrun

theorem resetTold_shape (s : State) : resetTold s = { s with twin.msgs := (resetTold s).twin.msgs } := by
  unfold resetTold
  split <;> rfl

theorem resetTold_msgs (s : State) :
    (resetTold s).twin.msgs = s.twin.msgs ++ (if s.twin.join.isSome then [twinMsg 0x0E [2]] else []) := by
  unfold resetTold
  split
  · rfl
  · exact (List.append_nil _).symm

theorem resetTaken_asked {s : State} {h : Hdr} (hw : stopPolicy s = false) (mode : Nat) :
    ResetAsked s (resetTaken s (orgPkt h.src) mode) h mode := by
  have hs := resetTold_shape s
  have hu : (resetTold s).u = s.u := by rw [hs]
  have hlog : (resetTold s).log = s.log := by rw [hs]
  refine ⟨?_, ?_, resetTold_msgs s, fun hl => ?_⟩
  · show ({ (resetTold s).u with resetDue := some (mode, s.t.sf) } : UnitSt) = _
    rw [hu]
  · unfold resetTaken
    rw [logE_shape, hs]
  · have hstop : stopPolicy (resetTold s) = false := by rw [hs]; exact hw
    obtain ⟨e, he, -, -, -, -, -, -, ho, -⟩ := logE_wraps hstop (by rwa [hlog]) (orgPkt h.src) Config.resetEvent.toNat 0 0 0
    rw [hlog] at he
    exact ⟨e, he, ho⟩

/-- Settles O18: each target is reached by its entry, which changes the unit's condition by the change of state alone and no parameter;
a RESET leaves what `ResetAsked` says. -/
theorem stateAndResetRequests : Obligations.StateAndResetRequests := by
  intro s h
  refine ⟨fun c => ⟨fun hs => ?_, fun hs => ?_, fun hs => ?_, ?_⟩,
    fun c => ⟨⟨_, congrArg _ (row_resetAnswered c (m := 0) (by decide)), resetTaken_asked c.wraps 0⟩,
      ⟨_, congrArg _ (row_resetAnswered c (m := 1) (by decide)), resetTaken_asked c.wraps 1⟩⟩⟩
  · have hd : s.u.st ≠ .dormant := alive_not_dormant c.runs
    obtain ⟨t, ha, hst, harm, hcfg, -⟩ := row_stateReached c (b := 1) (st := .idle) rfl (by decide) (stateReach_idle hd hs)
    exact ⟨t, congrArg _ ha, hst, harm, hcfg⟩
  · obtain ⟨t, ha, hst, harm, hcfg, -⟩ := row_stateReached c (b := 2) (st := .run) rfl (by decide) (stateReach_run hs)
    exact ⟨t, congrArg _ ha, hst, harm, hcfg⟩
  · obtain ⟨t, ha, hst, harm, hcfg, -⟩ := row_stateReached c (b := 3) (st := .vigil) rfl (by decide) (stateReach_vigil hs)
    exact ⟨t, congrArg _ ha, hst, harm, hcfg⟩
  · obtain ⟨t, ha, hst, harm, hcfg, hcause⟩ := row_stateReached c (b := 4) (st := .safe) rfl (by decide) (stateReach_safe s)
    exact ⟨t, congrArg _ ha, hst, harm, hcfg, hcause⟩

end Sys2Proof.Machine
end

section
/-! SUPPORT. The claim hold-off, WAKE in VIGIL and the sentinel bursts (03 R146–R149, 07 R322). -/

namespace Sys2Proof.Machine

theorem execSentinelBurst_starts {s : State} (hd : burstDue s = true) (hn : s.vigil.burst = none) :
    execSentinelBurst s = .next (burstStart s) := by
  simp [execSentinelBurst, hd, hn]

theorem execSentinelBurst_skips {s : State} {u : Nat} (hd : burstDue s = true) (hb : s.vigil.burst = some u) (hu : u ≠ s.t.up) :
    execSentinelBurst s = .next { s with sched.skipped := s.sched.skipped + 1 } := by
  simp [execSentinelBurst, hd, hb, hu]

/-- Settles O41: each event that is due writes its own fields; a burst's start leaves configuration and condition, as everything it
does keeps them. -/
theorem vigilAndHoldoffEvents : Obligations.VigilAndHoldoffEvents := by
  intro s
  refine ⟨fun hh => ?_, fun hv => ?_, fun hd hn => ⟨_, execSentinelBurst_starts hd hn, rfl, rfl, rfl, ?_, ?_⟩,
    fun u hd hb hu => execSentinelBurst_skips hd hb hu, fun hv hb hw => ?_⟩
  · show execClaimHoldoffEnd s = _
    simp [execClaimHoldoffEnd, hh]
  · show execWakeInVigil s = _
    simp [execWakeInVigil, hv]
  · exact (burstStart_keeps (Keeps.self s)).unit
  · exact (burstStart_keeps (Keeps.self s)).config
  · show execSentinelBurstEnd s = _
    simp [execSentinelBurstEnd, hv, hb, hw]

end Sys2Proof.Machine
end

section
/-! SUPPORT. Boots (03 R129–R141): from its reset on, a boot moves neither the count nor the pair, and its condition only in the state it
ends in. -/

namespace Sys2Proof.Machine

/-! ### What the steps of a boot leave alone -/

/-- From `s` to `t` the unit's condition, the count, the phase and the pair stand. -/
structure SameUnit (s t : State) : Prop where
  unit  : t.u = s.u
  count : t.t.count = s.t.count
  phase : t.t.p = s.t.p
  twin  : t.twin = s.twin

theorem SameUnit.refl (s : State) : SameUnit s s := ⟨rfl, rfl, rfl, rfl⟩

theorem SameUnit.trans {s x t : State} (h : SameUnit s x) (k : SameUnit x t) : SameUnit s t :=
  ⟨k.unit.trans h.unit, k.count.trans h.count, k.phase.trans h.phase, k.twin.trans h.twin⟩

theorem SameUnit.ite {s x y : State} {c : Prop} [Decidable c] (hx : SameUnit s x) (hy : SameUnit s y) :
    SameUnit s (if c then x else y) := by
  split
  · exact hx
  · exact hy

theorem foldl_sameUnit {α : Type} {f : State → α → State} (hf : ∀ s a, SameUnit s (f s a)) (l : List α) (s : State) :
    SameUnit s (l.foldl f s) := by
  induction l generalizing s with
  | nil => exact .refl s
  | cons a l ih => exact (hf s a).trans (ih (f s a))

theorem logE_sameUnit (s : State) (o : BitVec 16) (ev sub : Nat) (old new : Word) : SameUnit s (logE s o ev sub old new) :=
  ⟨rfl, rfl, rfl, rfl⟩

/-! ### Step 6: the images (03 R129, 20 R883, R940) -/

theorem loadPut_sameUnit (s : State) (ps : List (Nat × Word)) : SameUnit s (loadPut s ps) := by
  unfold loadPut freqNote
  refine foldl_sameUnit (fun s p => ?_) ps s
  repeat' split
  all_goals exact ⟨rfl, rfl, rfl, rfl⟩

theorem loadCal_sameUnit (s : State) (i : CfgImage) : SameUnit s (loadCal s i) := by
  unfold loadCal forEach
  refine foldl_sameUnit (fun s c => ?_) _ s
  exact ⟨rfl, rfl, rfl, rfl⟩

theorem loadCopies_sameUnit (s : State) (i : CopyImage) : SameUnit s (loadCopies s i) := by
  unfold loadCopies loadWaves
  refine .trans ?_ (foldl_sameUnit (fun s w => ?_) i.waves _)
  · exact ⟨rfl, rfl, rfl, rfl⟩
  · split <;> exact ⟨rfl, rfl, rfl, rfl⟩

theorem bootSend_sameUnit (s : State) : SameUnit s (bootSend s) := .ite (.refl s) ⟨rfl, rfl, rfl, rfl⟩

theorem bootCfg_sameUnit (s : State) : SameUnit s (bootCfg s) := by
  unfold bootCfg
  split
  · refine .trans ?_ (bootSend_sameUnit _)
    refine .trans ?_ (loadCal_sameUnit _ _)
    exact (loadPut_sameUnit s _).trans ⟨rfl, rfl, rfl, rfl⟩
  · exact .refl s

theorem bootCopies_sameUnit (s : State) : SameUnit s (bootCopies s) := by
  unfold bootCopies
  split
  · exact loadCopies_sameUnit s _
  · exact .refl s

theorem bootRights_sameUnit (s : State) : SameUnit s (bootRights s) := by
  unfold bootRights
  split <;> exact ⟨rfl, rfl, rfl, rfl⟩

/-- The unit at the end of step 5: reset, its clock selected, and what step 5 found noted. -/
def bootBegun (s : State) (e : BootEnv) (cause : Nat) (clk : ClkSrc) : State :=
  let s1 := bootSeam (bareState s) e
  { s1 with u := { s1.u with rcause := cause, testen := e.testen, bootUs := e.bootUs, bootFault := bootCause s e },
            ring := { s1.ring with selected := clk, clk := clk, xtal := e.crystal } }

theorem bootLoad_sameUnit (s : State) (e : BootEnv) (cause : Nat) (clk : ClkSrc) :
    SameUnit (bootBegun s e cause clk) (bootLoad s e cause clk) := by
  have h := (bootCfg_sameUnit (bootBegun s e cause clk)).trans (bootCopies_sameUnit _)
  exact (SameUnit.ite (.refl _) h).trans (bootRights_sameUnit _)

/-! ### Step 7: the Logbook (03 R136, R137) -/

theorem bootNote_sameUnit {α : Type} (i : Img α) (region skipped : Nat) (crc : α → Word) (s : State) :
    SameUnit s (bootNote i region skipped crc s) := by
  cases i <;> exact ⟨rfl, rfl, rfl, rfl⟩

theorem bootNotes_sameUnit (s : State) (cause skips : Nat) : SameUnit s (bootNotes s cause skips) := by
  unfold bootNotes
  extract_lets s1 s2
  have h1 : SameUnit s s1 := .ite (.refl s) ((bootNote_sameUnit ..).trans (bootNote_sameUnit ..))
  have h2 : SameUnit s s2 := h1.trans (bootNote_sameUnit ..)
  exact h2.trans (.ite (logE_sameUnit ..) (.refl _))

theorem testenRecover_sameUnit (s : State) : SameUnit s (testenRecover s) := by
  unfold testenRecover
  extract_lets ks r _ _ n s1
  have h1 : SameUnit s s1 := by
    refine .trans ?_ (foldl_sameUnit (fun s c => logE_sameUnit ..) ks _)
    exact ⟨rfl, rfl, rfl, rfl⟩
  exact h1.trans (logE_sameUnit ..)

theorem bootLogbook_sameUnit (s0 s : State) (e : BootEnv) (cause : Nat) : SameUnit s (bootLogbook s0 s e cause) := by
  unfold bootLogbook
  extract_lets l prior era _ s1 s2 s3 s4
  have h1 : SameUnit s s1 := ⟨rfl, rfl, rfl, rfl⟩
  have h2 : SameUnit s s2 := (h1.trans (logE_sameUnit ..)).trans (bootNotes_sameUnit ..)
  have h3 : SameUnit s s3 := .ite (h2.trans (testenRecover_sameUnit _)) h2
  have h4 : SameUnit s s4 := .ite h3 (h3.trans (logE_sameUnit ..))
  clear_value s4 s3 s2 s1 era prior
  cases prior
  · exact h4
  · exact h4.trans (logE_sameUnit ..)

theorem bootRelay_sameUnit (s : State) (e : BootEnv) : SameUnit s (bootRelay s e) := .ite (.refl s) ⟨rfl, rfl, rfl, rfl⟩

/-! ### Step 8: the state (03 R139, R141) -/

theorem autoSeal_sameUnit (s : State) (b : Nat) : SameUnit s (autoSeal s b) :=
  .ite (.refl s) (.ite ⟨rfl, rfl, rfl, rfl⟩ (.ite ⟨rfl, rfl, rfl, rfl⟩ ⟨rfl, rfl, rfl, rfl⟩))

/-- Where no join runs, a change of state writes the unit's condition, its entry and its event alone. -/
theorem stateTo_boots {s : State} (hj : s.twin.join = none) (st : UState) (cause o : BitVec 16) :
    (stateTo s st cause o).u = { s.u with st := st, safecause := cause, chgEra := s.t.era, chgTick := s.t.count } ∧
      (stateTo s st cause o).t = s.t ∧ (stateTo s st cause o).twin = s.twin := by
  unfold stateTo
  extract_lets old new s1 _ s2 s3
  have h3 : s3.twin.join = none := (congrArg TwinSt.join (queueEvent_twin ..)).trans hj
  have he : joinEndSend s3 10 [twinMsg 0x0E [2]] = s3 := by simp [joinEndSend, h3]
  rw [he]
  exact ⟨queueEvent_u .., queueEvent_t .., queueEvent_twin ..⟩

/-- The state a boot ends in, by what its step 5 found. -/
def bootState (s : State) (e : BootEnv) : UState := if e.seamUp = true ∧ e.frev = s.fac.wantFrev then .idle else .safe

theorem bootCause_eq_zero {s : State} {e : BootEnv} : bootCause s e = 0 ↔ e.seamUp = true ∧ e.frev = s.fac.wantFrev := by
  unfold bootCause
  cases e.seamUp <;> simp

/-- The end of a boot: IDLE, or SAFE with a cause found, of a unit that stands as it was. -/
theorem bootEnd_booted {s : State} (hj : s.twin.join = none) (hm : s.twin.mode = 0) (hc : s.t.count = 0) (hp : s.t.p = 0) :
    Booted (bootEnd s) s.u.rcause (if s.u.bootFault = 0 then .idle else .safe) := by
  unfold bootEnd
  extract_lets _ s1
  split
  · obtain ⟨hu, ht, hw⟩ := stateTo_boots (s := s1) hj .idle 0 orgUnit
    exact ⟨by rw [hu], by rw [hu], by rw [ht]; exact hc, by rw [ht]; exact hp, by rw [hw]; exact hm⟩
  · obtain ⟨hu, ht, hw⟩ := stateTo_boots (s := s1) hj .safe s.u.bootFault orgUnit
    obtain ⟨ku, kc, kp, kw⟩ := autoSeal_sameUnit (stateTo s1 .safe s.u.bootFault orgUnit) 0
    exact ⟨by rw [ku, hu], by rw [ku, hu], by rw [kc, ht]; exact hc, by rw [kp, ht]; exact hp, by rw [kw, hw]; exact hm⟩

/-- A boot with a clock and a good ROM. -/
theorem boot_booted (s : State) {e : BootEnv} (cause : Nat) (hk : e.cki = true ∨ e.crystal = true) (hr : e.romGood = true) :
    Booted (boot s e cause) cause (bootState s e) := by
  obtain ⟨clk, hclk⟩ : ∃ clk, bootClk e = some clk := by
    unfold bootClk
    rcases hk with h | h
    · exact ⟨.cki, by simp [h]⟩
    · cases e.cki <;> simp [h]
  have hb : boot s e cause = bootEnd (bootRelay (bootLogbook s (bootLoad s e cause clk) e cause) e) := by
    simp [boot, hclk, hr]
  obtain ⟨hu, hc, hp, hw⟩ :=
    ((bootLoad_sameUnit s e cause clk).trans (bootLogbook_sameUnit s _ e cause)).trans (bootRelay_sameUnit _ e)
  have hbare : (bootBegun s e cause clk).t = TimeSt0 ∧ (bootBegun s e cause clk).twin = TwinSt0 := by
    simp only [bootBegun, bootSeam]
    split <;> exact ⟨rfl, rfl⟩
  obtain ⟨ht0, hw0⟩ := hbare
  have hend := bootEnd_booted (by rw [hw, hw0]; rfl) (by rw [hw, hw0]; rfl) (by rw [hc, ht0]; rfl) (by rw [hp, ht0]; rfl)
  rw [← hb, hu] at hend
  have hst : bootState s e = if (bootBegun s e cause clk).u.bootFault = 0 then .idle else .safe :=
    (if_congr bootCause_eq_zero rfl rfl).symm
  rw [hst]
  exact hend

/-- Without a clock the unit is DORMANT (03 R130). -/
theorem boot_dormant (s : State) {e : BootEnv} (cause : Nat) (hk : e.cki = false) (hx : e.crystal = false) :
    boot s e cause = dormantState s := by
  simp [boot, bootClk, hk, hx]

theorem execDormantEntry_enters {s : State} (ha : s.u.armed = true) (hi : s.u.st = .idle)
    (hc : s.ring.clk = .backup ∨ s.ring.clk = .crystal ∧ s.t.p = 0) : execDormantEntry s = .next (dormantState s) := by
  rcases hc with h | ⟨h, hp⟩ <;> simp_all [execDormantEntry]

/-- Settles O38: each reset and wake that acts is a boot of its cause, which keeps the count, the phase and the pair of the reset unit
and ends in the state its step 5 allows; without a clock only what NV holds is left. -/
theorem bootsAndWakes : Obligations.BootsAndWakes := by
  intro s e
  refine ⟨fun hk hr => ⟨⟨_, rfl, boot_booted s 0 hk hr⟩, ⟨_, rfl, boot_booted s 1 hk hr⟩, fun hf => ⟨_, ?_, boot_booted s 2 hk hr⟩,
      fun hd => ⟨⟨_, ?_, boot_booted s 5 hk hr⟩, ⟨_, ?_, boot_booted s 6 hk hr⟩⟩,
      fun mode sf ha hp hdue hsf => ⟨_, ?_, boot_booted s _ hk hr⟩⟩,
    fun hk hx => ⟨_, congrArg Host.Outcome.next (boot_dormant s 0 hk hx), rfl, rfl, rfl⟩,
    fun ha hi hc => ⟨_, execDormantEntry_enters ha hi hc, rfl, rfl, rfl, rfl⟩⟩
  · show execResetPin e s = _
    simp [execResetPin, hf]
  · show execWakeCki e s = _
    simp [execWakeCki, hd]
  · show execWakePin e s = _
    simp [execWakePin, hd]
  · show execResetStart e s = _
    simp [execResetStart, hdue, ha, hp, hsf]

end Sys2Proof.Machine
end

section
/-! SUPPORT. The bias ramp (09 R394) under a tone (13 R586): the code handed over is that of the ramp's target with the tone added. -/

namespace Sys2Proof.Machine

theorem biasHanded_congr {s t : State} (h : t.seam = s.seam) (k : Nat) : biasHanded t k = biasHanded s k := by
  rw [biasHanded, biasHanded, h]

/-- A code handed over is the one last handed over, whether it had to be sent or stood already. -/
theorem biasHanded_biasTo (s : State) {k : Nat} (hk : k < 4) (c : BitVec 14) : biasHanded (biasTo s k c) k = c := by
  unfold biasTo
  split
  · next h => exact h.symm
  · show (vget (vset s.seam.biasPend k (some c)) k none).getD _ = c
    rw [vget_vset_same _ _ _ hk]
    rfl

theorem taskEnd_seam (s : State) (n status reason : Nat) (result : List Byte) :
    (taskEnd s n status reason result).seam = s.seam := by
  unfold taskEnd taskEndBy taskDone
  split
  · rfl
  · simp

theorem rampOver_seam (s : State) (k : Nat) : (rampOver s k).seam = s.seam := by
  unfold rampOver
  dsimp only
  split
  · exact taskEnd_seam ..
  · rfl

/-- One computation of a ramp hands over the code of its target with the tone of a check added. -/
theorem biasHanded_cellRampStep {s : State} {k : Nat} (hk : k < 4) (hr : (cellOf s k).ramping = true)
    (hs : (cellOf s k).suspended = false) :
    biasHanded (cellRampStep s k) k = biasCode (rampAfter s k (s.t.up - (cellOf s k).rampAt) + cellTone s k) := by
  have hgo : ¬((!(cellOf s k).ramping || (cellOf s k).suspended) = true) := by simp [hr, hs]
  unfold cellRampStep
  dsimp only
  rw [if_neg hgo]
  split
  · rw [biasHanded_congr (rampOver_seam ..), biasHanded_biasTo _ hk]
  · exact biasHanded_biasTo _ hk _

/-- Cell 0 open in RUN, its ramp starting in this tick at 0 V, with a check's tone at 0.1 V on it. -/
def tonedRamp : State :=
  { State.reset with
      u.st := .run,
      cell := vmod State.reset.cell 0 (fun c => { c with step := .open_, ramping := true }),
      z.run := some { task := 1, target := .cell 0, chans := [], inc := 0, cycles := 1, ampl := 1 / 10, granted := true, t0 := some 0,
                      tEnd := 512, pts := [], tone := 1 / 10 } }

/-- Refutes O52: while a check runs on a cell, its tone is added to the target before the code is formed (13 R586), so in `tonedRamp` the
code handed over is 8 875, that of 0.1 V, where the target is 0 V with the code 8 192. -/
theorem not_cellSequences : ¬ Obligations.CellSequences := by
  intro h
  obtain ⟨-, -, -, -, -, hramp⟩ := h tonedRamp 0
  obtain ⟨t, he, -, hc, -⟩ := hramp rfl rfl
  obtain rfl : cellRampStep tonedRamp 0 = t := Host.Outcome.next.inj he
  have htoned : biasHanded (cellRampStep tonedRamp 0) 0 = biasCode (rampAfter tonedRamp 0 0 + cellTone tonedRamp 0) :=
    biasHanded_cellRampStep (by decide) rfl rfl
  have hcodes : biasCode (rampAfter tonedRamp 0 0 + cellTone tonedRamp 0) = 8875 ∧ biasCode (rampAfter tonedRamp 0 0) = 8192 := by
    decide +kernel
  obtain ⟨h1, h2⟩ := hcodes
  exact absurd (h1.symm.trans (htoned.symm.trans (hc.trans h2))) (by decide)

end Sys2Proof.Machine
end

section
/-! SUPPORT. What the operations that a header, a slot or a window calls leave of the ring and of the outputs: a split of the pair, an
event of a tally source, a fire placed in capture memory. -/

namespace Sys2Proof.Machine

/-! ### A split of the pair (19 R865, R866) moves nothing of the ring -/

theorem forEach_ring {f : State → Nat → State} (hf : ∀ s i, (f s i).ring = s.ring) (ns : List Nat) (s : State) :
    (forEach s ns f).ring = s.ring := by
  unfold forEach
  induction ns generalizing s with
  | nil => rfl
  | cons n ns ih => exact (ih (f s n)).trans (hf s n)

@[simp] theorem alarmEvent_ring (s : State) (r : Nat) (was next : AlarmSt) (value : Word) :
    (alarmEvent s r was next value).ring = s.ring := by
  unfold alarmEvent
  dsimp only
  repeat' split
  all_goals simp

@[simp] theorem pairTo_ring (s : State) (r : Nat) (next : AlarmSt) (value : Word) : (pairTo s r next value).ring = s.ring := by
  simp [pairTo]

@[simp] theorem pairVote_ring (s : State) (r : Nat) (value : Word) : (pairVote s r value).ring = s.ring := by
  unfold pairVote
  dsimp only
  repeat' split
  all_goals simp

@[simp] theorem alarmTo_ring (s : State) (r : Nat) (next : AlarmSt) (o : BitVec 16) (value : Word) :
    (alarmTo s r next o value).ring = s.ring := by
  unfold alarmTo
  dsimp only
  repeat' split
  all_goals simp [twinSend]

theorem splitLeadRules_ring (s : State) (mode : Nat) : (splitLeadRules s mode).ring = s.ring := by
  refine forEach_ring (fun s r => ?_) _ s
  repeat' split
  all_goals simp

theorem splitTailRules_ring (s : State) (mode : Nat) : (splitTailRules s mode).ring = s.ring := by
  refine forEach_ring (fun s r => ?_) _ s
  dsimp only
  split <;> simp

@[simp] theorem playEnd_ring (s : State) (t : Nat) (o : BitVec 16) (closing : Bool) : (playEnd s t o closing).ring = s.ring := by
  unfold playEnd
  dsimp only
  repeat' split
  all_goals simp [rampStart]

@[simp] theorem aoutOff_ring (s : State) (o : BitVec 16) (write : Bool) : (aoutOff s o write).ring = s.ring := by
  unfold aoutOff
  dsimp only
  repeat' split
  all_goals simp

theorem twinSplit_ring (s : State) (o : BitVec 16) (link : Bool) : (twinSplit s o link).ring = s.ring := by
  unfold twinSplit
  extract_lets
  split
  · rfl
  split
  · exact splitLeadRules_ring ..
  split
  · exact (aoutOff_ring ..).trans (splitTailRules_ring ..)
  · exact splitTailRules_ring ..

/-! ### A committed peg (05 R241, R252) -/

theorem pegPair_ring (s : State) (peg : Nat) (o : BitVec 16) : (pegPair s peg o).ring = s.ring := by
  unfold pegPair
  split
  · rfl
  split
  · exact twinSplit_ring ..
  · rfl

theorem pegSet_ring (s : State) (peg hop : Nat) (o : BitVec 16) :
    (pegSet s peg hop o).ring = { s.ring with peg := peg, hop := hop } := by
  unfold pegSet
  extract_lets
  split
  · next h =>
    obtain ⟨rfl, rfl⟩ := h
    rfl
  split
  · rfl
  · exact pegPair_ring ..

/-! ### An event of a tally source (16 R694–R697) -/

/-- From `s` to `t` nothing of the ring or the outputs has moved, and no packet was taken. -/
structure SameRing (s t : State) : Prop where
  ring  : t.ring = s.ring
  out   : t.out = s.out
  taken : t.cmd.taken = s.cmd.taken

theorem queueEvent_taken (s : State) (code : Nat) (data : List Byte) : (queueEvent s code data).cmd.taken = s.cmd.taken := by
  unfold queueEvent
  split <;> rfl

theorem tallyLatch_sameRing (s : State) (i : Nat) : SameRing s (tallyLatch s i) :=
  ⟨queueEvent_ring .., queueEvent_out .., queueEvent_taken ..⟩

/-- Counting leaves the ring alone; what a source does when it becomes LASTING is its action's. -/
theorem tallyEvent_cases (s : State) (i : Nat) :
    ∃ x : State, SameRing s x ∧ (tallyEvent s i = x ∨ tallyEvent s i = lastingAction x i) := by
  unfold tallyEvent tallyNow
  extract_lets s1
  have h1 : SameRing s s1 := ⟨rfl, rfl, rfl⟩
  obtain ⟨hring, hout, htaken⟩ := tallyLatch_sameRing s1 i
  split
  · split
    · exact ⟨s1, h1, .inl rfl⟩
    · exact ⟨_, ⟨hring.trans h1.ring, hout.trans h1.out, htaken.trans h1.taken⟩, .inr rfl⟩
  · exact ⟨s1, h1, .inl rfl⟩

/-- RING_CRC has no action of its own. -/
theorem ringCrc_sameRing (s : State) : SameRing s (tallyEvent s 3) := by
  obtain ⟨x, hx, e | e⟩ := tallyEvent_cases s 3
  · rwa [e]
  · rw [e]
    exact hx

/-- PEG_CLASH that becomes LASTING asks for the peg to go, and nothing more (05 R252). -/
theorem pegClash_ring (s : State) :
    (∃ b, (tallyEvent s 4).ring = { s.ring with pegDrop := b }) ∧ (tallyEvent s 4).out = s.out := by
  obtain ⟨x, hx, e | e⟩ := tallyEvent_cases s 4
  · rw [e, hx.ring]
    exact ⟨⟨s.ring.pegDrop, rfl⟩, hx.out⟩
  · rw [e]
    exact ⟨⟨true, by rw [← hx.ring]; rfl⟩, hx.out⟩

/-! ### A fire placed in capture memory (15 R657–R674) -/

/-- From `s` to `t` only capture memory and the Logbook have moved. -/
def CaptOnly (s t : State) : Prop := t = { s with capt := t.capt, log := t.log }

theorem CaptOnly.refl (s : State) : CaptOnly s s := rfl

theorem CaptOnly.trans {s t u : State} (h : CaptOnly s t) (k : CaptOnly t u) : CaptOnly s u := by
  unfold CaptOnly at h k ⊢
  rw [k, h]

theorem capPush_captOnly (s : State) (w : BitVec 64) (u : Nat) : CaptOnly s (capPush s w u) := by
  unfold capPush
  repeat' split
  all_goals rfl

theorem capFireWords_captOnly (s : State) (tick : BitVec 48) (frac : Byte) (late own : Bool) :
    CaptOnly s (capFireWords s tick frac late own) :=
  (capPush_captOnly ..).trans (capPush_captOnly ..)

theorem capStore_captOnly (s : State) (r : FifoRec) : CaptOnly s (capStore s r) := by
  unfold capStore
  repeat' split
  all_goals rfl

theorem capStores_captOnly (rs : List FifoRec) (s : State) : CaptOnly s (rs.foldl capStore s) := by
  induction rs generalizing s with
  | nil => exact .refl s
  | cons r rs ih => exact (capStore_captOnly s r).trans (ih _)

theorem capOutside_captOnly (s : State) (w : BitVec 64) (u : Nat) : CaptOnly s (capOutside s w u) :=
  CaptOnly.trans (by rfl) (capStores_captOnly ..)

theorem capClose_captOnly (s : State) (status : Nat) (o : BitVec 16) : CaptOnly s (capClose s status o) := by
  unfold capClose
  extract_lets s1 _ s2 s3
  have h3 : CaptOnly s s3 := (capOutside_captOnly s _ _).trans rfl
  split
  · split
    · exact h3.trans rfl
    · exact h3.trans rfl
  · exact h3

theorem capFire_captOnly (s : State) (k : BitVec 56) : CaptOnly s (capFire s k) := by
  unfold capFire
  extract_lets tick earlier own _ n x1 _ late y1 y2 _ y3
  have hx : CaptOnly s x1 := CaptOnly.trans (by rfl) (capFireWords_captOnly ..)
  have hy1 : CaptOnly s y1 := by
    unfold y1
    split <;> rfl
  have hy3 : CaptOnly s y3 := (hy1.trans (capFireWords_captOnly ..)).trans rfl
  split
  · rfl
  split
  · exact (hx.trans (by rfl)).trans (capClose_captOnly ..)
  split
  · rfl
  split
  · exact hy3.trans (capClose_captOnly ..)
  · exact hy3

end Sys2Proof.Machine
end

section
/-! SUPPORT. Headers at a unit on CKI (04 R181, R194, R222, R223, 05 R252, 06 R292, 12 R552). -/

namespace Sys2Proof.Machine

/-! ### A header at an unlocked unit (04 R181, R183) -/

theorem relays_alive {s : State} (ha : alive s = true) (hc : s.ring.clk = .cki) : relays s = true := by
  obtain ⟨hd, -⟩ : s.u.st ≠ .dormant ∧ s.u.romFail = false := by simpa [alive] using ha
  simp [relays, hd, hc]

theorem execSuperframeHeader_alive {s : State} (ha : alive s = true) (hc : s.ring.clk = .cki) (h : BitVec 512) (shift : Word) :
    execSuperframeHeader h shift s = .next (headerArrive s h shift) := by
  simp [execSuperframeHeader, relays_alive ha hc, ha]

/-- Unlocked, the unit holds the syncword, and the header leaves by its OUT port unless its own beacons fill that. -/
theorem headerArrive_unlocked {s : State} (hl : s.ring.lock = .unlocked) (h : BitVec 512) (shift : Word) :
    headerArrive s h shift = headerRelay
      { s with ring.lock := .acquiring (if syncOk h then [bitZero s shift] else []) } s.ring.beaconing h := by
  simp [headerArrive, hl, headerSearch]

/-- So where it sends beacons, the header it last put out stands. -/
theorem execSuperframeHeader_held {s : State} (ha : alive s = true) (hc : s.ring.clk = .cki) (hl : s.ring.lock = .unlocked)
    (hb : s.ring.beaconing = true) {h : BitVec 512} (hne : h ≠ s.out.header) (shift : Word) (l : Lock) :
    execSuperframeHeader h shift s ≠ .next { s with ring.lock := l, out.header := h } := by
  intro e
  rw [execSuperframeHeader_alive ha hc, headerArrive_unlocked hl, hb] at e
  have hheader : s.out.header = h := congrArg (fun t : State => t.out.header) (Host.Outcome.next.inj e)
  exact hne hheader.symm

/-- A unit on CKI, unlocked since its boot, that has just begun to send beacons (04 R222). -/
def dataLossUnit : State := beaconSend (orphanEnter { State.reset with t.up := 32 * 512, ring.dataLoss := true })

/-- DATA_LOSS_BEACON brings it about. -/
theorem execDataLossBeacon_dataLossUnit :
    execDataLossBeacon { State.reset with t.up := 32 * 512 } = .next dataLossUnit :=
  execDataLossBeacon_acts rfl rfl rfl nofun rfl (by decide)

theorem dataLossUnit_beacons : alive dataLossUnit = true ∧ dataLossUnit.ring.clk = .cki ∧ dataLossUnit.ring.lock = .unlocked ∧
    dataLossUnit.ring.beaconing = true ∧ dataLossUnit.out.header = 0 :=
  ⟨rfl, rfl, rfl, rfl, rfl⟩

/-- A header of a syncword and zeros. -/
def syncHeader : BitVec 512 := hPut 0 0 32 0x7C6B3E95

theorem syncHeader_ne_zero : syncHeader ≠ 0 := ne_of_apply_ne syncOk (by decide +kernel)

/-- Refutes O45: an unlocked unit that sends beacons fills its OUT port with them (04 R221, R222), so the header that arrives at
`dataLossUnit` does not leave it. -/
theorem not_headerPasses : ¬ Obligations.HeaderPasses := by
  intro hpasses
  obtain ⟨ha, hc, hl, hb, hout⟩ := dataLossUnit_beacons
  obtain ⟨-, -, hunlocked, -⟩ := hpasses dataLossUnit syncHeader 0 ha hc
  have hne : syncHeader ≠ dataLossUnit.out.header := by rw [hout]; exact syncHeader_ne_zero
  exact execSuperframeHeader_held ha hc hl hb hne 0 _ (hunlocked hl)

/-! ### Rows of one field -/

/-- The count a SYNC names ends in SYNC_AT (12 R552). -/
theorem syncCount_low (c : BitVec 48) (syncAt : BitVec 16) :
    (c + (syncAt - c.setWidth 16).setWidth 48).setWidth 16 = syncAt := by
  bv_omega

/-- It is the first such count from `c` on. -/
theorem syncCount_first (c : BitVec 48) (d : BitVec 16) : (c + d.setWidth 48 - c).toNat < 65536 := by
  have h : c + d.setWidth 48 - c = d.setWidth 48 := by rw [BitVec.add_comm, BitVec.add_sub_cancel]
  rw [h]
  bv_omega

theorem outPut_shape (s : State) (a n v : Nat) : ∃ o, outPut s a n v = { s with out := o } := ⟨_, rfl⟩

theorem mapPass_shape (s : State) (a : Nat) (on : Bool) : ∃ o, mapPass s a on = { s with out := o } := by
  unfold mapPass
  split
  · exact outPut_shape ..
  · exact ⟨s.out, rfl⟩

theorem mapsPass_shape (s : State) : ∃ o, mapsPass s = { s with out := o } := by
  unfold mapsPass
  obtain ⟨o, ho⟩ := mapPass_shape s 272 s.ring.alarmMap
  rw [ho]
  exact mapPass_shape { s with out := o } 336 s.ring.faultMap

theorem beaconPass_shape (s : State) (h : BitVec 512) : ∃ o, beaconPass s h = { s with ring.seen := none, out := o } := by
  unfold beaconPass
  obtain ⟨m, hm⟩ := mapsPass_shape { s with out.header := h }
  obtain ⟨o, ho⟩ := outPut_shape { s with out := m } 408 8 (addOne (hGet h 408 8))
  rw [hm, ho]
  exact ⟨{ o with header := hSeal o.header (syndrome h) }, rfl⟩

theorem orphanEnter_due (s : State) : (orphanEnter s).arms = s.arms ∧ (orphanEnter s).syncs = s.syncs := by
  unfold orphanEnter
  split <;> exact ⟨rfl, rfl⟩

/-- A good beacon shows the ORPHAN condition, and nothing is taken from its fields (04 R223). -/
theorem beaconTake_ring (s : State) (h : BitVec 512) : ∃ n, (beaconTake s h).ring = { s.ring with
    hdr := .beacon, lastBad := false, missedRun := 0, beaconLock := true, seen := none, orphan := true, orphans := n } := by
  unfold beaconTake
  obtain ⟨o, ho⟩ := beaconPass_shape s h
  rw [ho]
  exact orphanEnter_ring _

theorem beaconTake_due (s : State) (h : BitVec 512) : (beaconTake s h).arms = s.arms ∧ (beaconTake s h).syncs = s.syncs := by
  unfold beaconTake
  obtain ⟨o, ho⟩ := beaconPass_shape s h
  rw [ho]
  exact orphanEnter_due _

theorem bulkGrant_frame {s : State} {b : Bulk} {len : Nat} (hp : isPitched s = true) (h13 : 13 ≤ len) (h448 : len ≤ 448)
    (hb : s.cmd.bulk = some b) : bulkGrant s s.ring.peg len = bulkFrame s b len := by
  simp [bulkGrant, hp, h13, h448, hb]

theorem execPegClashRelease_acts {s : State} (ha : alive s = true) (hd : s.ring.pegDrop = true) (hp : s.t.p = 16) :
    execPegClashRelease s = .next (pegSet { s with ring.pegDrop := false } 0 s.ring.hop orgUnit) := by
  simp [execPegClashRelease, ha, hd, hp]

/-- Settles O46: each row notes its own field; a beacon is taken as `beaconTake_ring` says; the peg goes by `pegSet`, whose split of a pair
leaves the ring alone. -/
theorem headerFieldRows : Obligations.HeaderFieldRows := by
  intro s
  refine ⟨fun hl hp armId => ⟨?_, ?_⟩, fun hl hf _ syncAt => ⟨_, ?_, syncCount_low _ syncAt, syncCount_first _ _⟩,
    fun hl h hn hs => ⟨beaconTake s h, ?_, ?_⟩, fun hl hp len b h13 h448 hb h256 => ?_,
    fun ha hd hp => ⟨_, execPegClashRelease_acts ha hd hp, ?_⟩⟩
  · show execHeaderArm armId s = _
    simp [execHeaderArm, hl, armNote, hp]
  · show execHeaderDisarm armId s = _
    simp [execHeaderDisarm, hl, armNote, hp]
  · show execHeaderSync syncAt s = _
    simp only [execHeaderSync, hl, headerSync, nextCount, hf]
    rfl
  · show execBeaconHeader h s = _
    simp [execBeaconHeader, hl, hn, hs]
  · obtain ⟨n, hring⟩ := beaconTake_ring s h
    obtain ⟨harms, hsyncs⟩ := beaconTake_due s h
    rw [hring]
    exact ⟨rfl, rfl, rfl, harms, hsyncs⟩
  · show execBulkGrant (byteOf s.ring.peg) len s = _
    simp [execBulkGrant, hl, byteOf_toNat h256, bulkGrant_frame hp h13 h448 hb]
  · rw [pegSet_ring]
    exact ⟨rfl, rfl, rfl⟩

end Sys2Proof.Machine
end

section
/-! SUPPORT. The three passes of a fire (04 R196–R200, R230, R231). -/

namespace Sys2Proof.Machine

theorem execFirePass_live {s : State} (hl : ringLive s = true) (key : BitVec 56) :
    execFirePass key s = .next (firePass s key true) := by
  simp [execFirePass, hl]

/-- A pending fire: the smaller key goes on, and the standing is taken (04 R197). -/
theorem firePass_due {s : State} (hp : isPitched s = true) {k : BitVec 56} (hk : fireDue s = some k) (key : BitVec 56) :
    firePass s key true = outPut { seenNote s false true false 0 false with
      ring.standing := some (if k.toNat < key.toNat then .lead else if k = key then .tie else .lose) }
      216 56 (min k.toNat key.toNat) := by
  have hmin : (if k.toNat < key.toNat then k else key).toNat = min k.toNat key.toNat := by
    split <;> omega
  simp [firePass, hp, hk, hmin]

theorem firePass_none {s : State} (hp : isPitched s = true) (hk : fireDue s = none) (key : BitVec 56) :
    firePass s key true = outPut { seenNote s false true false 0 false with ring.standing := none } 216 56 key.toNat := by
  simp [firePass, hp, hk]

theorem execResolvePass_live {s : State} (hl : ringLive s = true) (hp : isPitched s = true) (peg : Byte) (key : BitVec 56) :
    execResolvePass peg key s = .next (fireLearn (resolvePass s peg.toNat true) key) := by
  simp [execResolvePass, hl, hp]

theorem execConfirmPass_live {s : State} (hl : ringLive s = true) (hp : isPitched s = true) (peg : Byte) (key : BitVec 56) :
    execConfirmPass peg key s =
      .next (fireConfirm (seenNote s true true false peg.toNat false) peg.toNat key) := by
  simp [execConfirmPass, hl, hp]

/-! ### The ring's fire time (04 R200) -/

theorem fireTime_shape (s : State) (key : BitVec 56) : CaptOnly { s with ring.ringKey := some key } (fireTime s key) := by
  unfold fireTime
  extract_lets _ s1
  split
  · exact capFire_captOnly ..
  · exact .refl _

theorem fireTime_ring (s : State) (key : BitVec 56) : (fireTime s key).ring = { s.ring with ringKey := some key } := by
  rw [fireTime_shape]

theorem fireTime_out (s : State) (key : BitVec 56) : (fireTime s key).out = s.out := by
  rw [fireTime_shape]

theorem fireTime_cfg (s : State) (key : BitVec 56) : (fireTime s key).cfg = s.cfg := by
  rw [fireTime_shape]

/-- Learning it ends a pending fire that is not earlier. -/
theorem fireLearn_some {s : State} {k : BitVec 56} (hk : s.ring.fire = some k) (key : BitVec 56) :
    (fireLearn s key).ring.fire = if key.toNat ≤ k.toNat then none else some k := by
  simp [fireLearn, fireTime_ring, hk]

theorem fireLearn_none {s : State} (hk : s.ring.fire = none) (key : BitVec 56) : (fireLearn s key).ring.fire = none := by
  simp [fireLearn, fireTime_ring, hk]

theorem fireLearn_ringKey (s : State) (key : BitVec 56) : (fireLearn s key).ring.ringKey = some key := by
  simp only [fireLearn, fireTime_ring]

theorem fireLearn_out (s : State) (key : BitVec 56) : (fireLearn s key).out = s.out := fireTime_out ..

theorem fireLearn_cfg (s : State) (key : BitVec 56) : (fireLearn s key).cfg = s.cfg := fireTime_cfg ..

/-! ### The resolve pass (04 R198) -/

theorem resolvePass_frame (s : State) (peg : Nat) (good : Bool) :
    (resolvePass s peg good).ring.fire = s.ring.fire ∧ (resolvePass s peg good).cfg = s.cfg := by
  unfold resolvePass
  extract_lets
  split <;> exact ⟨rfl, rfl⟩

/-- FIRE_PEG goes on where the standing leaves it as it came. -/
theorem resolvePass_keeps_peg {s : State} {peg : Nat} (h : resolvePeg s peg = peg) (good : Bool) :
    (resolvePass s peg good).out = s.out := by
  unfold resolvePass
  rw [if_pos h]
  rfl

/-- Where the standing brings another peg than the one that came, that peg leaves. -/
theorem resolvePass_writes_peg {s : State} {peg out : Nat} (h : resolvePeg s peg = out) (hne : out ≠ peg) (good : Bool) :
    (resolvePass s peg good).out.header = hPut s.out.header 208 8 out := by
  unfold resolvePass
  rw [if_neg (by rw [h]; exact hne), h]
  rfl

theorem resolvePeg_lead {s : State} (hp : isPitched s = true) (h : s.ring.standing = some .lead) (peg : Nat) :
    resolvePeg s peg = s.ring.peg := by
  simp [resolvePeg, hp, h]

theorem resolvePeg_tie {s : State} (hp : isPitched s = true) (h : s.ring.standing = some .tie) (peg : Nat) :
    resolvePeg s peg = min peg s.ring.peg := by
  simp [resolvePeg, hp, h]

theorem resolvePeg_other {s : State} (h : s.ring.standing = some .lose ∨ s.ring.standing = none) (peg : Nat) :
    resolvePeg s peg = peg := by
  rcases h with h | h <;> simp [resolvePeg, h]

/-! ### The confirm pass (04 R199, R200, R231) -/

/-- The fire time stands after a confirm pass, learned now where the resolve pass was missed. -/
theorem fireConfirm_time (s : State) (peg : Nat) (key : BitVec 56) :
    ∃ t : State, t.ring.ringKey = some key ∧ t.out = s.out ∧ t.cfg = s.cfg ∧
      fireConfirm s peg key = { t with ring.standing := none, capt.firePeg := if peg ≤ 60 then peg else 0 } := by
  unfold fireConfirm
  split
  · next h => exact ⟨s, h, rfl, rfl, rfl⟩
  · exact ⟨fireTime s key, by rw [fireTime_ring], fireTime_out .., fireTime_cfg .., rfl⟩

/-- Settles O48: each pass by the unit's pending fire or its standing; the fire time reaches capture memory and the Logbook alone. -/
theorem firePasses : Obligations.FirePasses := by
  intro s key hl hp
  refine ⟨fun k hk => ⟨_, execFirePass_live hl key, ?_⟩, fun hk => ⟨_, execFirePass_live hl key, ?_⟩,
    fun peg => ⟨_, execResolvePass_live hl hp peg key, fireLearn_ringKey .., ?_, ?_, ?_, ?_, ?_, ?_⟩,
    fun peg => ⟨_, execConfirmPass_live hl hp peg key, ?_⟩⟩
  · rw [firePass_due hp hk]
    exact ⟨rfl, rfl, rfl⟩
  · rw [firePass_none hp hk]
    exact ⟨rfl, rfl, rfl⟩
  · obtain ⟨hfire, -⟩ := resolvePass_frame s peg.toNat true
    cases hf : s.ring.fire with
    | none => exact fireLearn_none (hfire.trans hf) key
    | some k => exact fireLearn_some (hfire.trans hf) key
  · intro hs hne
    rw [fireLearn_out]
    exact resolvePass_writes_peg (resolvePeg_lead hp hs _) hne.symm true
  · intro hs hlt
    rw [fireLearn_out]
    exact resolvePass_writes_peg ((resolvePeg_tie hp hs _).trans (Nat.min_eq_right hlt.le)) hlt.ne true
  · intro hs hle
    rw [fireLearn_out, resolvePass_keeps_peg ((resolvePeg_tie hp hs _).trans (Nat.min_eq_left hle))]
  · intro hs
    rw [fireLearn_out, resolvePass_keeps_peg (resolvePeg_other hs _)]
  · rw [fireLearn_cfg]
    exact (resolvePass_frame s peg.toNat true).2
  · obtain ⟨t, hkey, hout, hcfg, ht⟩ := fireConfirm_time (seenNote s true true false peg.toNat false) peg.toNat key
    rw [ht]
    exact ⟨hkey, rfl, rfl, hout, hcfg⟩

end Sys2Proof.Machine
end

section
/-! SUPPORT. The response slot (04 R207, R210, R216). -/

namespace Sys2Proof.Machine

theorem ringPart_parts {s : State} (h : ringPart s = true) : ringLive s = true ∧ 1 ≤ s.ring.peg ∧ s.ring.peg ≤ 60 := by
  obtain ⟨⟨hl, hp⟩, -⟩ : (ringLive s = true ∧ isPitched s = true) ∧ headerSeen s = true := by simpa [ringPart] using h
  exact ⟨hl, by simpa [isPitched] using hp⟩

theorem relays_of_ringPart {s : State} (h : ringPart s = true) : relays s = true := by
  obtain ⟨hl, -⟩ := ringPart_parts h
  obtain ⟨⟨ha, hc⟩, -⟩ : (alive s = true ∧ s.ring.clk = .cki) ∧ s.ring.lock = .locked := by simpa [ringLive] using hl
  exact relays_alive ha hc

theorem ringPart_of_slotDue {s : State} (h : slotDue s = true) : ringPart s = true := by
  obtain ⟨⟨hr, -⟩, -⟩ : (ringPart s = true ∧ _) ∧ _ := by simpa only [slotDue, Bool.and_eq_true] using h
  exact hr

/-- The 1 472 bytes of slots and guard are taken as they are. -/
theorem region_whole {r : List Byte} (h : r.length = 1472) : r.take 1472 ++ List.replicate (1472 - r.length) 0 = r := by
  rw [← h]
  simp

theorem execSlotWrite_relays {s : State} (hr : relays s = true) (hb : s.ring.beaconing = false) (hd : slotDue s = false)
    {r : List Byte} (h : r.length = 1472) : execSlotWrite r s = .next { s with out.region := r } := by
  simp only [execSlotWrite, region_whole h, hr, hb, hd]
  rfl

theorem execSlotWrite_beaconing {s : State} (hb : s.ring.beaconing = true) (r : List Byte) : execSlotWrite r s = .next s := by
  simp [execSlotWrite, hb]

/-- The unit's own slot passes: what `slotWrite` puts out takes the place of the 24 bytes that came. -/
theorem execSlotWrite_due {s : State} (hb : s.ring.beaconing = false) (hd : slotDue s = true) {r : List Byte} (h : r.length = 1472) :
    execSlotWrite r s = .next { slotWrite s ((r.drop (slotAt s.ring.peg)).take 24) with
      out.region := slotOver s r (slotWrite s ((r.drop (slotAt s.ring.peg)).take 24)).out.slot } := by
  simp only [execSlotWrite, region_whole h, relays_of_ringPart (ringPart_of_slotDue hd), hb, hd]
  rfl

theorem slot_head (r : List Byte) (n : Nat) : ((r.drop n).take 24).headD 0 = r.getD n 0 := by
  simp [List.headD_eq_head?_getD, List.head?_take, List.head?_drop]

theorem slotWrite_free {s : State} {a : List Byte} (h : bit (a.headD 0).toNat 7 = false) :
    slotWrite s a = { (slotContent s).2 with out.slot := (slotContent s).1 } := by
  unfold slotWrite
  rw [if_neg (by rw [h]; decide)]

theorem slotWrite_filled {s : State} {a : List Byte} (h : bit (a.headD 0).toNat 7 = true) : slotWrite s a = slotClash s a :=
  if_pos h

theorem clash_flag (b : Byte) : byteOf (b.toNat ||| 0x40) = b ||| 0x40 := by
  apply BitVec.eq_of_toNat_eq
  simp [byteOf]

/-- A slot found filled leaves with CLASH set, and the clash is counted. -/
theorem slotClash_counts (s : State) (a : List Byte) : (slotClash s a).ring.clashes = (slotContent s).2.ring.clashes + 1 ∧
    (slotClash s a).out.slot.head? = some (a.headD 0 ||| 0x40) := by
  unfold slotClash
  extract_lets head syn out s1
  obtain ⟨⟨b, hring⟩, hout⟩ := pegClash_ring { s1 with
    out.slot := out ++ beBytes 2 (crc16 out ^^^ syn), ring.clashes := s1.ring.clashes + 1 }
  rw [hring, hout]
  exact ⟨rfl, congrArg some (clash_flag _)⟩

end Sys2Proof.Machine
end

section
/-! SUPPORT. The command window (04 R212, 06 R264–R267, R290). -/

namespace Sys2Proof.Machine

/-! ### A packet reads back as it was laid out (06 R264) -/

theorem crcBit_lt_two_pow {w poly : Nat} (hp : poly < 2 ^ w) (reg : Nat) (b : Bool) : crcBit w poly reg b < 2 ^ w := by
  have hs : reg * 2 % 2 ^ w < 2 ^ w := Nat.mod_lt _ (Nat.two_pow_pos w)
  unfold crcBit
  dsimp only
  split
  · exact Nat.xor_lt_two_pow hs hp
  · exact hs

theorem crcBits_lt_two_pow {w poly : Nat} (hp : poly < 2 ^ w) (k x : Nat) {reg : Nat} (h : reg < 2 ^ w) :
    crcBits w poly k x reg < 2 ^ w := by
  induction k generalizing reg with
  | zero => exact h
  | succ k ih => exact ih (crcBit_lt_two_pow hp _ _)

theorem crc16_lt (bs : List Byte) : crc16 bs < 65536 := by
  have h : ∀ reg < 2 ^ 16, bs.foldl (fun reg b => crcBits 16 0x1021 8 b.toNat reg) reg < 2 ^ 16 := by
    induction bs with
    | nil => exact fun _ h => h
    | cons b bs ih => exact fun reg h => ih _ (crcBits_lt_two_pow (by decide) 8 b.toNat h)
  exact h 0xFFFF (by decide)

theorem packetBytes_length (d : Byte) (p : Packet) : (packetBytes d p).length = 7 + p.payload.length := by
  simp [packetBytes, beBytes_length]
  omega

/-- The bytes a packet's CRC is taken over. -/
def packetBody (d : Byte) (p : Packet) : List Byte := [d, p.src, p.seq, p.opc, byteOf p.payload.length] ++ p.payload

theorem packetBody_length (d : Byte) (p : Packet) : (packetBody d p).length = 5 + p.payload.length := by
  simp [packetBody]
  omega

theorem packetBytes_eq (d : Byte) (p : Packet) : packetBytes d p = packetBody d p ++ beBytes 2 (crc16 (packetBody d p)) := rfl

theorem packetAt_packetBytes (d : Byte) {p : Packet} (h : p.payload.length ≤ 240) (rest : List Byte) :
    packetAt (packetBytes d p ++ rest) = some ({ p with bcast := d == 0xFF }, rest) := by
  have hlen : plByte (packetBytes d p ++ rest) 4 = p.payload.length := byteOf_toNat (by omega)
  have hbody : (packetBytes d p ++ rest).take (5 + p.payload.length) = packetBody d p := by
    rw [packetBytes_eq, List.append_assoc, List.take_left' (packetBody_length d p)]
  have hpay : ((packetBytes d p ++ rest).drop 5).take p.payload.length = p.payload := by
    rw [packetBytes_eq, List.append_assoc, packetBody, List.append_assoc]
    exact List.take_left
  have hcrc : plField (packetBytes d p ++ rest) (5 + p.payload.length) 2 = crc16 (packetBody d p) := by
    rw [packetBytes_eq, List.append_assoc, plField, List.drop_left' (packetBody_length d p)]
    exact (plField_front 2 (crc16 (packetBody d p)) rest).trans (Nat.mod_eq_of_lt (crc16_lt _))
  have hrest : (packetBytes d p ++ rest).drop (7 + p.payload.length) = rest := List.drop_left' (packetBytes_length d p)
  have hl := packetBytes_length d p
  unfold packetAt
  simp only [hlen, hbody, hpay, hcrc, hrest]
  rw [if_neg (by simp only [List.length_append, not_or]; omega)]
  rfl

/-! ### A window is parsed (06 R266, R267) -/

/-- A destination that is a peg, or a broadcast. -/
def destOk (d : Byte) : Prop := d ≠ 0 ∧ (d.toNat < 0x3D ∨ d = 0xFF)

theorem windowParse_zeros (fuel n : Nat) (s : State) : windowParse fuel s (List.replicate n 0) = s := by
  induction fuel generalizing n with
  | zero => rfl
  | succ fuel ih =>
    cases n with
    | zero => rfl
    | succ n => exact (if_pos rfl).trans (ih n)

/-- Such a byte is neither passed over nor the end of the window. -/
theorem destOk_begins {d : Byte} (hd : destOk d) : d ≠ 0 ∧ ¬(0x3D ≤ d.toNat ∧ d.toNat ≤ 0xFE) := by
  obtain ⟨h0, h | rfl⟩ := hd
  · exact ⟨h0, by omega⟩
  · exact ⟨h0, by decide⟩

theorem windowParse_packet {l : List Byte} {d : Byte} (hl : l.head? = some d) (hd : destOk d) {p : Packet} {rest : List Byte}
    (h : packetAt l = some (p, rest)) (fuel : Nat) (s : State) :
    windowParse (fuel + 1) s l = windowParse fuel (if d.toNat = s.ring.peg ∨ d = 0xFF then packetTake s p else s) rest := by
  obtain ⟨h0, h1⟩ := destOk_begins hd
  obtain ⟨w, rfl⟩ := List.head?_eq_some_iff.mp hl
  rw [windowParse, if_neg h0, if_neg h1, h]

theorem windowParse_corrupt {l : List Byte} {d : Byte} (hl : l.head? = some d) (hd : destOk d) (h : packetAt l = none) (fuel : Nat)
    (s : State) : windowParse (fuel + 1) s l = windowBad s := by
  obtain ⟨h0, h1⟩ := destOk_begins hd
  obtain ⟨w, rfl⟩ := List.head?_eq_some_iff.mp hl
  rw [windowParse, if_neg h0, if_neg h1, h]

theorem windowFill_packetBytes (d : Byte) {p : Packet} (h : p.payload.length ≤ 240) :
    windowFill (packetBytes d p) = packetBytes d p ++ List.replicate (512 - (packetBytes d p).length) 0 := by
  have hl := packetBytes_length d p
  rw [windowFill, List.take_of_length_le (by omega)]

/-- A window of one packet: it is taken by the unit it names and, of a broadcast, by each (06 R266). -/
theorem windowParse_one {d : Byte} (hd : destOk d) {p : Packet} (h : p.payload.length ≤ 240) (s : State) :
    windowParse 513 s (windowFill (packetBytes d p)) =
      if d.toNat = s.ring.peg ∨ d = 0xFF then packetTake s { p with bcast := d == 0xFF } else s := by
  rw [windowFill_packetBytes d h, windowParse_packet rfl hd (packetAt_packetBytes d h _), windowParse_zeros]

theorem execCommandWindow_part {s : State} (hr : ringPart s = true) (hb : s.ring.beaconing = false) (w : List Byte) :
    execCommandWindow w s =
      .next (windowParse 513 { s with out.window := windowOut s (windowFill w) } (windowFill w)) := by
  simp only [execCommandWindow, relays_of_ringPart hr, hb, hr]
  rfl

theorem execCommandWindow_relays {s : State} (hr : relays s = true) (hp : ringPart s = false) (hb : s.ring.beaconing = false)
    (w : List Byte) : execCommandWindow w s = .next { s with out.window := windowOut s (windowFill w) } := by
  simp only [execCommandWindow, hr, hb, hp]
  rfl

theorem packetTake_single {s : State} (h : isLead s = false) (p : Packet) :
    packetTake s p = { s with cmd.taken := s.cmd.taken ++ [{ pkt := p, verdict := none, fwd := none }] } := by
  simp [packetTake, h]

/-- A destination of a pitched unit: its own peg, or a broadcast. -/
theorem dest_own {s : State} (hr : ringPart s = true) (b : Bool) :
    let d : Byte := if b then 0xFF else byteOf s.ring.peg
    destOk d ∧ (d.toNat = s.ring.peg ∨ d = 0xFF) ∧ (d == 0xFF) = b := by
  obtain ⟨-, h1, h60⟩ := ringPart_parts hr
  have hn : (byteOf s.ring.peg).toNat = s.ring.peg := byteOf_toNat (by omega)
  have hne (c : Byte) (hc : c.toNat ≠ s.ring.peg) : byteOf s.ring.peg ≠ c := fun e => hc (e ▸ hn)
  cases b with
  | true => exact ⟨⟨by simp, .inr rfl⟩, .inr rfl, rfl⟩
  | false =>
    refine ⟨⟨hne 0 (by simp; omega), .inl (hn.trans_lt (by omega))⟩, .inl hn, ?_⟩
    exact beq_eq_false_iff_ne.mpr (hne 0xFF (by simp; omega))

/-- A packet that names the unit is taken from its window. -/
theorem execCommandWindow_takes {s : State} (hr : ringPart s = true) (hb : s.ring.beaconing = false) {p : Packet}
    (h : p.payload.length ≤ 240) :
    let w := packetBytes (if p.bcast then 0xFF else byteOf s.ring.peg) p
    execCommandWindow w s = .next (packetTake { s with out.window := windowOut s (windowFill w) } p) := by
  intro w
  obtain ⟨hd, hown, hbc⟩ := dest_own hr p.bcast
  have hp : { p with bcast := (if p.bcast then 0xFF else byteOf s.ring.peg) == (0xFF : Byte) } = p := by rw [hbc]
  rw [execCommandWindow_part hr hb, windowParse_one hd h, if_pos hown, hp]

/-- One that names another peg is not. -/
theorem execCommandWindow_passes {s : State} (hr : ringPart s = true) (hb : s.ring.beaconing = false) {p : Packet}
    (h : p.payload.length ≤ 240) {d : Byte} (h1 : 1 ≤ d.toNat) (h60 : d.toNat ≤ 60) (hne : d.toNat ≠ s.ring.peg) :
    execCommandWindow (packetBytes d p) s = .next { s with out.window := windowOut s (windowFill (packetBytes d p)) } := by
  have h0 : d ≠ 0 := fun e => by simp [e] at h1
  have hF : d ≠ 0xFF := fun e => by simp [e] at h60
  rw [execCommandWindow_part hr hb, windowParse_one ⟨h0, .inl (by omega)⟩ h, if_neg (not_or.mpr ⟨hne, hF⟩)]

/-- A corrupt packet at the front of a window is counted, and nothing of it is taken (06 R267). -/
theorem execCommandWindow_corrupt {s : State} (hr : ringPart s = true) (hb : s.ring.beaconing = false) {w : List Byte}
    (hd : destOk (w.headD 0)) (h : packetAt (windowFill w) = none) :
    execCommandWindow w s = .next (windowBad { s with out.window := windowOut s (windowFill w) }) := by
  have hw : (windowFill w).head? = some (w.headD 0) := by
    cases w with
    | nil => exact absurd rfl hd.1
    | cons d w => rfl
  rw [execCommandWindow_part hr hb, windowParse_corrupt hw hd h]

theorem windowBad_counts (s : State) : (windowBad s).ring.cmdBad = s.ring.cmdBad + 1 ∧ (windowBad s).cmd.taken = s.cmd.taken ∧
    (windowBad s).out = s.out := by
  obtain ⟨hring, hout, htaken⟩ := ringCrc_sameRing { s with ring.cmdBad := s.ring.cmdBad + 1 }
  exact ⟨congrArg RingSt.cmdBad hring, htaken, hout⟩

/-! ### Lost events (06 R290) -/

/-- The event that tells how many were lost. -/
def lostEvent (s : State) : Event :=
  { eseq := s.cmd.eseq, code := 0x07, tick := tick32 s, data := beBytes 2 (min s.cmd.lost 65535) }

theorem execEventLost_acts {s : State} (hl : s.cmd.lost ≠ 0) (h : s.cmd.events.length < 16) :
    execEventLost s = .next { s with
      cmd := { s.cmd with lost := 0, events := s.cmd.events ++ [lostEvent s], eseq := s.cmd.eseq + 1 } } := by
  have hdue : (s.cmd.lost != 0 && decide (s.cmd.events.length < 16)) = true := by simp [hl, h]
  have hroom : ¬16 ≤ s.cmd.events.length := by omega
  unfold execEventLost queueEvent
  rw [if_pos hdue, if_neg hroom]
  rfl

/-- Settles O49: each pass of slots and window by the case it falls in, a packet read back as it was laid out; the event of what was
lost tells at most 65 535, which is the model's choice (log 100). -/
theorem slotWindowAndEvents : Obligations.SlotWindowAndEvents := by
  intro s
  refine ⟨fun r hr hb => ⟨fun hd hf => ?_, fun hd hf => ⟨_, execSlotWrite_due hb hd hr, ?_⟩,
      fun h hd => execSlotWrite_relays h hb hd hr⟩,
    fun hb r => execSlotWrite_beaconing hb r,
    fun hr hb => ⟨fun p hp => ⟨⟨execCommandWindow_takes hr hb hp, fun hl => ?_⟩, fun d h1 h60 hne =>
      execCommandWindow_passes hr hb hp h1 h60 hne⟩, fun w h0 hd h => ⟨_, execCommandWindow_corrupt hr hb ⟨h0, hd⟩ h, ?_⟩⟩,
    fun h hp hb w => execCommandWindow_relays h hp hb w,
    fun hl h => ⟨lostEvent s, execEventLost_acts hl h, rfl, rfl, rfl⟩⟩
  · refine (execSlotWrite_due hb hd hr).trans ?_
    rw [slotWrite_free (by rwa [slot_head])]
  · rw [slotWrite_filled (by rwa [slot_head])]
    obtain ⟨hcount, hhead⟩ := slotClash_counts s ((r.drop (slotAt s.ring.peg)).take 24)
    rw [slot_head] at hhead
    exact ⟨hcount, hhead, rfl⟩
  · refine (execCommandWindow_takes hr hb hp).trans (congrArg Host.Outcome.next (packetTake_single ?_ p))
    exact hl
  · obtain ⟨hbad, htaken, hout⟩ := windowBad_counts { s with out.window := windowOut s (windowFill w) }
    exact ⟨hbad, htaken, congrArg OutSt.window hout⟩

end Sys2Proof.Machine
end

section
/-! SUPPORT. PITCH headers (05 R238–R241, R244): NEXT_PEG as it leaves, and the peg and hop count a unit commits. -/

namespace Sys2Proof.Machine

/-! ### A split of the pair (19 R865, R866) moves nothing of the outputs -/

theorem forEach_out {f : State → Nat → State} (hf : ∀ s i, (f s i).out = s.out) (ns : List Nat) (s : State) :
    (forEach s ns f).out = s.out := by
  unfold forEach
  induction ns generalizing s with
  | nil => rfl
  | cons n ns ih => exact (ih (f s n)).trans (hf s n)

@[simp] theorem alarmEvent_out (s : State) (r : Nat) (was next : AlarmSt) (value : Word) :
    (alarmEvent s r was next value).out = s.out := by
  simp [alarmEvent, apply_ite State.out]

@[simp] theorem pairVote_out (s : State) (r : Nat) (value : Word) : (pairVote s r value).out = s.out := by
  simp [pairVote, pairTo, apply_ite State.out]

@[simp] theorem alarmTo_out (s : State) (r : Nat) (next : AlarmSt) (o : BitVec 16) (value : Word) :
    (alarmTo s r next o value).out = s.out := by
  simp [alarmTo, twinSend, apply_ite State.out]

theorem splitLeadRules_out (s : State) (mode : Nat) : (splitLeadRules s mode).out = s.out :=
  forEach_out (fun s r => by simp [apply_ite State.out]) _ s

theorem splitTailRules_out (s : State) (mode : Nat) : (splitTailRules s mode).out = s.out :=
  forEach_out (fun s r => by simp [apply_ite State.out]) _ s

theorem playEnd_out (s : State) (t : Nat) (o : BitVec 16) (closing : Bool) : (playEnd s t o closing).out = s.out := by
  simp [playEnd, rampStart, apply_ite State.out]

theorem aoutOff_out (s : State) (o : BitVec 16) (write : Bool) : (aoutOff s o write).out = s.out := by
  simp [aoutOff, playEnd_out, apply_ite State.out]

theorem twinSplit_out (s : State) (o : BitVec 16) (link : Bool) : (twinSplit s o link).out = s.out := by
  simp [twinSplit, splitLeadRules_out, splitTailRules_out, aoutOff_out, apply_ite State.out]

/-! ### A committed peg (05 R241) -/

theorem pegPair_out (s : State) (peg : Nat) (o : BitVec 16) : (pegPair s peg o).out = s.out := by
  simp [pegPair, twinSplit_out, apply_ite State.out]

theorem pegSet_out (s : State) (peg hop : Nat) (o : BitVec 16) : (pegSet s peg hop o).out = s.out := by
  unfold pegSet
  split
  · rfl
  extract_lets
  split
  · rfl
  · exact pegPair_out ..

/-! ### The outcome of each mode (05 R241) -/

/-- The peg ALL and FILL assign from the value received: none where it fits no unit. -/
def pitchFit (v : Nat) : Nat := if 1 ≤ v ∧ v ≤ 60 then v else 0

/-- The peg STICKY leaves: an unpitched unit has its saved peg back where it stands at its saved place. -/
def pitchSaved (s : State) (v : Nat) : Nat :=
  if isPitched s = false ∧ 1 ≤ s.ring.savedPeg ∧ s.ring.savedPeg ≤ 60 ∧ 1 ≤ v ∧ s.ring.savedHop = v then s.ring.savedPeg else s.ring.peg

theorem pitchCommit_all (s : State) (n : Nat) : pitchCommit s 1 n = pegSet s (pitchFit (rev8 n)) (rev8 n) orgHdr := by
  simp [pitchCommit, pitchFit]

theorem pitchCommit_count (s : State) (n : Nat) : pitchCommit s 2 n = s := rfl

theorem pitchCommit_fill_pitched {s : State} (hp : isPitched s = true) (n : Nat) : pitchCommit s 3 n = s := by
  simp [pitchCommit, hp]

theorem pitchCommit_fill_unpitched {s : State} (hp : isPitched s = false) (n : Nat) :
    pitchCommit s 3 n = pegSet s (pitchFit (rev8 n)) s.ring.hop orgHdr := by
  simp [pitchCommit, pitchFit, hp]

theorem pitchCommit_sticky (s : State) (n : Nat) : pitchCommit s 4 n = pegSet s (pitchSaved s (rev8 n)) (rev8 n) orgHdr := by
  simp [pitchCommit, pitchSaved, and_assoc]

theorem pitchCommit_drop {s : State} (hp : isPitched s = true) (hm : s.twin.mode = 0) {n : Nat} (hv : s.ring.peg = rev8 n) :
    pitchCommit s 5 n = pegSet s 0 s.ring.hop orgHdr := by
  simp [pitchCommit, hp, hm, hv]

theorem pitchCommit_measure (s : State) (n : Nat) : pitchCommit s 6 n = pegSet s s.ring.peg (rev8 n) orgHdr := rfl

/-! ### A PITCH header by itself (05 R239) -/

/-! A field on its way out moves nothing of the unit itself. Stated for any field: at a concrete one the kernel would compute with the
header. -/

theorem outPut_ring (s : State) (a n v : Nat) : (outPut s a n v).ring = s.ring := rfl

theorem outPut_twin (s : State) (a n v : Nat) : (outPut s a n v).twin = s.twin := rfl

theorem isPitched_outPut (s : State) (a n v : Nat) : isPitched (outPut s a n v) = isPitched s := rfl

theorem pitchSaved_outPut (s : State) (a n v x : Nat) : pitchSaved (outPut s a n v) x = pitchSaved s x := rfl

theorem pitchHeader_live {s : State} (hl : ringLive s = true) (mode : Nat) (f : Byte) :
    pitchHeader s mode f = pitchCommit (pitchPass s mode f.toNat) mode f.toNat :=
  if_pos hl

/-- NEXT_PEG leaves plus one where the mode has the unit add one. -/
theorem pitchPass_adds {s : State} {mode : Nat} (h : pitchAdds s mode = true) (n : Nat) :
    pitchPass s mode n = outPut s 184 8 (addOne n) := by
  simp [pitchPass, h]

theorem pitchPass_relays {s : State} {mode : Nat} (h : pitchAdds s mode = false) (n : Nat) :
    pitchPass s mode n = outPut s 184 8 n := by
  simp [pitchPass, h]

/-- ALL, STICKY and MEASURE. -/
theorem pitchAdds_every {mode : Nat} (h : mode ∈ [1, 4, 6]) (s : State) : pitchAdds s mode = true := by
  obtain rfl | rfl | rfl : mode = 1 ∨ mode = 4 ∨ mode = 6 := by simpa using h
  all_goals rfl

/-- COUNT and FILL. -/
theorem pitchAdds_unpitched {mode : Nat} (h : mode ∈ [2, 3]) (s : State) : pitchAdds s mode = !isPitched s := by
  obtain rfl | rfl : mode = 2 ∨ mode = 3 := by simpa using h
  all_goals rfl

theorem pitchAdds_drop (s : State) : pitchAdds s 5 = false := rfl

/-- What a committed peg and hop count leave of a unit whose header has passed. -/
theorem pegSet_outPut (s : State) (a n v peg hop : Nat) (o : BitVec 16) :
    (pegSet (outPut s a n v) peg hop o).ring.peg = peg ∧ (pegSet (outPut s a n v) peg hop o).ring.hop = hop ∧
      (pegSet (outPut s a n v) peg hop o).out.header = hPut s.out.header a n v := by
  rw [pegSet_ring, pegSet_out]
  exact ⟨rfl, rfl, rfl⟩

/-! ### The rows of the six modes -/

theorem execPitchAll_live {s : State} (hl : ringLive s = true) (f : Byte) : execPitchAll f s =
    .next (pegSet (outPut s 184 8 (addOne f.toNat)) (pitchFit (rev8 f.toNat)) (rev8 f.toNat) orgHdr) := by
  rw [execPitchAll, pitchHeader_live hl, pitchPass_adds (pitchAdds_every (by decide) s), pitchCommit_all]

theorem execPitchCount_live {s : State} (hl : ringLive s = true) (f : Byte) : execPitchCount f s =
    .next (outPut s 184 8 (if isPitched s then f.toNat else addOne f.toNat)) := by
  rw [execPitchCount, pitchHeader_live hl, pitchCommit_count, pitchPass, pitchAdds_unpitched (by decide)]
  cases isPitched s <;> rfl

theorem execPitchFill_pitched {s : State} (hl : ringLive s = true) (hp : isPitched s = true) (f : Byte) :
    execPitchFill f s = .next (outPut s 184 8 f.toNat) := by
  have hr : pitchAdds s 3 = false := by simp [pitchAdds_unpitched, hp]
  have hp' : isPitched (outPut s 184 8 f.toNat) = true := (isPitched_outPut ..).trans hp
  rw [execPitchFill, pitchHeader_live hl, pitchPass_relays hr, pitchCommit_fill_pitched hp']

theorem execPitchFill_unpitched {s : State} (hl : ringLive s = true) (hp : isPitched s = false) (f : Byte) : execPitchFill f s =
    .next (pegSet (outPut s 184 8 (addOne f.toNat)) (pitchFit (rev8 f.toNat)) s.ring.hop orgHdr) := by
  have ha : pitchAdds s 3 = true := by simp [pitchAdds_unpitched, hp]
  have hp' : isPitched (outPut s 184 8 (addOne f.toNat)) = false := (isPitched_outPut ..).trans hp
  rw [execPitchFill, pitchHeader_live hl, pitchPass_adds ha, pitchCommit_fill_unpitched hp', outPut_ring]

theorem execPitchSticky_live {s : State} (hl : ringLive s = true) (f : Byte) : execPitchSticky f s =
    .next (pegSet (outPut s 184 8 (addOne f.toNat)) (pitchSaved s (rev8 f.toNat)) (rev8 f.toNat) orgHdr) := by
  rw [execPitchSticky, pitchHeader_live hl, pitchPass_adds (pitchAdds_every (by decide) s), pitchCommit_sticky, pitchSaved_outPut]

theorem execPitchDrop_own {s : State} (hl : ringLive s = true) (hp : isPitched s = true) (hm : s.twin.mode = 0) {f : Byte}
    (hv : s.ring.peg = rev8 f.toNat) :
    execPitchDrop f s = .next (pegSet (outPut s 184 8 f.toNat) 0 s.ring.hop orgHdr) := by
  have hp' : isPitched (outPut s 184 8 f.toNat) = true := (isPitched_outPut ..).trans hp
  have hm' : (outPut s 184 8 f.toNat).twin.mode = 0 := by rw [outPut_twin, hm]
  have hv' : (outPut s 184 8 f.toNat).ring.peg = rev8 f.toNat := by rw [outPut_ring, hv]
  rw [execPitchDrop, pitchHeader_live hl, pitchPass_relays (pitchAdds_drop s), pitchCommit_drop hp' hm' hv', outPut_ring]

theorem execPitchMeasure_live {s : State} (hl : ringLive s = true) (f : Byte) : execPitchMeasure f s =
    .next (pegSet (outPut s 184 8 (addOne f.toNat)) s.ring.peg (rev8 f.toNat) orgHdr) := by
  rw [execPitchMeasure, pitchHeader_live hl, pitchPass_adds (pitchAdds_every (by decide) s), pitchCommit_measure, outPut_ring]

/-- Settles O47: COUNT, and FILL at a pitched unit, only pass NEXT_PEG on; each other row commits by `pegSet`, whose split of a pair
leaves the ring and the header alone. -/
theorem pitchRows : Obligations.PitchRows := by
  intro s f hl
  refine ⟨⟨_, execPitchAll_live hl f, pegSet_outPut ..⟩, execPitchCount_live hl f, fun hp => execPitchFill_pitched hl hp f,
    fun hp => ⟨_, execPitchFill_unpitched hl hp f, pegSet_outPut ..⟩, ⟨_, execPitchSticky_live hl f, ?_⟩,
    fun hp hm hv => ⟨_, execPitchDrop_own hl hp hm hv, pegSet_outPut ..⟩, ⟨_, execPitchMeasure_live hl f, pegSet_outPut ..⟩⟩
  obtain ⟨hpeg, hhop, hheader⟩ := pegSet_outPut s 184 8 (addOne f.toNat) (pitchSaved s (rev8 f.toNat)) (rev8 f.toNat) orgHdr
  exact ⟨hhop, hheader, hpeg⟩

end Sys2Proof.Machine
end

section
/-! SUPPORT. The queue (06 R269): a step runs the front command with the rest, and no command stops or touches what waits (06 R284;
log 17). -/

namespace Sys2Proof.Machine

theorem step_cons {s : State} {c : Instr} {rest : List Instr} (h : s.pending = c :: rest) :
    step s = exec c { s with pending := rest } := by
  unfold step
  rw [h]

theorem step_nil {s : State} (h : s.pending = []) : step s = .next s := by
  unfold step
  rw [h]

/-- Settles O1, by the two shapes of the queue. -/
theorem stepRunsFrontCommand : Obligations.StepRunsFrontCommand :=
  fun _ => ⟨fun _ _ h => step_cons h, step_nil⟩

/-- Each row of the table gives its command a next state from every state: none faults, none is refused (log 17). -/
theorem exec_answers (i : Instr) (s : State) : ∃ t : State, exec i s = .next t := by
  cases i <;> exact ⟨_, rfl⟩

/-- The least that `Keeps` says of a state: its own queue. -/
theorem Keeps.queueOnly (s : State) : Keeps s.pending (fun _ => True) (fun _ => True) False s :=
  ⟨rfl, trivial, trivial, False.elim, False.elim, False.elim⟩

theorem exec_pending {i : Instr} {s t : State} (h : exec i s = .next t) : t.pending = s.pending := by
  have k := exec_keeps ⟨fun _ _ _ _ => trivial, trivial⟩ (fun _ => trivial) (Keeps.queueOnly s) i
  rw [h] at k
  exact k.queue

/-- Settles O2: each row answers (`exec_answers`), and what every row keeps includes the queue. -/
theorem everyCommandAnswersAndKeepsQueue : Obligations.EveryCommandAnswersAndKeepsQueue := by
  intro i s
  obtain ⟨t, ht⟩ := exec_answers i s
  exact ⟨t, ht, exec_pending ht⟩

end Sys2Proof.Machine
end

section
/-! SUPPORT. Reads through the bulk lane (06 R293, R297, 07 R346, 15 R679): the reply carries the number of bytes, and the bytes
wait in the lane for the grants. -/

namespace Sys2Proof.Machine

/-! ### The lane -/

/-- A lane that is free, or the client's own, is not busy. -/
theorem bulkBusy_own {s : State} {h : Hdr} (hb : ∀ b, s.cmd.bulk = some b → b.src = h.src) : bulkBusy s (ctxOf s h) = false := by
  have ht : bulkTaken s h.src = false := by
    unfold bulkTaken
    cases e : s.cmd.bulk with
    | none => rfl
    | some b => simp [hb b e]
  simp [bulkBusy, ctxOf, ht]

theorem bulkRead_bytes {s : State} {h : Hdr} {bytes : List Byte} (hne : bytes ≠ []) :
    bulkRead s (ctxOf s h) bytes = opDone (laneHolds s h bytes) (beBytes 4 bytes.length) := by
  have he : bytes.isEmpty = false := by simpa using hne
  simp only [bulkRead, he]
  rfl

theorem bulkRead_nothing (s : State) (h : Hdr) : bulkRead s (ctxOf s h) [] = opDone { s with cmd.bulk := none } [0, 0, 0, 0] := rfl

/-! ### How many bytes a read has -/

/-- Pieces of one size, joined. -/
theorem length_flatten_map {α : Type} {f : α → List Byte} {k : Nat} (hf : ∀ a, (f a).length = k) (l : List α) :
    ((l.map f).flatten).length = k * l.length := by
  simp [List.length_flatten, List.map_map, Function.comp_def, hf, Nat.mul_comm]

theorem entryBytes_length (e : Entry) : (entryBytes e).length = 32 := by
  simp [entryBytes, entryHead, beBytes_length]

theorem entriesBytes_length (es : List Entry) : ((es.map entryBytes).flatten).length = 32 * es.length :=
  length_flatten_map entryBytes_length es

theorem capData_length (s : State) (rs : List Rec) : (capData s rs).length = 4 + 8 * rs.length := by
  rw [capData, List.length_append, beBytes_length, length_flatten_map fun _ => beBytes_length _ _]

/-- The values of a block of parameters, in the order of their IDs. -/
def blockBytes (s : State) (first n : Nat) : List Byte :=
  ((List.range n).map (fun i => beBytes 4 (readParam s (first + i)).toNat)).flatten

theorem blockBytes_length (s : State) (first n : Nat) : (blockBytes s first n).length = 4 * n := by
  rw [blockBytes, length_flatten_map fun _ => beBytes_length _ _, List.length_range]

/-! ### The three reads -/

/-- The queries that may go through the lane. -/
def laneQueries : List Nat := [0x04, 0x0C, 0x33]

/-- Such a query is open to every client in every state, and no scheduler decides it (03 R126, 06 R295). -/
theorem laneQueries_pass : ∀ opc ∈ laneQueries, opc < 256 ∧ opc ≠ 0x03 ∧ ∀ pl : List Byte,
    isQuery opc pl = true ∧ minRole opc pl = observer ∧ isDecided opc pl = false := by
  simp only [laneQueries, List.forall_mem_cons, List.not_mem_nil, false_imp_iff, implies_true, and_true]
  exact ⟨⟨by decide, by decide, fun _ => ⟨rfl, rfl, rfl⟩⟩, ⟨by decide, by decide, fun _ => ⟨rfl, rfl, rfl⟩⟩,
    by decide, by decide, fun _ => ⟨rfl, rfl, rfl⟩⟩

theorem laneQueries_taken (st : UState) : ∀ opc ∈ laneQueries, stateTakes st opc = true := by
  cases st <;> decide

theorem row_queried_lane {s t : State} {h : Hdr} (c : CanQuery s h) {opc : Nat} (hm : opc ∈ laneQueries) {pl data : List Byte}
    (hl : lenOk opc pl = some true) (hr : readNames s opc pl = true) (hrun : opRun s (ctxOf s h) opc pl = opDone t data) :
    rowRun s h opc pl = queried t h data := by
  obtain ⟨ho, h3, hpl⟩ := laneQueries_pass opc hm
  obtain ⟨hq, hmin, hd⟩ := hpl pl
  exact row_queried c opc pl ho hq hl h3 hr hmin hd (laneQueries_taken _ opc hm) hrun

/-- A unit in no pair names its own parameters alone. -/
theorem idHome_single {s : State} (h : s.twin.mode = 0) (id : Nat) : idHome s id = id := by
  simp [idHome, isSpanLead_single h]

/-- The fields of a GETBLK read back. -/
theorem getblk_fields (first : Pid) (n via : Byte) {pl : List Byte} (h : pl = beBytes 2 first.toNat ++ [n, via]) :
    plField pl 0 2 = first.toNat ∧ plByte pl 2 = n.toNat ∧ plByte pl 3 = via.toNat := by
  subst h
  refine ⟨?_, plByte_behind 2 _ 0 _, plByte_behind 2 _ 1 _⟩
  rw [plField_front]
  exact Nat.mod_eq_of_lt first.isLt

theorem row_getblk_lane {s : State} {h : Hdr} (c : CanQuery s h) (hb : ∀ b, s.cmd.bulk = some b → b.src = h.src)
    {first : Pid} {n : Byte} (hd : (descOf first.toNat).isSome = true) (h1 : 1 ≤ n.toNat) (hn : first.toNat % 256 + n.toNat ≤ 256) :
    rowRun s h 0x04 (beBytes 2 first.toNat ++ [n, 1]) =
      queried (laneHolds s h (blockBytes s first.toNat n.toNat)) h (beBytes 4 (4 * n.toNat)) := by
  generalize hpl : beBytes 2 first.toNat ++ [n, 1] = pl
  obtain ⟨hfirst, hcount, hvia⟩ := getblk_fields first n 1 hpl.symm
  have hlen : lenOk 0x04 pl = some true := by simp [lenOk, ← hpl, beBytes_length]
  have hnames : readNames s 0x04 pl = true := by simp [readNames, idDefined, hfirst, idHome_single c.single, hd]
  have hdata := blockBytes_length s first.toNat n.toNat
  have hbytes : blockBytes s first.toNat n.toNat ≠ [] := List.ne_nil_of_length_pos (by omega)
  have hrun : opRun s (ctxOf s h) 0x04 pl =
      opDone (laneHolds s h (blockBytes s first.toNat n.toNat)) (beBytes 4 (4 * n.toNat)) := by
    show opGetblk s (ctxOf s h) pl = _
    simp only [opGetblk, hfirst, hcount, hvia]
    rw [guarded_pass _ _ _ (by simp [bulkBusy_own hb, h1, hn]), ← hdata]
    exact bulkRead_bytes hbytes
  exact row_queried_lane c (by decide) hlen hnames hrun

/-- The fields of a LOGREAD read back. -/
theorem logread_fields (src : Byte) (first : Word) (n : BitVec 16) (via : Byte) {pl : List Byte}
    (h : pl = src :: (beBytes 4 first.toNat ++ beBytes 2 n.toNat ++ [via])) :
    plByte pl 0 = src.toNat ∧ plField pl 1 4 = first.toNat ∧ plField pl 5 2 = n.toNat ∧ plByte pl 7 = via.toNat := by
  subst h
  refine ⟨rfl, ?_, ?_, ?_⟩
  · rw [plField_succ, List.append_assoc, plField_front]
    exact Nat.mod_eq_of_lt first.isLt
  · rw [plField_succ, List.append_assoc, plField_behind 4 _ 0, plField_front]
    exact Nat.mod_eq_of_lt n.isLt
  · rw [plByte_succ, List.append_assoc, plByte_behind 4 _ 2, plByte_behind 2 _ 0]
    rfl

theorem row_logread_lane {s : State} {h : Hdr} (c : CanQuery s h) (hb : ∀ b, s.cmd.bulk = some b → b.src = h.src)
    {src : Byte} {first : Word} {n : BitVec 16} (hsrc : src.toNat ≤ 1) (h1 : 1 ≤ n.toNat) (hn : n.toNat ≤ 4096)
    (hw : src.toNat = 0 ∨ sealWriting s = false) (hne : logRun (logSource s src.toNat) first.toNat n.toNat ≠ []) :
    let es := logRun (logSource s src.toNat) first.toNat n.toNat
    rowRun s h 0x0C (src :: (beBytes 4 first.toNat ++ beBytes 2 n.toNat ++ [1])) =
      queried (laneHolds s h ((es.map entryBytes).flatten)) h (beBytes 4 (32 * es.length)) := by
  intro es
  generalize hpl : src :: (beBytes 4 first.toNat ++ beBytes 2 n.toNat ++ [1]) = pl
  obtain ⟨hs, hfirst, hcount, hvia⟩ := logread_fields src first n 1 hpl.symm
  have hlen : lenOk 0x0C pl = some true := by simp [lenOk, ← hpl, beBytes_length]
  have hdata := entriesBytes_length es
  have hpos : 0 < es.length := List.length_pos_of_ne_nil hne
  have hbytes : (es.map entryBytes).flatten ≠ [] := List.ne_nil_of_length_pos (by omega)
  have hrun : opRun s (ctxOf s h) 0x0C pl =
      opDone (laneHolds s h ((es.map entryBytes).flatten)) (beBytes 4 (32 * es.length)) := by
    show opLogread s (ctxOf s h) pl = _
    simp only [opLogread, hs, hfirst, hcount, hvia]
    rw [guarded_pass _ _ _ (by simp [bulkBusy_own hb, hsrc, h1, hn, hw]), ← hdata]
    exact bulkRead_bytes hbytes
  exact row_queried_lane c (by decide) hlen rfl hrun

/-- The fields of a CAPREAD read back. -/
theorem capread_fields (first : Word) (n : BitVec 16) (via : Byte) {pl : List Byte}
    (h : pl = beBytes 4 first.toNat ++ beBytes 2 n.toNat ++ [via]) :
    plField pl 0 4 = first.toNat ∧ plField pl 4 2 = n.toNat ∧ plByte pl 6 = via.toNat := by
  obtain ⟨-, hfirst, hcount, hvia⟩ := logread_fields 0 first n via (congrArg (List.cons 0) h)
  exact ⟨hfirst, hcount, (plByte_succ 0 pl 6).symm.trans hvia⟩

/-- A CAPREAD through the lane answers as the transfer of its bytes does, of none where no record is in its range. -/
theorem row_capread_lane {s t : State} {h : Hdr} (c : CanQuery s h) (hb : ∀ b, s.cmd.bulk = some b → b.src = h.src)
    {first : Word} {n : BitVec 16} (h1 : 1 ≤ n.toNat) (hn : n.toNat ≤ 32768) {data : List Byte}
    (hrun : let rs := capRecs s first.toNat n.toNat
      bulkRead s (ctxOf s h) (if rs.isEmpty then [] else capData s rs) = opDone t data) :
    rowRun s h 0x33 (beBytes 4 first.toNat ++ beBytes 2 n.toNat ++ [1]) = queried t h data := by
  generalize hpl : beBytes 4 first.toNat ++ beBytes 2 n.toNat ++ [1] = pl
  obtain ⟨hfirst, hcount, hvia⟩ := capread_fields first n 1 hpl.symm
  have hlen : lenOk 0x33 pl = some true := by simp [lenOk, ← hpl, beBytes_length]
  refine row_queried_lane c (by decide) hlen rfl ?_
  show opCapread s (ctxOf s h) pl = _
  simp only [opCapread, hfirst, hcount, hvia]
  rw [guarded_pass _ _ _ (by simp [bulkBusy_own hb, h1, hn])]
  exact hrun

/-- Settles O10: a read that passes its checks leaves its bytes in the lane by `bulkRead`, and the length it answers is theirs. -/
theorem bulkReadsWaitForGrants : Obligations.BulkReadsWaitForGrants := by
  intro s h c hb
  refine ⟨fun first n hd h1 hn => congrArg _ (row_getblk_lane c hb hd h1 hn),
    fun src first n hsrc h1 hn hw hne => congrArg _ (row_logread_lane c hb hsrc h1 hn hw hne),
    fun first n h1 hn => ⟨fun hne => ?_, fun he => ?_⟩⟩
  · have hdata := capData_length s (capRecs s first.toNat n.toNat)
    have hbytes : capData s (capRecs s first.toNat n.toNat) ≠ [] := List.ne_nil_of_length_pos (by omega)
    refine congrArg _ (row_capread_lane c hb h1 hn ?_)
    rw [← hdata]
    simp only [List.isEmpty_iff, hne, if_false]
    exact bulkRead_bytes hbytes
  · refine congrArg _ (row_capread_lane c hb h1 hn ?_)
    simp only [he]
    exact bulkRead_nothing s h

end Sys2Proof.Machine
end

section
/-! SUPPORT. SETP (06 R284, R286): what the checks of the packet's names say of its pairs, and what a list that passes or fails leaves. -/

namespace Sys2Proof.Machine

/-! ### The names of the pairs -/

/-- The states a SETP passes through are one more than its pairs. -/
theorem pairStates_length (o : BitVec 16) (ps : List (Nat × Word)) (s : State) : (pairStates o s ps).length = ps.length + 1 := by
  induction ps generalizing s with
  | nil => rfl
  | cons p ps ih => simp [pairStates, ih]

/-- A check of the pairs alone finds no bad one where each of them passes it. -/
theorem firstBad_none_all {g : Nat × Word → Bool} {ps : List (Nat × Word)} {ss : List State} {n : Nat}
    (hl : ps.length ≤ ss.length) (h : firstBad (fun _ p => g p) n ss ps = none) : ∀ p ∈ ps, g p = true := by
  induction ps generalizing ss n with
  | nil => simp
  | cons p ps ih =>
    cases ss with
    | nil => simp at hl
    | cons s ss =>
      by_cases hg : g p = true
      · simp only [firstBad, hg, if_true] at h
        simpa [hg] using ih (by simpa using hl) h
      · simp [firstBad, hg] at h

/-- A SETP that fails neither with BADID nor with DENIED names defined parameters that its sender may write (steps 6 and 7). -/
theorem setpCheck_names {s : State} {role : Nat} {o : BitVec 16} {ps : List (Nat × Word)}
    (h : ∀ st n, setpCheck s role o ps = some (st, n) → st ≠ stBadId ∧ st ≠ stDenied) :
    (∀ p ∈ ps, (descOf p.1).isSome = true) ∧ ∀ p ∈ ps, pairRole p.1 role = true := by
  have hl : ps.length ≤ (pairStates o s ps).length := by rw [pairStates_length]; omega
  have hid : firstBad (fun _ p => (descOf p.1).isSome) 1 (pairStates o s ps) ps = none := by
    cases e : firstBad (fun _ p => (descOf p.1).isSome) 1 (pairStates o s ps) ps with
    | none => rfl
    | some n => exact absurd rfl (h stBadId n (by simp only [setpCheck, e]; rfl)).1
  have hrole : firstBad (fun _ p => pairRole p.1 role) 1 (pairStates o s ps) ps = none := by
    cases e : firstBad (fun _ p => pairRole p.1 role) 1 (pairStates o s ps) ps with
    | none => rfl
    | some n => exact absurd rfl (h stDenied n (by simp only [setpCheck, hid, e]; rfl)).2
  exact ⟨firstBad_none_all hl hid, firstBad_none_all hl hrole⟩

/-- The pairs of a payload as the model reads them. -/
abbrev pairsOf (pairs : List (Pid × Word)) : List (Nat × Word) := pairs.map (fun p => (p.1.toNat, p.2))

theorem setpNames_none {s : State} (hm : s.twin.mode = 0) {role : Nat} {pairs : List (Pid × Word)}
    (hid : ∀ p ∈ pairsOf pairs, (descOf p.1).isSome = true) (hrole : ∀ p ∈ pairsOf pairs, pairRole p.1 role = true) :
    setpNames s role (pairBytes pairs) = none := by
  have h6 : (pairsOf pairs).findIdx? (fun p => !idDefined s p.1) = none :=
    List.findIdx?_eq_none_iff.mpr fun p hp => by simp [idDefined, idHome_single hm, hid p hp]
  have h7 : (pairsOf pairs).findIdx? (fun p => !pairRole (idHome s p.1) role) = none :=
    List.findIdx?_eq_none_iff.mpr fun p hp => by simp [idHome_single hm, hrole p hp]
  simp only [setpNames, plPairs_pairBytes, h6, h7]

/-! ### The packet -/

theorem pairBytes_length (pairs : List (Pid × Word)) : (pairBytes pairs).length = 6 * pairs.length := by
  rw [pairBytes, length_flatten_map fun _ => ?_]
  simp [beBytes_length]

/-- A SETP of 1 to 16 pairs has an allowed length (06 R295). -/
theorem lenOk_setp {pairs : List (Pid × Word)} (h1 : 1 ≤ pairs.length) (h16 : pairs.length ≤ 16) :
    lenOk 0x03 (pairBytes pairs) = some true := by
  have := pairBytes_length pairs
  simp only [lenOk, this, Option.some.injEq, Bool.and_eq_true, decide_eq_true_eq, beq_iff_eq]
  omega

theorem opSetp_pass {s : State} {h : Hdr} {pairs : List (Pid × Word)}
    (hc : setpCheck s (roleOf s h.src.toNat) (orgPkt h.src) (pairsOf pairs) = none) :
    opRun s (ctxOf s h) 0x03 (pairBytes pairs) = opDone (setpApply s (orgPkt h.src) (pairsOf pairs)) [] := by
  show opSetp s (ctxOf s h) _ = _
  simp only [opSetp, plPairs_pairBytes, ctxOf, hc]

theorem opSetp_fail {s : State} {h : Hdr} {pairs : List (Pid × Word)} {st n : Nat}
    (hc : setpCheck s (roleOf s h.src.toNat) (orgPkt h.src) (pairsOf pairs) = some (st, n)) :
    opRun s (ctxOf s h) 0x03 (pairBytes pairs) = (s, some (answer st [byteOf n])) := by
  show opSetp s (ctxOf s h) _ = _
  simp only [opSetp, plPairs_pairBytes, ctxOf, hc]

/-- A SETP that fails neither with BADID nor with DENIED is carried out at once. -/
theorem row_setp {s : State} {h : Hdr} {r : Nat} (c : CanChange s h r) {pairs : List (Pid × Word)} (h1 : 1 ≤ pairs.length)
    (h16 : pairs.length ≤ 16)
    (hc : ∀ st n, setpCheck s (roleOf s h.src.toNat) (orgPkt h.src) (pairsOf pairs) = some (st, n) → st ≠ stBadId ∧ st ≠ stDenied) :
    rowRun s h 0x03 (pairBytes pairs) =
      resultEnd (opRun s (ctxOf s h) 0x03 (pairBytes pairs)) (rowPkt h 0x03 (pairBytes pairs)) := by
  obtain ⟨hid, hrole⟩ := setpCheck_names hc
  have hn : packetNames s (roleOf s h.src.toNat) 0x03 (pairBytes pairs) = none := by
    simp [packetNames, lenOk_setp h1 h16, isTail_single c.single, setpNames_none c.single hid hrole]
  exact rowRun_change c 0x03 _ (by decide) rfl hn rfl (.inl rfl) (by decide)

/-- An answer of the unit's that leaves no note: a request to this unit alone that is not DENIED. -/
theorem packetFinish_answered {s : State} {h : Hdr} (hb : h.bcast = false) {opc : Nat} {pl : List Byte} (ho : opc < 256)
    (hq : isQuery opc pl = false) {st : Nat} (hs : st < 256) (hd : st ≠ stDenied) (data : List Byte) :
    packetFinish s (rowPkt h opc pl) (answer st data) none = answered s h st data := by
  have hn : rejectNote s (rowPkt h opc pl) (answer st data) = s := by
    have e : (answer st data).status.toNat = st := byteOf_toNat hs
    simp [rejectNote, rowPkt, hb, e, hd]
  simp only [packetFinish, hn]
  simp [rowPkt, byteOf_toNat ho, hq, hb, replyAdd, dupSet, answered, replyOf]

/-- A SETP all of whose pairs pass writes them in order. -/
theorem row_setp_applied {s : State} {h : Hdr} {r : Nat} (c : CanChange s h r) {pairs : List (Pid × Word)} (h1 : 1 ≤ pairs.length)
    (h16 : pairs.length ≤ 16) (hc : setpCheck s (roleOf s h.src.toNat) (orgPkt h.src) (pairsOf pairs) = none) :
    rowRun s h 0x03 (pairBytes pairs) = answered (setpApply s (orgPkt h.src) (pairsOf pairs)) h stDone [] := by
  rw [row_setp c h1 h16 (by simp [hc]), opSetp_pass hc]
  exact packetFinish_change _ h 0x03 _ stDone [] (by decide) (by decide) rfl

/-- A SETP one of whose pairs fails steps 8 to 10 changes nothing but its client's record and the replies. -/
theorem row_setp_failed {s : State} {h : Hdr} {r : Nat} (c : CanChange s h r) {pairs : List (Pid × Word)} (h1 : 1 ≤ pairs.length)
    (h16 : pairs.length ≤ 16) (hb : h.bcast = false) {st n : Nat}
    (hc : setpCheck s (roleOf s h.src.toNat) (orgPkt h.src) (pairsOf pairs) = some (st, n))
    (hst : st = stBadValue ∨ st = stLocked ∨ st = stWrongState) :
    rowRun s h 0x03 (pairBytes pairs) = answered s h st [byteOf n] := by
  have hstatus : st < 256 ∧ st ≠ stBadId ∧ st ≠ stDenied := by
    rcases hst with rfl | rfl | rfl <;> decide
  obtain ⟨hs, hid, hd⟩ := hstatus
  rw [row_setp c h1 h16 (fun st' n' e => by rw [hc] at e; cases e; exact ⟨hid, hd⟩), opSetp_fail hc]
  exact packetFinish_answered hb (by decide) rfl hs hd _

/-- Settles O13: the checks of the names find nothing in a SETP that passes, or fails a later check; then the checks of its pairs decide
between all of the writes and none. -/
theorem setpAppliesAllOrNothing : Obligations.SetpAppliesAllOrNothing := by
  intro s h pairs c h1 h16
  exact ⟨fun hc => congrArg _ (row_setp_applied c h1 h16 hc),
    fun st n hb hc hst => congrArg _ (row_setp_failed c h1 h16 hb hc hst)⟩

end Sys2Proof.Machine
end

section
/-! SUPPORT. Reads by the reply (07 R346–R348, 15 R679, 16 R705, 17 R756): entries, records, a source of the tally, tasks. -/

namespace Sys2Proof.Machine

theorem row_logread_reply {s : State} {h : Hdr} (c : CanQuery s h) {src : Byte} {first : Word} {n : BitVec 16} (hsrc : src.toNat ≤ 1)
    (h1 : 1 ≤ n.toNat) (h7 : n.toNat ≤ 7) (hw : src.toNat = 0 ∨ sealWriting s = false) :
    rowRun s h 0x0C (src :: (beBytes 4 first.toNat ++ beBytes 2 n.toNat ++ [0])) =
      queried s h (((logRun (logSource s src.toNat) first.toNat n.toNat).map entryBytes).flatten) := by
  generalize hpl : src :: (beBytes 4 first.toNat ++ beBytes 2 n.toNat ++ [0]) = pl
  obtain ⟨hs, hfirst, hcount, hvia⟩ := logread_fields src first n 0 hpl.symm
  have hlen : lenOk 0x0C pl = some true := by simp [lenOk, ← hpl, beBytes_length]
  refine row_queried_lane c (by decide) hlen rfl ?_
  show opLogread s (ctxOf s h) pl = _
  simp only [opLogread, hs, hfirst, hcount, hvia]
  exact guarded_pass _ _ _ (by simp [hsrc, h1, h7, hw, show n.toNat ≤ 4096 by omega])

theorem row_capread_reply {s : State} {h : Hdr} (c : CanQuery s h) {first : Word} {n : BitVec 16} (h1 : 1 ≤ n.toNat)
    (h31 : n.toNat ≤ 31) :
    rowRun s h 0x33 (beBytes 4 first.toNat ++ beBytes 2 n.toNat ++ [0]) =
      queried s h (capData s (capRecs s first.toNat n.toNat)) := by
  generalize hpl : beBytes 4 first.toNat ++ beBytes 2 n.toNat ++ [0] = pl
  obtain ⟨hfirst, hcount, hvia⟩ := capread_fields first n 0 hpl.symm
  have hlen : lenOk 0x33 pl = some true := by simp [lenOk, ← hpl, beBytes_length]
  refine row_queried_lane c (by decide) hlen rfl ?_
  show opCapread s (ctxOf s h) pl = _
  simp only [opCapread, hfirst, hcount, hvia]
  exact guarded_pass _ _ _ (by simp [h1, h31])

/-- A query of one byte, open to every client in every state: TALLYREAD and TASKQ (06 R295, 03 R126). -/
theorem row_queried_byte {s : State} {h : Hdr} (c : CanQuery s h) {opc : Nat} (hm : opc = 0x39 ∨ opc = 0x48) {b : Byte}
    {data : List Byte} (hrun : opRun s (ctxOf s h) opc [b] = opDone s data) : rowRun s h opc [b] = queried s h data := by
  rcases hm with rfl | rfl
  · exact row_queried c 0x39 [b] (by decide) rfl rfl (by decide) rfl rfl rfl rfl hrun
  · exact row_queried c 0x48 [b] (by decide) rfl rfl (by decide) rfl rfl rfl rfl hrun

theorem byteOf_of_toNat (b : Byte) : byteOf b.toNat = b := (BitVec.ofNat_toNat 8 b).trans (BitVec.setWidth_eq b)

theorem opTallyread_reads (s : State) (c : Ctx) {src : Byte} (h : src.toNat ≤ 23) :
    opTallyread s c [src] = opDone s ([src, byteOf (tallyCond s src.toNat)] ++ beBytes 2 (tallyCount s src.toNat) ++
      [byteOf (tallyK s src.toNat)] ++ beBytes 2 (tallyW s src.toNat) ++ beBytes 4 (tallyOf s src.toNat).total) := by
  simp only [opTallyread, plByte_zero, byteOf_of_toNat]
  exact guarded_pass _ _ _ (by simp [h])

/-- A TASKQ of 0 asks for every task, in ascending number (17 R756). -/
theorem row_taskq {s : State} {h : Hdr} (c : CanQuery s h) (n : Byte) :
    let ts := if n.toNat = 0 then tasksByNum s else (taskOf s n.toNat).toList
    rowRun s h 0x48 [n] =
      queried s h ([byteOf ts.length] ++ beBytes 2 (min s.sched.skipped 65535) ++ (ts.map (taskBytes s)).flatten) :=
  row_queried_byte c (.inr rfl) rfl

/-- Settles O9: each read passes its checks and answers what it names, from the state it leaves as it was. -/
theorem storeReadsAnswer : Obligations.StoreReadsAnswer := by
  intro s h c
  refine ⟨fun src first n hsrc h1 h7 hw => congrArg _ (row_logread_reply c hsrc h1 h7 hw),
    fun first n h1 h31 => congrArg _ (row_capread_reply c h1 h31),
    fun src h23 => congrArg _ (row_queried_byte c (.inl rfl) (opTallyread_reads s (ctxOf s h) h23)),
    fun n hn => ⟨congrArg Host.Outcome.next ?_, congrArg _ (row_taskq c 0)⟩⟩
  have hone := row_taskq c n
  rwa [if_neg hn] at hone

end Sys2Proof.Machine
end

section
/-! SUPPORT. The Logbook's parameters (07 R341, R342). -/

namespace Sys2Proof.Machine

/-! ### What a SETP of one pair has passed -/

/-- A single pair that fails a check is found at position 1. -/
theorem firstBad_single {f : State → Nat × Word → Bool} {p : Nat × Word} {s : State} {ss : List State}
    (h : firstBad f 1 (s :: ss) [p] = none) : f s p = true := by
  by_contra hf
  simp [firstBad, hf] at h

theorem minPos_none {a b : Option Nat} (h : minPos a b = none) : a = none := by
  cases a with
  | none => rfl
  | some a => cases b <;> simp [minPos] at h

/-- The value of the only pair of a SETP that passes is allowed (step 9 of 06 R284). -/
theorem setpCheck_value {s : State} {role : Nat} {o : BitVec 16} {id : Nat} {w : Word} (h : setpCheck s role o [(id, w)] = none) :
    pairValue s id w = true := by
  unfold setpCheck at h
  extract_lets ss last at h
  split at h; · cases h
  split at h; · cases h
  split at h; · cases h
  split at h; · cases h
  next hv => exact firstBad_single (f := fun s p => pairValue s p.1 p.2) (minPos_none hv)

/-- A SETP of one pair that passes writes it. -/
theorem row_setp_one {s : State} {h : Hdr} {r : Nat} (c : CanChange s h r) {id : Pid} {w : Word}
    (hc : setpCheck s (roleOf s h.src.toNat) (orgPkt h.src) [(id.toNat, w)] = none) :
    rowRun s h 0x03 (pairBytes [(id, w)]) = answered (writeParam s id.toNat (orgPkt h.src) w) h stDone [] :=
  row_setp_applied c (pairs := [(id, w)]) (by simp) (by simp) hc

/-! ### LOG.POLICY (07 R341) -/

theorem writePolicy_stores (s : State) (o : BitVec 16) (w : Word) : param (writePolicy s o w) (idLog 0) = w := by
  unfold writePolicy
  extract_lets id old s1 s2
  split
  · next h => exact h.symm
  split
  · exact param_setParam_same s2 id w
  · exact (param_congr rfl id).trans (param_setParam_same s id w)

/-! ### LOG.FREE_TO (07 R342) -/

/-- The seq of a held entry frees through it: fewer entries are left. -/
theorem freeThrough_held {es : List Entry} {w : Word} (h : es.any (fun e => e.seq == w) = true) :
    ∃ c rest, freeThrough es w = some (c, rest) ∧ rest.length < es.length := by
  induction es with
  | nil => simp at h
  | cons e es ih =>
    by_cases he : e.seq = w
    · exact ⟨e.check, es, by simp [freeThrough, he], by simp⟩
    · obtain ⟨c, rest, hf, hl⟩ := ih (by simpa [he] using h)
      exact ⟨c, rest, by simpa [freeThrough, he] using hf, Nat.lt_succ_of_lt hl⟩

theorem storedOf_freeTo (w : Word) : storedOf (idLog 2) w = w := rfl

theorem freeOk_of_pairValue {s : State} {w : Word} (h : pairValue s (idLog 2) w = true) : freeOk s w = true := by
  have hp : (if !(PRange.u 0 0xFFFFFFFF).ok w then false else freeOk s w) = true := h
  split at hp
  · cases hp
  · exact hp

/-- The Logbook with the entries through `w` discarded: `rest` is left, and the check of the last one gone is the anchor. -/
def logFreed (s : State) (c : Word) (rest : List Entry) (w : Word) : State :=
  { s with log := { s.log with entries := rest, anchor := c, freeTo := w } }

/-- One LOG_FREE entry follows what is left. -/
theorem writeFreeTo_found {s : State} {w c : Word} {rest : List Entry} (hf : freeThrough s.log.entries w = some (c, rest))
    (o : BitVec 16) : writeFreeTo s o w = logE (logFreed s c rest w) o 0x000B 0x0602 (readLog s 9) w := by
  unfold writeFreeTo
  rw [hf]
  rfl

theorem writeFreeTo_frees {s : State} (hp : stopPolicy s = false) (o : BitVec 16) {w c : Word} {rest : List Entry}
    (hf : freeThrough s.log.entries w = some (c, rest)) (hl : rest.length < 4096) :
    ∃ e : Entry, (writeFreeTo s o w).log.anchor = c ∧ (writeFreeTo s o w).log.entries = rest ++ [e] ∧ e.event = 0x000B ∧
      e.origin = o ∧ e.new = w ∧ (writeFreeTo s o w).log.freeTo = w := by
  rw [writeFreeTo_found hf]
  obtain ⟨e, he, ha, hfree, -, -, -, -, ho, hev, -, -, hnew, -⟩ :=
    logE_wraps (s := logFreed s c rest w) hp hl o 0x000B 0x0602 (readLog s 9) w
  exact ⟨e, ha, he, hev, ho, hnew, hfree⟩

/-- Settles O17: a SETP of the one pair passes, and its write is `writePolicy` or `writeFreeTo`; the checks have found the entry named. -/
theorem logbookWrites : Obligations.LogbookWrites := by
  intro s h v c
  refine ⟨fun hc => ⟨_, congrArg _ (row_setp_one c (id := 0x0600) hc), writePolicy_stores s _ _⟩, fun hc hl => ?_⟩
  have hheld : freeOk s v = true := freeOk_of_pairValue (setpCheck_value hc)
  obtain ⟨check, rest, hf, hrest⟩ := freeThrough_held hheld
  obtain ⟨e, ha, he, hev, ho, hnew, hfree⟩ := writeFreeTo_frees c.wraps (orgPkt h.src) hf (by omega)
  rw [storedOf_freeTo]
  exact ⟨_, check, rest, e, congrArg _ (row_setp_one c (id := 0x0602) hc), hf, ha, he, hev, ho, hnew, hfree⟩

end Sys2Proof.Machine
end

section
/-! SUPPORT. Rights (07 R313–R326): a change of role touches no other client's, and what is DENIED leaves one entry. -/

namespace Sys2Proof.Machine

/-! ### A change of role -/

@[simp] theorem rightsTask_rights (s : State) : (rightsTask s).rights = s.rights := by
  simp [rightsTask, autoTask, apply_ite State.rights]

/-- The roles held once a client has a new one; an Observer is not listed (07 R313). -/
theorem roleSet_roles {s : State} {client role : Nat} (h : roleOf s client ≠ role) (o : BitVec 16) :
    (roleSet s client role o).rights.roles =
      if role = observer then adel s.rights.roles client else aset s.rights.roles client role := by
  simp [roleSet, h]

theorem roleSet_held {s : State} {client role : Nat} (h : roleOf s client = role) (o : BitVec 16) : roleSet s client role o = s :=
  if_pos h

theorem roleOf_roleSet (s : State) (client role : Nat) (o : BitVec 16) (c : Nat) :
    roleOf (roleSet s client role o) c = if client = c then role else roleOf s c := by
  by_cases h : roleOf s client = role
  · rw [roleSet_held h]
    split
    · next e => rw [← e, h]
    · rfl
  · rw [roleOf, roleSet_roles h]
    by_cases ho : role = observer
    · rw [if_pos ho, aget_adel, ho]
      split <;> rfl
    · rw [if_neg ho, aget_aset]
      split <;> rfl

/-- What a client given a role changes of the roles, the unit's condition and the configuration. -/
theorem roleSet_gives (s : State) (client role : Nat) (o : BitVec 16) :
    roleOf (roleSet s client role o) client = role ∧ (∀ c, c ≠ client → roleOf (roleSet s client role o) c = roleOf s c) ∧
      (roleSet s client role o).u = s.u ∧ (roleSet s client role o).cfg = s.cfg := by
  have hk : Keeps s.pending (· = s.cfg) (· = s.u) False (roleSet s client role o) := roleSet_keeps (Keeps.self s)
  exact ⟨(roleOf_roleSet ..).trans (if_pos rfl), fun c hc => (roleOf_roleSet ..).trans (if_neg hc.symm), hk.unit, hk.config⟩

/-! ### CLAIM, GRANT, RELEASE (07 R320, R323–R325) -/

/-- A CLAIM of either length is carried out at once, whatever the client's role. -/
theorem row_claim {s : State} {h : Hdr} (c : CanChange s h observer) {pl : List Byte} (hl : lenOk 0x08 pl = some true) :
    rowRun s h 0x08 pl = resultEnd (opClaim s (ctxOf s h) pl) (rowPkt h 0x08 pl) :=
  rowRun_change c 0x08 pl (by decide) rfl (packetNames_pass c.single hl (by decide) rfl (Nat.zero_le _)) rfl (.inr rfl) (by decide)

/-- A CLAIM with a code has nine bytes (06 R295). -/
theorem lenOk_claimCoded (role : Byte) (code : BitVec 64) : lenOk 0x08 (role :: beBytes 8 code.toNat) = some true := by
  simp [lenOk, beBytes_length]

theorem row_claimQuery {s : State} {h : Hdr} (c : CanChange s h observer) {role : Byte} (hr : role.toNat ≤ 3) :
    rowRun s h 0x08 [role] = answered s h stDone [byteOf (roleOf s h.src.toNat)] := by
  have hrun : opClaim s (ctxOf s h) [role] = opDone s [byteOf (roleOf s h.src.toNat)] :=
    guarded_pass s [(decide (role.toNat ≤ 3), stBadValue)] _ (by simpa using hr)
  rw [row_claim c rfl, hrun]
  exact packetFinish_change s h 0x08 _ stDone _ (by decide) (by decide) rfl

/-- With no Keeper and no hold-off the code decides (07 R320). -/
theorem opClaim_compares {s : State} {h : Hdr} (hb : h.bcast = false) (hk : keepers s = 0) (hh : s.rights.holdoff = 0) (role : Byte)
    (code : BitVec 64) : opClaim s (ctxOf s h) (role :: beBytes 8 code.toNat) =
      if codeUpper (beBytes 8 code.toNat) != s.fac.claim then opFail (claimFailed s) stDenied
      else guarded s [(role.toNat == 3, stBadValue)] (opDone (roleSet s h.src.toNat keeper (orgPkt h.src)) [3]) := by
  simp [opClaim, beBytes_length, ctxOf, hb, hk, hh, plByte_zero]

theorem row_claimRight {s : State} {h : Hdr} (c : CanChange s h observer) (hb : h.bcast = false) (hk : keepers s = 0)
    (hh : s.rights.holdoff = 0) {code : BitVec 64} (hc : codeUpper (beBytes 8 code.toNat) = s.fac.claim) :
    rowRun s h 0x08 (3 :: beBytes 8 code.toNat) = answered (roleSet s h.src.toNat keeper (orgPkt h.src)) h stDone [3] := by
  rw [row_claim c (lenOk_claimCoded 3 code), opClaim_compares hb hk hh, if_neg (by simp [hc]), guarded_pass _ _ _ rfl]
  exact packetFinish_change _ h 0x08 _ stDone _ (by decide) (by decide) rfl

theorem row_grant {s : State} {h : Hdr} (c : CanChange s h keeper) {client role : Byte} (h1 : 1 ≤ client.toNat)
    (h125 : client.toNat ≤ 125) (hr : role.toNat ≤ 3) :
    rowRun s h 0x09 [client, role] = answered (roleSet s client.toNat role.toNat (orgPkt h.src)) h stDone [] := by
  have hrun : opRun s (ctxOf s h) 0x09 [client, role] = opDone (roleSet s client.toNat role.toNat (orgPkt h.src)) [] :=
    guarded_pass s [(decide (1 ≤ client.toNat) && decide (client.toNat ≤ 125) && decide (role.toNat ≤ 3), stBadValue)] _
      (by simp [h1, h125, hr])
  exact row_answered c 0x09 _ (by decide) rfl rfl (by decide) (by decide) (by decide) rfl rfl rfl (by decide) (by decide) hrun

theorem row_release {s : State} {h : Hdr} (c : CanChange s h observer) :
    rowRun s h 0x0A [] = answered (roleSet s h.src.toNat observer (orgPkt h.src)) h stDone [] :=
  row_answered c 0x0A [] (by decide) rfl rfl (by decide) (by decide) (by decide) rfl rfl rfl (by decide) (by decide) rfl

/-- Settles O19: each of the three gives one role by `roleSet`, and a CLAIM of one byte answers the role held. -/
theorem rightsCommands : Obligations.RightsCommands :=
  fun _ _ => ⟨fun c => ⟨fun _ hr => congrArg _ (row_claimQuery c hr),
      fun _ hb hk hh hc => ⟨_, congrArg _ (row_claimRight c hb hk hh hc), roleSet_gives ..⟩,
      ⟨_, congrArg _ (row_release c), roleSet_gives ..⟩⟩,
    fun c _ _ h1 h125 hr => ⟨_, congrArg _ (row_grant c h1 h125 hr), roleSet_gives ..⟩⟩

/-! ### What is DENIED (06 R287, 07 R320, R322, R326) -/

/-- The CMD_REJECT entry of a DENIED packet of one opcode. -/
def deniedLog (s : State) (h : Hdr) (opc : Nat) : State :=
  logE s (orgPkt h.src) 0x0011 0 (natW (opc * 256 + h.seq.toNat)) (natW stDenied)

/-- A changing packet of one client that is DENIED leaves its entry, beside its record and its reply. -/
theorem packetFinish_denied (s : State) {h : Hdr} (hb : h.bcast = false) {opc : Nat} {pl : List Byte} (ho : opc < 256)
    (hq : isQuery opc pl = false) :
    packetFinish s (rowPkt h opc pl) (answer stDenied []) none = answered (deniedLog s h opc) h stDenied [] := by
  have hst : (answer stDenied []).status.toNat = stDenied := rfl
  have hn : rejectNote s (rowPkt h opc pl) (answer stDenied []) = deniedLog s h opc := by
    simp [rejectNote, rejectLog, deniedLog, rowPkt, hb, hst, byteOf_toNat ho, show stDenied ≠ stRefused by decide]
  simp only [packetFinish, hn]
  simp [rowPkt, byteOf_toNat ho, hq, hb, replyAdd, dupSet, answered, replyOf]

/-- Its entry, with room in the Logbook. -/
theorem deniedLog_entry {s : State} (hp : stopPolicy s = false) (hl : s.log.entries.length < 4096) (h : Hdr) (opc : Nat) :
    ∃ e : Entry, (deniedLog s h opc).log.entries = s.log.entries ++ [e] ∧ e.event = 0x0011 ∧ e.origin = orgPkt h.src ∧
      e.old = natW (opc * 256 + h.seq.toNat) ∧ e.new = natW stDenied := by
  obtain ⟨e, he, -, -, -, -, -, -, ho, hev, -, hold, hnew, -⟩ :=
    logE_wraps hp hl (orgPkt h.src) 0x0011 0 (natW (opc * 256 + h.seq.toNat)) (natW stDenied)
  exact ⟨e, he, hev, ho, hold, hnew⟩

theorem row_claimWrong {s : State} {h : Hdr} (c : CanChange s h observer) (hb : h.bcast = false) (hk : keepers s = 0)
    (hh : s.rights.holdoff = 0) (role : Byte) {code : BitVec 64} (hc : codeUpper (beBytes 8 code.toNat) ≠ s.fac.claim) :
    rowRun s h 0x08 (role :: beBytes 8 code.toNat) = answered (deniedLog (claimFailed s) h 0x08) h stDenied [] := by
  rw [row_claim c (lenOk_claimCoded role code), opClaim_compares hb hk hh, if_pos (by simpa using hc)]
  exact packetFinish_denied (claimFailed s) hb (by decide) rfl

/-- A role below the opcode's minimum fails step 7 of 06 R284. -/
theorem packetNames_denied {s : State} {role opc : Nat} {pl : List Byte} (hm : s.twin.mode = 0) (hl : lenOk opc pl = some true)
    (hx : opc ≠ 0x03) (hr : readNames s opc pl = true) (hmin : role < minRole opc pl) :
    packetNames s role opc pl = some (answer stDenied []) := by
  simp [packetNames, hl, isTail_single hm, hx, hr, hmin]

theorem row_grantDenied {s : State} {h : Hdr} (c : CanChange s h observer) (hb : h.bcast = false) (hr : roleOf s h.src.toNat < keeper)
    (client role : Byte) : rowRun s h 0x09 [client, role] = answered (deniedLog s h 0x09) h stDenied [] := by
  rw [rowRun_fail c 0x09 _ (by decide) rfl (packetNames_denied c.single rfl (by decide) rfl hr)]
  exact packetFinish_denied s hb (by decide) rfl

/-- Settles O20: both are DENIED, a wrong code after its failed comparison is counted, a low role at once. -/
theorem deniedRequests : Obligations.DeniedRequests := by
  intro s h c hb hl
  refine ⟨fun role code hk hh hc => ?_, fun client role hr => ?_⟩
  · obtain ⟨e, he, hev, ho, -, -⟩ := deniedLog_entry (s := claimFailed s) c.wraps hl h 0x08
    exact ⟨_, e, congrArg _ (row_claimWrong c hb hk hh role hc), rfl, rfl, rfl, he, hev, ho⟩
  · obtain ⟨e, he, hev, -, hold, hnew⟩ := deniedLog_entry c.wraps hl h 0x09
    exact ⟨_, e, congrArg _ (row_grantDenied c hb hr client role), rfl, he, hev, hold, hnew⟩

end Sys2Proof.Machine
end

section
/-! SUPPORT. LOGMARK (07 R328–R330, R335), and the full Logbook (07 R338–R340). -/

namespace Sys2Proof.Machine

/-- The entry of a LOGMARK. -/
def logMarked (s : State) (h : Hdr) (mark : BitVec 16) (value : Word) : State := logE s (orgPkt h.src) 0x000D mark.toNat 0 value

/-- The fields of a LOGMARK read back, and its entry is written. -/
theorem opLogmark_writes (s : State) (h : Hdr) (mark : BitVec 16) (value : Word) :
    opRun s (ctxOf s h) 0x0E (beBytes 2 mark.toNat ++ beBytes 4 value.toNat) =
      opDone (logMarked s h mark value) (beBytes 4 s.log.nextSeq.toNat) := by
  have hmark : plField (beBytes 2 mark.toNat ++ beBytes 4 value.toNat) 0 2 = mark.toNat :=
    (plField_front ..).trans (Nat.mod_eq_of_lt mark.isLt)
  have hvalue : plField (beBytes 2 mark.toNat ++ beBytes 4 value.toNat) 2 4 = value.toNat :=
    (plField_behind 2 _ 0 4 _).trans ((plField_last ..).trans (Nat.mod_eq_of_lt value.isLt))
  show opLogmark s (ctxOf s h) _ = _
  simp [opLogmark, hmark, hvalue, logMarked, ctxOf, natW]

/-- A LOGMARK has six bytes (06 R295). -/
theorem lenOk_logmark (mark : BitVec 16) (value : Word) : lenOk 0x0E (beBytes 2 mark.toNat ++ beBytes 4 value.toNat) = some true := by
  simp [lenOk, beBytes_length]

theorem row_logmark {s : State} {h : Hdr} (c : CanChange s h operator) (mark : BitVec 16) (value : Word) :
    rowRun s h 0x0E (beBytes 2 mark.toNat ++ beBytes 4 value.toNat) =
      answered (logMarked s h mark value) h stDone (beBytes 4 s.log.nextSeq.toNat) :=
  row_answered c 0x0E _ (by decide) rfl (lenOk_logmark mark value) (by decide) (by decide) (by decide) rfl rfl rfl (by decide) (by decide)
    (opLogmark_writes s h mark value)

/-- Settles O21: the packet's entry is appended by `logE`, chained to the one before it. -/
theorem logmarkWritesItsEntry : Obligations.LogmarkWritesItsEntry := by
  intro s h mark value c hl
  obtain ⟨e, he, -, -, -, hseq, -, -, ho, hev, hsub, -, hnew, hcheck⟩ :=
    logE_wraps c.wraps hl (orgPkt h.src) 0x000D mark.toNat 0 value
  exact ⟨_, e, congrArg _ (row_logmark c mark value), rfl, he, hseq, ho, hev, by simpa using hsub, hnew, hcheck⟩

/-! ### Under STOP (07 R339, R340) -/

/-- A client's changing packet that passes steps 1 to 7, whatever the policy. -/
theorem fate_fresh {s : State} {h : Hdr} (c : CanQuery s h) (hf : ∀ d, aget s.cmd.dups h.src.toNat = some d → d.seq ≠ h.seq)
    {opc : Nat} {pl : List Byte} (ho : opc < 256) (hn : packetNames s (roleOf s h.src.toNat) opc pl = none) :
    packetFate s (rowPkt h opc pl) = .run := by
  have hs : ¬(h.src.toNat = 0 ∨ 125 < h.src.toNat) := by have := c.lo; have := c.hi; omega
  have hd : dupOf s (rowPkt h opc pl) = none := by
    unfold dupOf
    split
    · next d e => exact if_neg (hf d e)
    · rfl
  simp only [packetFate, hd, ite_self]
  simp [rowPkt, byteOf_toNat ho, c.ucast, c.room, hs, hn]

/-- In a full Logbook under STOP a changing packet whose entry finds no place is LOCKED: beside its client's record and its reply, nothing
changes. -/
theorem rowRun_locked {s : State} {h : Hdr} (c : CanQuery s h) (hf : ∀ d, aget s.cmd.dups h.src.toNat = some d → d.seq ≠ h.seq)
    {opc : Nat} {pl : List Byte} (ho : opc < 256) (hq : isQuery opc pl = false)
    (hn : packetNames s (roleOf s h.src.toNat) opc pl = none) (hd : isDecided opc pl = false)
    (ht : stateTakes s.u.st opc = true) (h3 : opc ≠ 0x03) (h5 : opc ≠ 0x05) (hp : stopPolicy s = true)
    (hl : 4096 ≤ s.log.entries.length) (hu : s.log.unlogged < (opRun s (ctxOf s h) opc pl).1.log.unlogged) :
    rowRun s h opc pl = answered s h stLocked [] := by
  have hfate := fate_fresh c hf ho hn
  have ha : stateAsked s (rowPkt h opc pl) = s := stateAsked_other s h pl ho (.inl h5)
  have hsteps : stepsRun s (ctxOf s h) (rowPkt h opc pl) = opFail s stLocked := by
    have hopc : (rowPkt h opc pl).opc.toNat = opc := byteOf_toNat ho
    have hpl : (rowPkt h opc pl).payload = pl := rfl
    simp only [stepsRun, ha, hopc, hpl, ht, stopHeld, hq, hp]
    simp [h3, show 4095 ≤ s.log.entries.length by omega, hu]
  have hrow : rowRun s h opc pl = resultEnd (stepsRun s (ctxOf s h) (rowPkt h opc pl)) (rowPkt h opc pl) := by
    simp only [rowRun, c.runs, hfate, partsOf_single c.single, isLead_single c.single, hd, execTaken, packetEnd, ownRun]
    simp [rowPkt, ctxOf]
  rw [hrow, hsteps]
  exact packetFinish_answered c.ucast ho hq (by decide) (by decide) []

theorem row_logmarkLocked {s : State} {h : Hdr} (c : CanQuery s h) (hf : ∀ d, aget s.cmd.dups h.src.toNat = some d → d.seq ≠ h.seq)
    (hr : operator ≤ roleOf s h.src.toNat) (hp : stopPolicy s = true) (hl : 4096 ≤ s.log.entries.length) (mark : BitVec 16)
    (value : Word) : rowRun s h 0x0E (beBytes 2 mark.toNat ++ beBytes 4 value.toNat) = answered s h stLocked [] := by
  have hn := packetNames_pass c.single (lenOk_logmark mark value) (by decide) rfl (hmin := hr)
  refine rowRun_locked c hf (by decide) rfl hn rfl rfl (by decide) (by decide) hp hl ?_
  rw [opLogmark_writes]
  show _ < (logMarked s h mark value).log.unlogged
  rw [logMarked, logE_stops hp hl]
  exact Nat.lt_succ_self _

/-- Settles O22: under WRAP the entry takes the oldest one's place (`logE_full`); under STOP it would find none, and the packet is
LOCKED. -/
theorem fullLogbook : Obligations.FullLogbook := by
  intro s h mark value
  refine ⟨fun o rest c he hn hm => ?_, fun c hf hr hp hl => congrArg _ (row_logmarkLocked c hf hr hp hl mark value)⟩
  obtain ⟨e, hent, ha, hover, hev⟩ := logE_full c.wraps he hn hm (orgPkt h.src) 0x000D mark.toNat 0 value
  exact ⟨_, e, congrArg _ (row_logmark c mark value), rfl, hent, hev, ha, hover⟩

end Sys2Proof.Machine
end

section
/-! SUPPORT. The tick counter and wall time (08 R358–R360, R369, R372–R375). -/

namespace Sys2Proof.Machine

/-! ### A new era (08 R369) -/

section
variable (s : State) (o : BitVec 16)

@[simp] theorem eraStart_count : (eraStart s o).t.count = s.t.count := rfl
@[simp] theorem eraStart_up : (eraStart s o).t.up = s.t.up := rfl
@[simp] theorem eraStart_p : (eraStart s o).t.p = s.t.p := rfl
@[simp] theorem eraStart_sf : (eraStart s o).t.sf = s.t.sf := rfl
@[simp] theorem eraStart_era : (eraStart s o).t.era = s.t.era + 1 := rfl

end

/-! ### A tick (08 R358, R360) -/

/-- The count that follows the last one is 0. -/
theorem count_succ_eq_zero {c : BitVec 48} : c + 1 = 0 ↔ c = BitVec.allOnes 48 := by
  rw [← BitVec.neg_one_eq_allOnes]
  exact add_eq_zero_iff_eq_neg

/-- The time of the tick after `t`, without a correction and within its era. -/
def timeAfter (t : TimeSt) : TimeSt :=
  { t with count := t.count + 1, up := t.up + 1, p := if t.p = 511 then 0 else t.p + 1,
           sf := if t.p = 511 then t.sf + 1 else t.sf }

theorem fieldSends_t (s : State) : (fieldSends s).t = s.t := by
  unfold fieldSends fieldAnswer
  dsimp only
  repeat' split
  all_goals rfl

/-- What the field die applies at CLK 0 moves no time. -/
theorem fieldApply_t (s : State) : (fieldApply s).t = s.t := by
  unfold fieldApply
  dsimp only
  split
  · rfl
  · rfl
  · exact (fieldTake_taken _ _ _).time

/-- A wrap moves neither the count nor the place in the superframe. -/
theorem wrapCheck_time (s : State) : (wrapCheck s).t.count = s.t.count ∧ (wrapCheck s).t.up = s.t.up ∧
    (wrapCheck s).t.p = s.t.p ∧ (wrapCheck s).t.sf = s.t.sf := by
  unfold wrapCheck
  split
  · simp
  · exact ⟨rfl, rfl, rfl, rfl⟩

theorem wrapCheck_era (s : State) : (wrapCheck s).t.era = if s.t.count = 0 then s.t.era + 1 else s.t.era := by
  unfold wrapCheck
  split
  · exact eraStart_era ..
  · rfl

/-- Without a correction due, the tick's time advances, a wrap is looked for, and the field die applies what it received. -/
theorem tickAdvance_plain {s : State} (hf : s.t.fix = none) :
    ∃ x : State, tickAdvance s = fieldApply (wrapCheck x) ∧ x.t = timeAfter s.t := by
  unfold tickAdvance
  extract_lets s0 p _ t _ _ _ _ s1
  have hn : ¬ (p = 0 && t.fix.isSome) = true := by
    rw [show t.fix = none from hf]
    simp
  refine ⟨s1, by rw [if_neg hn], ?_⟩
  show t = _
  by_cases hp : s.t.p = 511 <;> simp +zetaDelta [timeAfter, hp]

/-- Settles O39: the state after `tickAdvance` has the time of the next tick, and at count 0 the wrap has begun an era. -/
theorem tickAdvances : Obligations.TickAdvances := by
  intro s ha hf
  obtain ⟨x, he, hx⟩ := tickAdvance_plain hf
  have ht : (tickAdvance s).t = (wrapCheck x).t := by rw [he, fieldApply_t]
  obtain ⟨hcount, hup, hp, hsf⟩ := wrapCheck_time x
  have hp0 : (tickAdvance s).t.p = 0 ↔ s.t.p = 511 := by
    rw [ht, hp, hx]
    simp [timeAfter]
  have hrun : tickRun s = if s.t.p = 511 then superframeBegin (tickAdvance s)
      else if tailAskDue (tickAdvance s) = true then tailAsk (tickAdvance s) else tickAdvance s := by
    simp only [tickRun, hp0]
  refine ⟨tickAdvance s, ?_, ?_, ?_, ?_, fun hc => ?_, fun hc => ?_, ?_, fun hc => ?_⟩
  · rw [ht, hcount, hx, timeAfter]
  · rw [ht, hup, hx, timeAfter]
  · rw [ht, hp, hx, timeAfter]
  · rw [ht, hsf, hx, timeAfter]
  · rw [ht, wrapCheck_era, hx, timeAfter, if_neg (mt count_succ_eq_zero.mp hc)]
  · rw [ht, wrapCheck_era, hx, timeAfter, if_pos (count_succ_eq_zero.mpr hc)]
  · show execTick s = _
    rw [execTick, if_pos ha, hrun]
  · show execCounterWrap s = _
    rw [execCounterWrap, if_pos (by simp [ha, hc]), hrun]

/-! ### Slew steps (08 R375) -/

/-- Settles O24: a mapping, ticks left to slew and the tick of the next step decide whether a step is due. -/
theorem slewStepMovesOneTick : Obligations.SlewStepMovesOneTick := by
  intro s
  refine ⟨fun o ho hl hd => ?_, fun h => congrArg Host.Outcome.next ?_⟩
  · have hn : ¬(s.t.slewLeft = 0 ∨ s.t.up < s.t.slewPhase) := by omega
    show execSlewStep s = _
    simp only [execSlewStep, slewStep, ho, if_neg hn]
  · unfold slewStep
    split
    · next o ho =>
      rw [ho] at h
      exact if_pos (h.resolve_left (Option.some_ne_none o))
    · rfl

/-! ### TIMESET (08 R372–R375) -/

/-- The offset a TIMESET asks for. -/
def askedOff (wall : BitVec 64) (tick : BitVec 48) : Int := 512 * (wall.toNat : Int) - tick.toNat

section
variable {s : State} {wall : BitVec 64} {tick : BitVec 48} (o : BitVec 16)

theorem timesetRun_first (h : s.t.off = none) :
    (timesetRun s o wall tick).t = (mapSet s (askedOff wall tick) 0 wall tick).t := by
  unfold timesetRun
  rw [h]
  rfl

/-- Over a mapping in force the difference decides (08 R373–R375). -/
theorem timesetRun_over {off : Int} (h : s.t.off = some off) :
    (timesetRun s o wall tick).t =
      if askedOff wall tick - off = 0 ∧ s.t.slewLeft = 0 then s.t
      else if askedOff wall tick - off < 0 then (eraStart (mapSet s (askedOff wall tick) 0 wall tick) o).t
      else if askedOff wall tick - off ≤ 1024 then (mapSet s off (askedOff wall tick - off).toNat wall tick).t
      else (mapSet s (askedOff wall tick) 0 wall tick).t := by
  unfold timesetRun
  rw [h]
  simp only [apply_ite State.t]
  rfl

theorem timesetRun_back {off : Int} (h : s.t.off = some off) (hd : askedOff wall tick < off) :
    (timesetRun s o wall tick).t = (eraStart (mapSet s (askedOff wall tick) 0 wall tick) o).t := by
  rw [timesetRun_over o h, if_neg (by omega), if_pos (by omega)]

/-- A step of up to 1 024 ticks that is not backward is slewed; one of 0 takes the place of a slew that runs. -/
theorem timesetRun_slew {off : Int} (h : s.t.off = some off) (h0 : ¬(askedOff wall tick = off ∧ s.t.slewLeft = 0))
    (hlo : off ≤ askedOff wall tick) (hhi : askedOff wall tick ≤ off + 1024) :
    (timesetRun s o wall tick).t = (mapSet s off (askedOff wall tick - off).toNat wall tick).t := by
  rw [timesetRun_over o h, if_neg (by omega), if_neg (by omega), if_pos (by omega)]

theorem timesetRun_forward {off : Int} (h : s.t.off = some off) (hd : off + 1024 < askedOff wall tick) :
    (timesetRun s o wall tick).t = (mapSet s (askedOff wall tick) 0 wall tick).t := by
  rw [timesetRun_over o h, if_neg (by omega), if_neg (by omega), if_neg (by omega)]

/-- The mapping in force asked for again changes nothing. -/
theorem timesetRun_same (h : s.t.off = some (askedOff wall tick)) (hl : s.t.slewLeft = 0) : timesetRun s o wall tick = s := by
  unfold timesetRun
  rw [h]
  exact if_pos ⟨sub_self _, hl⟩

end

/-- The fields of a TIMESET read back, and its checks pass. -/
theorem opTimeset_runs {s : State} (hr : timesetReady s = true) (c : Ctx) {wall : BitVec 64} {tick : BitVec 48}
    (hv : timesetValue wall tick = true) :
    opTimeset s c (beBytes 8 wall.toNat ++ beBytes 6 tick.toNat) = opDone (timesetRun s c.origin wall tick) [] := by
  have hwall : plField (beBytes 8 wall.toNat ++ beBytes 6 tick.toNat) 0 8 = wall.toNat :=
    (plField_front ..).trans (Nat.mod_eq_of_lt wall.isLt)
  have htick : plField (beBytes 8 wall.toNat ++ beBytes 6 tick.toNat) 8 6 = tick.toNat :=
    (plField_behind 8 _ 0 6 _).trans ((plField_last ..).trans (Nat.mod_eq_of_lt tick.isLt))
  unfold opTimeset
  simp only [hwall, htick, BitVec.ofNat_toNat, BitVec.setWidth_eq]
  exact guarded_pass _ _ _ (by simp [hr, hv])

theorem row_timeset {s : State} {h : Hdr} (c : CanChange s h keeper) (hr : timesetReady s = true) {wall : BitVec 64}
    {tick : BitVec 48} (hv : timesetValue wall tick = true) :
    rowRun s h 0x10 (beBytes 8 wall.toNat ++ beBytes 6 tick.toNat) =
      answered (timesetRun s (orgPkt h.src) wall tick) h stDone [] :=
  row_answered c 0x10 _ (by decide) rfl (by simp [lenOk, beBytes_length]) (by decide) (by decide) (by decide) rfl rfl rfl
    (by decide) (by decide) (opTimeset_runs hr (ctxOf s h) hv)

/-- Settles O23: a TIMESET in order runs `timesetRun`, whose cases are told by the offset asked for against the one in force. -/
theorem timesetMaps : Obligations.TimesetMaps := by
  intro s h wall tick c hg hts hu hor hw ht
  have hr : timesetReady s = true := by simp [timesetReady, isOrphan, hg, hts, hu, hor]
  have hv : timesetValue wall tick = true := by simpa [timesetValue] using ⟨hw, ht⟩
  have hrow : exec (.timeset h wall tick) s = .next (answered (timesetRun s (orgPkt h.src) wall tick) h stDone []) :=
    congrArg _ (row_timeset c hr hv)
  refine ⟨fun hn => ⟨_, hrow, ?_⟩, fun o ho hd => ⟨_, hrow, ?_⟩, fun o ho hlo hhi => ⟨_, hrow, ?_⟩,
    fun o ho hd => ⟨_, hrow, ?_⟩, fun (ho : s.t.off = some (askedOff wall tick)) => ⟨fun hl => ?_, fun hl => ⟨_, hrow, ?_⟩⟩⟩
  · rw [timesetRun_first _ hn]
    exact ⟨rfl, rfl, rfl⟩
  · rw [timesetRun_back _ ho hd]
    exact ⟨rfl, rfl, rfl⟩
  · rw [timesetRun_slew _ ho (fun e => hlo.ne' e.1) hlo.le hhi]
    exact ⟨rfl, rfl, Int.toNat_of_nonneg (sub_nonneg.mpr hlo.le), rfl⟩
  · rw [timesetRun_forward _ ho hd]
    exact ⟨rfl, rfl, rfl⟩
  · rw [hrow, timesetRun_same _ ho hl]
  · rw [timesetRun_slew _ ho (fun e => hl e.2) le_rfl (by omega)]
    exact ⟨rfl, rfl, congrArg Int.toNat (sub_self _)⟩

end Sys2Proof.Machine
end

section
/-! SUPPORT. Writes of the unit's own parameters: the cable clock, RIDGE.TERM, tally windows, alarm enables, waveform sizes and AOUT.ENABLE
(08 R384, 16 R699, R706, R728, 18 R772, R774, R794, 20 R893). -/

namespace Sys2Proof.Machine

/-! ### The write an ID selects -/

theorem param_paramPut_same (s : State) (id : Nat) (o : BitVec 16) (w : Word) : param (paramPut s id o w) id = w := by
  rw [paramPut_shape]
  exact param_setParam_same s id w

theorem writeParam_cable (s : State) (o : BitVec 16) (w : Word) :
    writeParam s idCable o w = if storedOf idCable w = param s idCable then s
      else { paramPut s idCable o (storedOf idCable w) with t.firstDue := true } := rfl

theorem writeParam_term (s : State) (o : BitVec 16) (w : Word) :
    writeParam s idTerm o w = paramPut s idTerm o (storedOf idTerm w) := ite_self _

theorem writeParam_aout (s : State) (o : BitVec 16) (w : Word) :
    writeParam s (idAout 0) o w = writeAout s o (storedOf (idAout 0) w) := rfl

/-- The single IDs with a write of their own stand on pages 0x04, 0x06 and 0x38. -/
theorem ne_single_of_page {id : Nat} (h : id / 256 ∉ [0x04, 0x06, 0x38]) :
    id ≠ idLog 0 ∧ id ≠ idLog 2 ∧ id ≠ idCable ∧ id ≠ idAout 0 := by
  refine ⟨?_, ?_, ?_, ?_⟩ <;> · rintro rfl; exact h (by decide)

section
variable {id : Nat} (s : State) (o : BitVec 16) (w : Word)

theorem writeParam_alarm (hp : id / 256 = 0x34) (hi : id % 256 < 16) :
    writeParam s id o w = writeEnable s (id % 256) o (storedOf id w) := by
  obtain ⟨h1, h2, h3, h4⟩ := ne_single_of_page (id := id) (by rw [hp]; decide)
  simp [writeParam, hp, hi, h1, h2, h3, h4]

theorem writeParam_tally (hp : id / 256 = 0x35) (hi : id % 256 < 0x40) :
    writeParam s id o w = tallyEmpty (paramPut s id o (storedOf id w)) (id % 256 % 32) := by
  obtain ⟨h1, h2, h3, h4⟩ := ne_single_of_page (id := id) (by rw [hp]; decide)
  simp [writeParam, hp, hi, h1, h2, h3, h4]

theorem writeParam_wave (hp : id / 256 = 0x39) (hi : id % 256 < 16) :
    writeParam s id o w = writeWaveSize s (id % 256) o (storedOf id w) := by
  obtain ⟨h1, h2, h3, h4⟩ := ne_single_of_page (id := id) (by rw [hp]; decide)
  simp [writeParam, hp, hi, h1, h2, h3, h4]

end

/-- The row of one parameter, named by its number: a write that passes is made. -/
theorem row_write {s : State} {h : Hdr} {r : Nat} (c : CanChange s h r) {id : Nat} (hid : id < 2 ^ 16) {v : Word}
    (hc : setpCheck s (roleOf s h.src.toNat) (orgPkt h.src) [(id, v)] = none) :
    rowRun s h 0x03 (pairBytes [(BitVec.ofNat 16 id, v)]) = answered (writeParam s id (orgPkt h.src) v) h stDone [] := by
  have e : (BitVec.ofNat 16 id).toNat = id := Nat.mod_eq_of_lt hid
  have hrow := row_setp_one (id := BitVec.ofNat 16 id) (w := v) c (by rwa [e])
  rwa [e] at hrow

/-! ### The cable clock and the tally (08 R384, 16 R699) -/

theorem writeCable_stores (s : State) (o : BitVec 16) (w : Word) : param (writeParam s idCable o w) idCable = storedOf idCable w := by
  rw [writeParam_cable]
  split
  · next h => exact h.symm
  · exact (param_congr rfl idCable).trans (param_paramPut_same s idCable o _)

theorem tallyEmpty_empties (s : State) {i : Nat} (hi : i < 24) : (tallyOf (tallyEmpty s i) i).win = [] := by
  simp only [tallyOf, tallyEmpty, vget_vmod_same _ _ _ _ hi]

theorem writeTally_stores {id n : Nat} (hp : id / 256 = 0x35) (hi : id % 256 < 0x40) (hn : id % 256 % 32 = n) (hs : n < 24) (s : State)
    (o : BitVec 16) (w : Word) :
    param (writeParam s id o w) id = storedOf id w ∧ (tallyOf (writeParam s id o w) n).win = [] := by
  rw [writeParam_tally s o w hp hi, hn]
  exact ⟨(param_congr rfl id).trans (param_paramPut_same s id o _), tallyEmpty_empties _ hs⟩

/-! ### ALARM.ENABLE (16 R706, R728) -/

/-- A rule newly enabled: its window is empty, and it has counted nothing; its state stands. -/
def ruleStarted (a : AlarmRule) : AlarmRule := { a with win := [], counted := none, vrun := 0, skipped := false }

theorem confRule_alarm (s : State) (r f : Nat) : (confRule s r f).alarm = s.alarm := by
  unfold confRule
  split <;> rfl

theorem writeEnable_stores (s : State) (r : Nat) (o : BitVec 16) (w : Word) :
    param (writeEnable s r o w) (idAlarm 0 r) = w := by
  unfold writeEnable
  extract_lets id s1 s2
  split
  · next h => exact h.symm
  · have h2 : s2.cfg = s1.cfg := by
      unfold s2
      split
      · exact (ruleOff_keeps (.self s1)).config
      · rfl
    exact (param_congr ((confRule_keeps (.self s2)).config.trans h2) id).trans (param_paramPut_same s id o w)

theorem writeEnable_starts {s : State} {r : Nat} {w : Word} (hr : r < 16) (hn : param s (idAlarm 0 r) ≠ w) (hw : w ≠ 0)
    (o : BitVec 16) : ruleOf (writeEnable s r o w) r = ruleStarted (ruleOf s r) := by
  have ha : (paramPut s (idAlarm 0 r) o w).alarm = s.alarm := by rw [paramPut_shape]
  simp only [writeEnable, if_neg hn.symm, if_neg hw, ruleOf, confRule_alarm, modRule_alarm, vget_vmod_same _ _ _ _ hr, ha, ruleStarted]

/-! ### WAVE.SIZE (18 R794) -/

/-- Emptying waveforms changes no parameter. -/
theorem writeWaveSize_stores (s : State) (w : Nat) (o : BitVec 16) (v : Word) : param (writeWaveSize s w o v) (idWave w) = v := by
  unfold writeWaveSize
  extract_lets s1
  refine (param_congr (forEach_keeps (.self s1) fun x i hx => ?_).config _).trans (param_paramPut_same s (idWave w) o v)
  split
  · exact hx
  · exact hx.same rfl rfl rfl rfl rfl rfl

/-! ### AOUT.ENABLE (18 R772, R774) -/

theorem playEnd_enabled (s : State) (t : Nat) (o : BitVec 16) (closing : Bool) :
    (playEnd s t o closing).aout.enabled = s.aout.enabled := by
  simp [playEnd, rampStart, apply_ite State.aout, apply_ite AoutSt.enabled]

theorem aoutOff_disables (s : State) (o : BitVec 16) (write : Bool) : (aoutOff s o write).aout.enabled = false := by
  unfold aoutOff
  extract_lets _ s1 s2 s3
  split
  · next h => simpa using h
  · rw [playEnd_enabled]
    show s2.aout.enabled = false
    unfold s2
    split <;> rfl

theorem writeAout_on {s : State} {w : Word} (hw : w ≠ 0) (o : BitVec 16) :
    (writeAout s o w).aout.enabled = true ∧ (s.aout.enabled = false → (writeAout s o w).aout.everOn = true ∧
      (writeAout s o w).seam.regQ = s.seam.regQ ++ [regAccess s 0x16 (regField (regWant s 0x16) 0 0 1)]) := by
  unfold writeAout
  rw [if_neg hw]
  split
  · next h => exact ⟨h, fun hn => absurd h (by simp [hn])⟩
  · exact ⟨rfl, fun _ => ⟨rfl, rfl⟩⟩

theorem writeAout_off (s : State) (o : BitVec 16) : (writeAout s o 0).aout.enabled = false := aoutOff_disables s o true

/-- Where the window and the threshold of a source stand on page 0x35 (16 R699). -/
theorem tallyId_place (n : Fin 24) (window : Bool) :
    (if window then idTallyW n else idTallyK n) / 256 = 0x35 ∧ (if window then idTallyW n else idTallyK n) % 256 < 0x40 ∧
      (if window then idTallyW n else idTallyK n) % 256 % 32 = n := by
  have hn := n.isLt
  cases window with
  | true => simp only [if_true, idTallyW]; omega
  | false => simp only [Bool.false_eq_true, if_false, idTallyK]; omega

/-- Settles O16: each row is a SETP of one pair, and its write stores the value; the tally's empties the source's window, an enable's the
rule's, and AOUT.ENABLE switches the output. -/
theorem unitWrites : Obligations.UnitWrites := by
  intro s h v c
  refine ⟨fun hc => ⟨_, congrArg _ (row_write c (by decide) hc), writeCable_stores s _ v⟩,
    fun hc => ⟨_, congrArg _ (row_write c (by decide) hc), ?_⟩, fun n window hc => ?_, fun r hc => ?_, fun w hc => ?_,
    fun hc => ⟨_, congrArg _ (row_write c (by decide) hc), fun hw => ?_, fun hw => ?_⟩⟩
  · rw [writeParam_term]
    exact param_paramPut_same ..
  · obtain ⟨hp, hi, hn⟩ := tallyId_place n window
    exact ⟨_, congrArg _ (row_write c (by omega) hc), writeTally_stores hp hi hn n.isLt s _ v⟩
  · have hr := r.isLt
    have hid : idAlarm 0 r = 0x3400 + r := rfl
    have he (o : BitVec 16) : writeParam s (idAlarm 0 r) o v = writeEnable s r o (storedOf (idAlarm 0 r) v) := by
      rw [writeParam_alarm s o v (by omega) (by omega), show idAlarm 0 r % 256 = r by omega]
    refine ⟨_, congrArg _ (row_write c (by omega) hc), ?_, fun hne hw => ?_⟩
    · rw [he]
      exact writeEnable_stores ..
    · rw [he, writeEnable_starts hr hne hw]
      exact ⟨rfl, rfl, rfl⟩
  · have hlt := w.isLt
    have hid : idWave w = 0x3900 + w := rfl
    refine ⟨_, congrArg _ (row_write c (by omega) hc), ?_⟩
    rw [writeParam_wave s _ v (by omega) (by omega), show idWave w % 256 = w by omega]
    exact writeWaveSize_stores ..
  · rw [writeParam_aout]
    exact writeAout_on hw _
  · rw [writeParam_aout, hw]
    exact writeAout_off ..

end Sys2Proof.Machine
end

section
/-! SUPPORT. Writes of cells and channels: CELL.BIAS and CELL.RAMP (09 R393–R396), the ranger's fields (09 R417, 10 R456), lead capture
(10 R460), and the phases of a filter (12 R549, R550). -/

namespace Sys2Proof.Machine

/-! ### The write an ID of pages 0x08 to 0x2D selects -/

/-- The page and the index of an ID between the pages of the single IDs with a write of their own. -/
theorem channelId_place {id page i : Nat} (hid : id = 256 * page + i) (hi : i < 256) (hlo : 0x08 ≤ page) (hhi : page ≤ 0x2D) :
    id / 256 = page ∧ id % 256 = i ∧ id ≠ idLog 0 ∧ id ≠ idLog 2 ∧ id ≠ idCable ∧ id ≠ idAout 0 := by
  have hp : id / 256 = page := by omega
  exact ⟨hp, by omega, ne_single_of_page (by simp; omega)⟩

/-- Where field `f` of the ranger of channel `n` stands. -/
def idRanger (n f : Nat) : Nat := if n < 8 then idAmp n f else idMox (n - 8) f

section
variable {n f : Nat} (s : State) (o : BitVec 16) (w : Word)

theorem writeParam_ranger (hn : n < 12) (h1 : 1 ≤ f) (h3 : f ≤ 3) :
    writeParam s (idRanger n f) o w = boundsApply (paramPut s (idRanger n f) o (storedOf (idRanger n f) w)) n o := by
  unfold idRanger
  split
  · next h8 =>
    obtain ⟨hp, hi, e1, e2, e3, e4⟩ := channelId_place (id := idAmp n f) (page := n + 0x08) (i := f) (by unfold idAmp; omega)
      (by omega) (by omega) (by omega)
    simp [writeParam, e1, e2, e3, e4, hp, hi, h1, h3, show n ≤ 7 by omega]
  · next h8 =>
    obtain ⟨m, rfl⟩ := Nat.exists_eq_add_of_le' (Nat.le_of_not_lt h8)
    rw [Nat.add_sub_cancel]
    obtain ⟨hp, hi, e1, e2, e3, e4⟩ := channelId_place (id := idMox m f) (page := m + 0x14) (i := f) (by unfold idMox; omega)
      (by omega) (by omega) (by omega)
    simp [writeParam, e1, e2, e3, e4, hp, hi, h1, h3, show m ≤ 3 by omega]

theorem writeParam_leadCap (hn : n < 4) : writeParam s (idMox n 7) o w = writeLeadCap s n o (storedOf (idMox n 7) w) := by
  obtain ⟨hp, hi, e1, e2, e3, e4⟩ := channelId_place (id := idMox n 7) (page := n + 0x14) (i := 7) (by unfold idMox; omega)
    (by omega) (by omega) (by omega)
  simp [writeParam, e1, e2, e3, e4, hp, hi, show n ≤ 3 by omega]

theorem writeParam_cellBias (hn : n < 4) : writeParam s (idCell n 0) o w = writeBias s n o (storedOf (idCell n 0) w) := by
  obtain ⟨hp, hi, e1, e2, e3, e4⟩ := channelId_place (id := idCell n 0) (page := n + 0x10) (i := 0) (by unfold idCell; omega)
    (by omega) (by omega) (by omega)
  simp [writeParam, e1, e2, e3, e4, hp, hi, show n ≤ 3 by omega]

theorem writeParam_cellRamp (hn : n < 4) : writeParam s (idCell n 1) o w = writeRamp s n o (storedOf (idCell n 1) w) := by
  obtain ⟨hp, hi, e1, e2, e3, e4⟩ := channelId_place (id := idCell n 1) (page := n + 0x10) (i := 1) (by unfold idCell; omega)
    (by omega) (by omega) (by omega)
  simp [writeParam, e1, e2, e3, e4, hp, hi, show n ≤ 3 by omega]

theorem writeParam_phaseTicks (hn : n < 14) : writeParam s (idFilt n 6) o w = writePhaseTicks s n o (storedOf (idFilt n 6) w) := by
  obtain ⟨hp, hi, e1, e2, e3, e4⟩ := channelId_place (id := idFilt n 6) (page := n + 0x20) (i := 6) (by unfold idFilt; omega)
    (by omega) (by omega) (by omega)
  simp [writeParam, e1, e2, e3, e4, hp, hi, show n ≤ 13 by omega]

theorem writeParam_phaseFrac (hn : n < 14) : writeParam s (idFilt n 7) o w = writePhaseFrac s n o (storedOf (idFilt n 7) w) := by
  obtain ⟨hp, hi, e1, e2, e3, e4⟩ := channelId_place (id := idFilt n 7) (page := n + 0x20) (i := 7) (by unfold idFilt; omega)
    (by omega) (by omega) (by omega)
  simp [writeParam, e1, e2, e3, e4, hp, hi, show n ≤ 13 by omega]

end

/-! ### A cell's ramp brought up to this tick (09 R394) -/

theorem cellOf_modCell_same (s : State) {k : Nat} (hk : k < 4) (f : Cell → Cell) : cellOf (modCell s k f) k = f (cellOf s k) :=
  vget_vmod_same _ _ _ _ hk

theorem cellOf_congr {s t : State} (h : t.cell = s.cell) (k : Nat) : cellOf t k = cellOf s k := by rw [cellOf, cellOf, h]

/-- The target a cell has reached at this tick: that of the ramp that runs, else the one held. -/
def targetNow (s : State) (k : Nat) : Rat :=
  if (cellOf s k).ramping = true ∧ (cellOf s k).suspended = false then rampAfter s k (s.t.up - (cellOf s k).rampAt)
  else (cellOf s k).target

/-- The cell keeps its step, and its target is the one reached. -/
theorem cellOf_rampCatch (s : State) {k : Nat} (hk : k < 4) :
    (cellOf (rampCatch s k) k).step = (cellOf s k).step ∧ (cellOf (rampCatch s k) k).target = targetNow s k := by
  unfold rampCatch targetNow
  extract_lets c tgt
  by_cases h : c.ramping = true ∧ c.suspended = false
  · rw [if_neg (by simp [h]), if_pos h, cellOf_modCell_same s hk]
    exact ⟨rfl, rfl⟩
  · rw [if_pos (by simpa [or_iff_not_imp_left] using h), if_neg h]
    exact ⟨rfl, rfl⟩

/-- Only cells change. -/
theorem rampCatch_shape (s : State) (k : Nat) : rampCatch s k = { s with cell := (rampCatch s k).cell } := by
  unfold rampCatch
  extract_lets c tgt
  split <;> rfl

theorem isPlaying_rampCatch (s : State) (k t : Nat) : isPlaying (rampCatch s k) t = isPlaying s t := by
  rw [rampCatch_shape]
  rfl

/-! ### CELL.BIAS and CELL.RAMP (09 R395, R396) -/

theorem writeBias_stores (s : State) (k : Nat) (o : BitVec 16) (w : Word) : param (writeBias s k o w) (idCell k 0) = w := by
  unfold writeBias
  extract_lets s0 s1 s2
  split
  · exact param_setParam_same ..
  have h2 : param s2 (idCell k 0) = w := param_paramPut_same ..
  split
  · exact (param_congr rfl _).trans h2
  · exact h2

theorem writeRamp_stores (s : State) (k : Nat) (o : BitVec 16) (w : Word) : param (writeRamp s k o w) (idCell k 1) = w := by
  unfold writeRamp
  extract_lets s0 s1
  split
  · exact param_setParam_same ..
  · exact param_paramPut_same ..

theorem cellOf_paramPut (s : State) (id : Nat) (o : BitVec 16) (w : Word) (k : Nat) : cellOf (paramPut s id o w) k = cellOf s k :=
  cellOf_congr (by rw [paramPut_shape]) k

/-- A new bias of an open cell that no check and no waveform holds: its ramp starts afresh from the target reached. -/
theorem writeBias_ramps {s : State} {k : Nat} {w : Word} (hk : k < 4) (hw : sameVal (idCell k 0) w (param s (idCell k 0)) = false)
    (hz : zCell s k = false) (hs : (cellOf s k).step = .open_) (hp : isPlaying s (k + 1) = false) (o : BitVec 16) :
    (cellOf (writeBias s k o w) k).ramping = true ∧ (cellOf (writeBias s k o w) k).rampAt = s.t.up ∧
      (cellOf (writeBias s k o w) k).rampFrom = targetNow s k := by
  obtain ⟨hstep, htarget⟩ := cellOf_rampCatch s hk
  have hstart : writeBias s k o w = rampStart (paramPut (rampCatch s k) (idCell k 0) o w) k := by
    have hopen : (cellOf (paramPut (rampCatch s k) (idCell k 0) o w) k).step = .open_ := by rw [cellOf_paramPut, hstep, hs]
    have hidle : isPlaying (paramPut (rampCatch s k) (idCell k 0) o w) (k + 1) = false := by
      rw [paramPut_shape]
      exact (isPlaying_rampCatch s k _).trans hp
    simp [writeBias, hw, hz, hopen, hidle]
  have hnow : (paramPut (rampCatch s k) (idCell k 0) o w).t.up = s.t.up := by rw [paramPut_shape, rampCatch_shape]
  rw [hstart, rampStart, cellOf_modCell_same _ hk, cellOf_paramPut]
  exact ⟨rfl, hnow, htarget⟩

/-- Settles O14: each row is a SETP of one pair, and its write stores the value; a new bias of an open cell catches the ramp up and starts
it afresh. -/
theorem cellWrites : Obligations.CellWrites := by
  intro s h k v c
  have hk := k.isLt
  have h0 : idCell k 0 = 0x1000 + 256 * k := rfl
  have h1 : idCell k 1 = 0x1001 + 256 * k := by unfold idCell; omega
  refine ⟨fun hc => ⟨_, congrArg _ (row_write c (by omega) hc), ?_⟩, fun hc => ⟨_, congrArg _ (row_write c (by omega) hc), ?_⟩⟩
  · rw [writeParam_cellBias s _ v hk]
    exact ⟨writeBias_stores .., fun hw hz hs hp => writeBias_ramps hk hw hz hs hp _⟩
  · rw [writeParam_cellRamp s _ v hk]
    exact writeRamp_stores ..

/-! ### The ranger's fields and lead capture (09 R417, 10 R456, R460) -/

theorem boundsApply_cfg (s : State) (n : Nat) (o : BitVec 16) : (boundsApply s n o).cfg = s.cfg :=
  (boundsApply_keeps (.self s)).config

theorem writeLeadCap_counts (s : State) {n : Nat} (hn : n < 4) (o : BitVec 16) (w : Word) :
    (writeLeadCap s n o w).cfg = s.cfg ∧ (moxOf (writeLeadCap s n o w) n).cap =
      if w = 0 then none else some { left := w.toNat, total := w.toNat, sum := 0, origin := o } :=
  ⟨(writeLeadCap_keeps (.self s)).config, congrArg MoxSt.cap (vget_vmod_same _ _ _ _ hn)⟩

/-! ### The phases of a filter (12 R549, R550) -/

theorem writePhaseTicks_stores (s : State) (n : Nat) (o : BitVec 16) (w : Word) : param (writePhaseTicks s n o w) (idFilt n 6) = w := by
  unfold writePhaseTicks
  split
  · next h => exact h.symm
  · exact (param_congr (phaseMoved_keeps (.self _)).config _).trans (param_paramPut_same ..)

theorem writePhaseFrac_stores (s : State) (n : Nat) (o : BitVec 16) (w : Word) : param (writePhaseFrac s n o w) (idFilt n 7) = w := by
  unfold writePhaseFrac
  split
  · next h => exact h.symm
  · exact (param_congr (fracHand_keeps (.self _)).config _).trans (param_paramPut_same ..)

/-- A new fraction is handed over where the channel runs, and only there. -/
theorem writePhaseFrac_hands {s : State} {n : Nat} {w : Word} (hw : param s (idFilt n 7) ≠ w) (o : BitVec 16) :
    (filtRunning s n = true → (writePhaseFrac s n o w).seam.regQ =
      s.seam.regQ ++ [regAccess s (byteOf (ctlAddr n)) (regField (regWant s (ctlAddr n)) 6 1 w.toNat)]) ∧
    (filtRunning s n = false → (writePhaseFrac s n o w).seam = s.seam) := by
  have hfrac : pNat (paramPut s (idFilt n 7) o w) (idFilt n 7) = w.toNat := congrArg BitVec.toNat (param_paramPut_same ..)
  have hrun : filtRunning (paramPut s (idFilt n 7) o w) n = filtRunning s n := by rw [paramPut_shape]; rfl
  rw [writePhaseFrac, if_neg hw.symm, fracHand, hfrac, hrun]
  refine ⟨fun h => ?_, fun h => ?_⟩
  · rw [h, paramPut_shape]
    rfl
  · rw [h, paramPut_shape]
    rfl

/-- Settles O15: each row is a SETP of one pair, whose write stores the value or counts the capture; then the bounds move the range, the
grid moves, or the fraction is handed over, and none of these changes a parameter. -/
theorem channelWrites : Obligations.ChannelWrites := by
  intro s h v c
  refine ⟨fun n f hc => ⟨_, congrArg _ (row_write c ?_ hc), ?_⟩, fun n hc => ⟨_, congrArg _ (row_write c ?_ hc), ?_⟩,
    fun n => ⟨fun hc => ⟨_, congrArg _ (row_write c ?_ hc), ?_⟩, fun hc => ⟨_, congrArg _ (row_write c ?_ hc), ?_⟩⟩⟩
  · split <;> simp only [idAmp, idMox] <;> omega
  · show param (writeParam s (idRanger n (1 + f)) _ v) _ = _
    rw [writeParam_ranger s _ v n.isLt (by omega) (by omega)]
    exact (param_congr (boundsApply_cfg ..) _).trans (param_paramPut_same ..)
  · unfold idMox; omega
  · rw [writeParam_leadCap s _ v n.isLt]
    exact writeLeadCap_counts s n.isLt _ _
  · unfold idFilt; omega
  · rw [writeParam_phaseTicks s _ v n.isLt]
    exact writePhaseTicks_stores ..
  · unfold idFilt; omega
  · rw [writeParam_phaseFrac s _ v n.isLt]
    exact ⟨writePhaseFrac_stores .., fun hw => writePhaseFrac_hands hw _⟩

end Sys2Proof.Machine
end

section
/-! SUPPORT. RANGE (09 R407, R409, 10 R451). -/

namespace Sys2Proof.Machine

theorem frontOf_modFront_same (s : State) {n : Nat} (hn : n < 12) (f : Front → Front) : frontOf (modFront s n f) n = f (frontOf s n) :=
  vget_vmod_same _ _ _ _ hn

/-- A change asked for by command (09 R409). -/
def rangeByCommand (rg : Nat) (o : BitVec 16) : RangeReq := { range := rg, origin := o, auto := false, reset := false, start := false }

section
variable {s : State} {n : Nat} (rg : Nat) (o : BitVec 16)

/-- While the enable write of a start is on its way the change waits, and nothing is handed over (09 R411, 10 R451). -/
theorem rangeAsk_waits {p : RangeReq} (hp : (frontOf s n).req = some p) (hs : p.start = true) :
    rangeAsk s n rg o false false = modFront s n (fun f => { f with later := some (rangeByCommand rg o) }) := by
  simp [rangeAsk, hp, hs, rangeByCommand]

/-- Else one write that holds the front end is handed over (09 R407, 10 R450). -/
theorem rangeAsk_holds (h : ∀ p, (frontOf s n).req = some p → p.start = false) :
    rangeAsk s n rg o false false = regReplace (modFront s n (fun f => { f with req := some (rangeByCommand rg o) })) (ctlAddr n)
      (holdWord (regWant s (ctlAddr n)) n rg) := by
  unfold rangeAsk
  extract_lets q starting
  have hs : starting = false := by
    unfold starting
    split
    · next p hp => exact h p hp
    · rfl
  rw [hs]
  rfl

/-- The range in force stands until the write has applied. -/
theorem rangeAsk_range (hn : n < 12) : (frontOf (rangeAsk s n rg o false false) n).range = (frontOf s n).range := by
  unfold rangeAsk
  extract_lets q starting
  split
  · rw [frontOf_modFront_same s hn]
  · show (frontOf (modFront s n _) n).range = _
    rw [frontOf_modFront_same s hn]

end

/-- The write handed over last. -/
theorem regReplace_last (s : State) (a : Nat) (d : BitVec 16) :
    (regReplace s a d).seam.regQ.getLast? = some (regAccess s (byteOf a) d) :=
  List.getLast?_concat

/-- Where its checks pass, RANGE asks for a range other than the active one. -/
theorem opRange_asks {s : State} {h : Hdr} {n rg : Byte} (hw : stopPolicy s = false) (hn : n.toNat < 12) (hrg : rg.toNat ≤ 5)
    (hs : (chainOf s n.toNat).started = true)
    (hb : rangerOn s n.toNat = true → rangerMin s n.toNat ≤ rg.toNat ∧ rg.toNat ≤ rangerMax s n.toNat) :
    opRange s (ctxOf s h) [n, rg] =
      opDone (if rg.toNat = activeRange s n.toNat then s else rangeAsk s n.toNat rg.toNat (orgPkt h.src) false false) [] := by
  have hbounded : (!rangerOn s n.toNat ||
      (decide (rangerMin s n.toNat ≤ rg.toNat) && decide (rg.toNat ≤ rangerMax s n.toNat))) = true := by
    simpa [or_iff_not_imp_left] using hb
  unfold opRange
  simp only [plByte_zero, plByte_succ]
  refine (guarded_pass _ _ _ ?_).trans ?_
  · simp [hs, hn, hrg, hbounded, logBlocked, hw]
  · simp [ctxOf]

theorem row_range {s : State} {h : Hdr} (c : CanChange s h operator) (hrun : s.u.st = .run) {n rg : Byte} (hn : n.toNat < 12)
    (hrg : rg.toNat ≤ 5) (hs : (chainOf s n.toNat).started = true)
    (hb : rangerOn s n.toNat = true → rangerMin s n.toNat ≤ rg.toNat ∧ rg.toNat ≤ rangerMax s n.toNat) :
    rowRun s h 0x16 [n, rg] = answered
      (if rg.toNat = activeRange s n.toNat then s else rangeAsk s n.toNat rg.toNat (orgPkt h.src) false false) h stDone [] :=
  row_answered c 0x16 _ (by decide) rfl rfl (by decide) (by decide) (by decide) rfl rfl (by rw [hrun]; rfl) (by decide) (by decide)
    (opRange_asks c.wraps hn hrg hs hb)

/-- Settles O27: RANGE asks by `rangeAsk`, whose two cases are told by the request on its way. -/
theorem rangeAsksOnce : Obligations.RangeAsksOnce := by
  intro s h n rg c hrun hn hrg hs hb
  have hrow : exec (.range h n rg) s = _ := congrArg Host.Outcome.next (row_range c hrun hn hrg hs hb)
  refine ⟨fun he => ?_, fun he => ?_⟩
  · rw [hrow, if_pos he]
  rw [if_neg he] at hrow
  refine ⟨_, hrow, rangeAsk_range _ _ hn, fun h => ?_, fun p hp hstart => ?_⟩
  · rw [rangeAsk_holds _ _ h]
    refine ⟨?_, regReplace_last ..⟩
    show (frontOf (modFront s n.toNat _) n.toNat).req = _
    rw [frontOf_modFront_same s hn]
    rfl
  · rw [rangeAsk_waits _ _ hp hstart, frontOf_modFront_same s hn]
    exact ⟨rfl, rfl⟩

end Sys2Proof.Machine
end

section
/-! SUPPORT. BIAS (09 R399–R401, 03 R144, R145). -/

namespace Sys2Proof.Machine

theorem cell_getElem (s : State) (k : Fin 4) : s.cell[k] = cellOf s k := by simp [cellOf, vget]

/-! ### What the front ends of a cell leave alone -/

/-- What each step of a run over numbers leaves alone, the run leaves alone. -/
theorem forEach_same {α : Type} (part : State → α) {f : State → Nat → State} (hf : ∀ s i, part (f s i) = part s) (ns : List Nat)
    (s : State) : part (forEach s ns f) = part s := by
  unfold forEach
  induction ns generalizing s with
  | nil => rfl
  | cons n ns ih => exact (ih (f s n)).trans (hf s n)

theorem boundEnd_cell (s : State) (n : Nat) : (boundEnd s n).cell = s.cell := by
  simp [boundEnd, apply_ite State.cell]

theorem boundEnd_time (s : State) (n : Nat) : (boundEnd s n).t = s.t := by
  simp [boundEnd, apply_ite State.t]

theorem neighbourClose_cell (s : State) (n clear : Nat) : (neighbourClose s n clear).cell = s.cell := by
  unfold neighbourClose
  extract_lets c s1
  split
  · rfl
  · exact forEach_same State.cell (fun s m => modChain_cell s m _) _ _

theorem satEnd_cell (s : State) (n c : Nat) : (satEnd s n c).cell = s.cell := by
  simp [satEnd, apply_ite State.cell, neighbourClose_cell]

theorem cellHold_cell (s : State) (k : Nat) : (cellHold s k).cell = s.cell := by
  have hfield : (cellAmpField s k 10 10 1).cell = s.cell := by
    unfold cellAmpField
    refine forEach_same State.cell (fun s n => ?_) _ s
    rfl
  unfold cellHold
  refine (forEach_same State.cell (fun s n => ?_) _ _).trans hfield
  exact (boundEnd_cell ..).trans (satEnd_cell ..)

/-- Both front ends on: two writes, and neither a cell nor a bias code. -/
theorem cellFrontsOn_cell (s : State) (k : Nat) : (cellFrontsOn s k).cell = s.cell := by
  unfold cellFrontsOn
  refine forEach_same State.cell (fun s n => ?_) _ s
  rfl

theorem biasHanded_cellFrontsOn (s : State) (k j : Nat) : biasHanded (cellFrontsOn s k) j = biasHanded s j := by
  unfold cellFrontsOn
  refine forEach_same (biasHanded · j) (fun s n => ?_) _ s
  rfl

theorem biasTo_cell (s : State) (k : Nat) (c : BitVec 14) : (biasTo s k c).cell = s.cell := by
  simp [biasTo, apply_ite State.cell]

/-! ### Step 1 of enabling (03 R144) -/

/-- The cell takes step 1 with its task, and the code of 0 V is handed over. -/
theorem cellEnable_opens (s : State) {k : Nat} (hk : k < 4) (task : Nat) (o : BitVec 16) :
    cellOf (cellEnable s k task o) k = { Cell0 with step := .opening 1, task := task, rampAt := s.t.up } ∧
      biasHanded (cellEnable s k task o) k = 8192 := by
  have hcell (t : State) : cellOf (cellFrontsOn (biasTo t k 8192) k) k = cellOf t k :=
    cellOf_congr ((cellFrontsOn_cell ..).trans (biasTo_cell ..)) k
  exact ⟨(hcell _).trans (cellOf_modCell_same _ hk _), (biasHanded_cellFrontsOn ..).trans (biasHanded_biasTo _ hk _)⟩

/-! ### Closing an open cell (03 R145) -/

theorem cellGoal_closing {s : State} {k i : Nat} (h : (cellOf s k).step = .closing i) : cellGoal s k = 0 := by
  simp [cellGoal, h]

/-- At step 1 with no ramp the reset switches close, and step 2 is taken. -/
theorem cellOf_cellDisableStep {s : State} {k : Nat} (hk : k < 4) (hs : (cellOf s k).step = .closing 1)
    (hr : (cellOf s k).ramping = false) : cellOf (cellDisableStep s k) k = { cellOf s k with step := .closing 2 } := by
  have hstep : cellDisableStep s k = modCell (cellHold s k) k (fun c => { c with step := .closing 2 }) := by
    simp [cellDisableStep, hs, hr]
  rw [hstep, cellOf_modCell_same _ hk, cellOf_congr (cellHold_cell s k)]

/-- A cell that closes, before its first step. -/
def closingCell (c : Cell) (task : Nat) : Cell :=
  { c with step := .closing 1, task := task, ramping := false, suspended := false, stuck := false }

/-- An open cell with no waveform closes by a ramp to 0 V from the target reached, or goes on at once where it is there. -/
theorem cellClose_open {s : State} {k : Nat} (hk : k < 4) (hs : (cellOf s k).step = .open_) (hp : isPlaying s (k + 1) = false)
    (task : Nat) (o : BitVec 16) :
    cellOf (cellClose s k task o true) k = if targetNow s k = 0 then { closingCell (cellOf (rampCatch s k) k) task with step := .closing 2 }
      else { closingCell (cellOf (rampCatch s k) k) task with ramping := true, rampFrom := targetNow s k, rampAt := s.t.up } := by
  obtain ⟨-, htarget⟩ := cellOf_rampCatch s hk
  have hplay : playEnd (rampCatch s k) (k + 1) orgUnit true = rampCatch s k := by simp [playEnd, isPlaying_rampCatch, hp]
  have hnow : (rampCatch s k).t = s.t := by rw [rampCatch_shape]
  unfold cellClose
  rw [hplay]
  extract_lets s1 s2 from_ s3
  have hcell : cellOf s3 k = closingCell (cellOf (rampCatch s k) k) task :=
    (cellOf_modCell_same _ hk _).trans (congrArg (closingCell · task)
      (cellOf_congr (forEach_same State.cell boundEnd_cell (cellAmps k) s2) k))
  have hfrom : from_ = .open_ := hs
  have hto : (cellOf s3 k).target = targetNow s k := by rw [hcell]; exact htarget
  by_cases h0 : targetNow s k = 0
  · rw [if_pos h0, if_neg (by simp [hto, h0]), cellOf_cellDisableStep hk (by rw [hcell]; rfl) (by rw [hcell]; rfl), hcell]
  · have hup : s3.t = s.t := (forEach_same State.t boundEnd_time (cellAmps k) s2).trans hnow
    rw [if_neg h0, if_pos (by simp [hfrom, hto, h0]), rampStart, cellOf_modCell_same _ hk, hcell, hup, ← htarget]
    rfl

/-! ### BIAS (09 R401) -/

section
variable {s : State} {k : Nat} {e : Byte} (hk : k < 4) (he : e.toNat ≤ 1) (c : Ctx)
include hk he

/-- The cell is in the state asked for, or heading for it: nothing changes. -/
theorem opBias_same (h : cellOn s k = (e.toNat == 1)) : opBias s c [byteOf k, e] = opDone s [] := by
  unfold opBias
  simp only [plByte_zero, plByte_succ, byteOf_toNat (show k < 256 by omega)]
  rw [guarded_pass _ _ _ (by simp [h, he, show k ≤ 3 by omega]), if_pos (by simp [h])]

/-- The opposite of a task that still runs: BUSY, and nothing changes. -/
theorem opBias_busy (h : cellOn s k ≠ (e.toNat == 1)) (hw : stopPolicy s = false) (ht : (cellOf s k).task ≠ 0) :
    opBias s c [byteOf k, e] = opFail s stBusy := by
  unfold opBias
  simp only [plByte_zero, plByte_succ, byteOf_toNat (show k < 256 by omega)]
  simp [guarded, h, he, show k ≤ 3 by omega, ht, logBlocked, hw]

/-- Otherwise its task is taken. -/
theorem opBias_task (h : cellOn s k ≠ (e.toNat == 1)) (ht : (cellOf s k).task = 0) (hl : s.sched.tasks.length < 16) :
    opBias s c [byteOf k, e] = if e.toNat = 1 then biasOn s c k else biasOff s c k := by
  unfold opBias
  simp only [plByte_zero, plByte_succ, byteOf_toNat (show k < 256 by omega)]
  rw [guarded_pass _ _ _ (by simp [he, show k ≤ 3 by omega, ht, tasksFull, hl]), if_neg (by simp [h])]

end

section
variable {s : State} {h : Hdr} (c : CanChange s h operator) (hrun : s.u.st = .run)
include c hrun

/-- A BIAS that its opcode answers (06 R295, 03 R126). -/
theorem row_bias {s1 : State} {k e : Byte} {st : Nat} {data : List Byte} (hs : st < 3)
    (hop : opBias s (ctxOf s h) [k, e] = (s1, some (answer st data))) : rowRun s h 0x20 [k, e] = answered s1 h st data :=
  row_answered c 0x20 _ (by decide) rfl rfl (by decide) (by decide) (by decide) rfl rfl (by rw [hrun]; rfl) (by decide) hs hop

theorem row_biasBusy {k e : Byte} (hb : h.bcast = false) (hop : opBias s (ctxOf s h) [k, e] = opFail s stBusy) :
    rowRun s h 0x20 [k, e] = answered s h stBusy [] := by
  rw [rowRun_change c 0x20 [k, e] (by decide) rfl (packetNames_pass c.single rfl (by decide) rfl c.role) rfl
    (.inr (by rw [hrun]; rfl)) (by decide), show opRun s (ctxOf s h) 0x20 [k, e] = _ from hop]
  exact packetFinish_answered hb (by decide) rfl (by decide) (by decide) []

end

/-- A new task moves no cell and no time. -/
theorem targetNow_taskNew (s : State) (opc : Nat) (cls : TaskClass) (o : BitVec 16) (obj : TaskObj) (k : Nat) :
    targetNow (taskNew s opc cls o obj) k = targetNow s k := rfl

/-- The task of a BIAS, in its table. -/
abbrev biasTasked (s : State) (h : Hdr) (k : Nat) : State := taskNew s 0x20 .keep (orgPkt h.src) (.bias k)

section
variable {s : State} {h : Hdr} (c : CanChange s h operator) (hrun : s.u.st = .run) {k : Nat} (hk : k < 4)
  (ht : (cellOf s k).task = 0) (hl : s.sched.tasks.length < 16)
include c hrun hk ht hl

theorem row_biasOn (hoff : cellOn s k = false) :
    rowRun s h 0x20 [byteOf k, 1] = answered (cellEnable (biasTasked s h k) k (nextTaskNum s) (orgPkt h.src)) h stAccepted
      [byteOf (nextTaskNum s)] :=
  row_bias c hrun (by decide) (opBias_task hk (by decide) _ (by rw [hoff]; decide) ht hl)

theorem row_biasOff (hon : cellOn s k = true) (hz : zCell s k = false) :
    rowRun s h 0x20 [byteOf k, 0] = answered (cellClose (biasTasked s h k) k (nextTaskNum s) (orgPkt h.src) true) h stAccepted
      [byteOf (nextTaskNum s)] := by
  have hclose : biasOff s (ctxOf s h) k = (cellClose (biasTasked s h k) k (nextTaskNum s) (orgPkt h.src) true,
      some (answer stAccepted [byteOf (nextTaskNum s)])) := by
    unfold biasOff
    rw [hz]
    rfl
  exact row_bias c hrun (by decide) ((opBias_task hk (by decide) _ (by rw [hon]; decide) ht hl).trans hclose)

end

/-- Settles O30: the answer goes by the state the cell holds and its task; an accepted BIAS runs `cellEnable`, or `cellClose` of an open
cell. -/
theorem biasCommands : Obligations.BiasCommands := by
  intro s h k c hrun
  have hk := k.isLt
  simp only [cell_getElem]
  refine ⟨fun hon => congrArg _ (row_bias c hrun (by decide) (opBias_same hk (by decide) _ (by rw [hon]; rfl))),
    fun hoff => congrArg _ (row_bias c hrun (by decide) (opBias_same hk (by decide) _ (by rw [hoff]; rfl))),
    fun hb ht => ⟨fun hoff => congrArg _ (row_biasBusy c hrun hb (opBias_busy hk (by decide) _ (by rw [hoff]; decide) c.wraps ht)),
      fun hon => congrArg _ (row_biasBusy c hrun hb (opBias_busy hk (by decide) _ (by rw [hon]; decide) c.wraps ht))⟩,
    fun hs ht hl => ?_, fun hs ht hl hz hp => ?_⟩
  · refine ⟨_, congrArg _ (row_biasOn c hrun hk ht hl (by simp [cellOn, hs])), ?_⟩
    obtain ⟨hcell, hcode⟩ := cellEnable_opens (biasTasked s h k) hk (nextTaskNum s) (orgPkt h.src)
    rw [hcell]
    exact ⟨rfl, rfl, hcode⟩
  · refine ⟨_, congrArg _ (row_biasOff c hrun hk ht hl (by simp [cellOn, hs]) hz), ?_⟩
    have hcell := cellClose_open (s := biasTasked s h k) hk hs hp (nextTaskNum s) (orgPkt h.src)
    by_cases h0 : targetNow s k = 0
    · rw [targetNow_taskNew, if_pos h0] at hcell
      refine ⟨congrArg Cell.task hcell, cellGoal_closing (i := 2) (congrArg Cell.step hcell), fun hv => absurd h0 hv, fun _ => ?_⟩
      rw [hcell]
      exact ⟨rfl, rfl⟩
    · rw [targetNow_taskNew, if_neg h0] at hcell
      refine ⟨congrArg Cell.task hcell, cellGoal_closing (i := 1) (congrArg Cell.step hcell), fun _ => ?_, fun hv => absurd hv h0⟩
      rw [hcell]
      exact ⟨rfl, rfl, rfl, rfl⟩

end Sys2Proof.Machine
end

section
/-! SUPPORT. Heaters: what a run's end leaves of them, and HEATSTOP and PROFLOAD (11 R505, R507, R511). -/

namespace Sys2Proof.Machine

theorem htr_getElem (s : State) (n : Fin 4) : s.htr[n] = htrOf s n := by simp [htrOf, vget]

theorem htrOf_modHtr_same (s : State) {n : Nat} (hn : n < 4) (f : Heater → Heater) : htrOf (modHtr s n f) n = f (htrOf s n) :=
  vget_vmod_same _ _ _ _ hn

theorem htrOf_congr {s t : State} (h : t.htr = s.htr) (n : Nat) : htrOf t n = htrOf s n := by rw [htrOf, htrOf, h]

theorem htrRunning_congr {s t : State} {n : Nat} (h : htrOf t n = htrOf s n) : htrRunning t n = htrRunning s n := by
  rw [htrRunning, htrRunning, h]

theorem htrRunning_of_lead {s : State} {n : Nat} {r : LeadRun} (h : (htrOf s n).lead = some r) : htrRunning s n = true := by
  simp [htrRunning, h]

/-! ### The end of a run (11 R507) -/

theorem taskEnd_htr (s : State) (n status reason : Nat) (result : List Byte) : (taskEnd s n status reason result).htr = s.htr := by
  unfold taskEnd taskEndBy taskDone
  split
  · rfl
  · simp

theorem taskEnd_cfg (s : State) (n status reason : Nat) (result : List Byte) : (taskEnd s n status reason result).cfg = s.cfg :=
  (taskEnd_keeps (Keeps.self s)).config

theorem htrOff_cfg (s : State) (n : Nat) (o : BitVec 16) : (htrOff s n o).cfg = s.cfg := (htrOff_keeps (Keeps.self s)).config

theorem htrEnd_cfg (s : State) (n status reason : Nat) (o : BitVec 16) : (htrEnd s n status reason o).cfg = s.cfg :=
  (htrEnd_keeps (Keeps.self s)).config

/-- A heater whose run has ended. -/
def idleHeater (h : Heater) : Heater :=
  { h with prof := none, lead := none, task := 0, next := 0, bound := false, boundNext := false, deferNext := false, meas := none,
           abort := none, settle := 0, settleNow := false }

theorem htrOff_htr {s : State} {n : Nat} (hr : htrRunning s n = true) (o : BitVec 16) :
    (htrOff s n o).htr = vmod s.htr n idleHeater := by
  simp only [htrOff, hr, Bool.not_true, Bool.false_eq_true, if_false, modChain_htr, modHtr_htr, apply_ite State.htr, logE_htr,
    regSet_htr, ite_self]
  rfl

/-- The word of the next DRIVE ticks is 0. -/
theorem htrOff_drive {s : State} {n : Nat} (hn : n < 4) (hr : htrRunning s n = true) (o : BitVec 16) :
    vget (htrOff s n o).seam.drive n 0 = 0 := by
  simp only [htrOff, hr, Bool.not_true, Bool.false_eq_true, if_false]
  exact vget_vset_same _ _ _ (by omega)

theorem htrOff_idles {s : State} {n : Nat} (hn : n < 4) (hr : htrRunning s n = true) (o : BitVec 16) :
    htrOf (htrOff s n o) n = idleHeater (htrOf s n) := by
  rw [htrOf, htrOff_htr hr]
  exact vget_vmod_same _ _ _ _ hn

theorem htrEnd_running {s : State} {n : Nat} (hr : htrRunning s n = true) (status reason : Nat) (o : BitVec 16) :
    htrEnd s n status reason o = htrOff (taskEnd s (htrOf s n).task status reason []) n o := by
  simp [htrEnd, hr]

theorem htrRunning_taskEnd (s : State) (m status reason : Nat) (result : List Byte) (n : Nat) :
    htrRunning (taskEnd s m status reason result) n = htrRunning s n := htrRunning_congr (htrOf_congr (taskEnd_htr ..) n)

theorem htrRunning_idle {s : State} {n : Nat} {h : Heater} (e : htrOf s n = idleHeater h) : htrRunning s n = false := by
  rw [htrRunning, e]
  rfl

theorem htrRunning_htrEnd_same {s : State} {n : Nat} (hn : n < 4) (status reason : Nat) (o : BitVec 16) :
    htrRunning (htrEnd s n status reason o) n = false := by
  cases hr : htrRunning s n with
  | false => simp [htrEnd, hr]
  | true =>
    rw [htrEnd_running hr]
    exact htrRunning_idle (htrOff_idles hn ((htrRunning_taskEnd ..).trans hr) o)

theorem htrRunning_htrEnd_other (s : State) {n m : Nat} (hm : n ≠ m) (status reason : Nat) (o : BitVec 16) :
    htrRunning (htrEnd s n status reason o) m = htrRunning s m := by
  cases hr : htrRunning s n with
  | false => simp [htrEnd, hr]
  | true =>
    have hoff : (htrEnd s n status reason o).htr = vmod s.htr n idleHeater := by
      rw [htrEnd_running hr, htrOff_htr ((htrRunning_taskEnd ..).trans hr), taskEnd_htr]
    refine htrRunning_congr ?_
    rw [htrOf, hoff]
    exact vget_vmod_other _ _ _ _ _ hm

/-- None of the heaters ended runs any more. -/
theorem htrRunning_forEach_htrEnd {m : Nat} (hm : m < 4) (o : BitVec 16) (ns : List Nat) (s : State) (h : m ∈ ns ∨ htrRunning s m = false) :
    htrRunning (forEach s ns (fun s n => htrEnd s n 0 0 o)) m = false := by
  unfold forEach
  induction ns generalizing s with
  | nil => simpa using h
  | cons n ns ih =>
    refine ih _ ?_
    by_cases hn : n = m
    · subst hn
      exact .inr (htrRunning_htrEnd_same hm 0 0 o)
    · rw [htrRunning_htrEnd_other s hn]
      simpa [Ne.symm hn] using h

/-! ### HEATSTOP (11 R511) -/

/-- The heaters named stopped, one after the other. -/
def heatersStopped (s : State) (h : Hdr) (m : Byte) : State :=
  forEach s (maskList 4 m.toNat) (fun s n => htrEnd s n 0 0 (orgPkt h.src))

theorem row_heatstop {s : State} {h : Hdr} (c : CanChange s h operator) {m : Byte} (hm : m.toNat < 16) :
    rowRun s h 0x29 [m] = answered (heatersStopped s h m) h stDone [] := by
  have hop : opHeatstop s (ctxOf s h) [m] = opDone (heatersStopped s h m) [] := guarded_pass _ _ _ (by simp [plByte_zero, hm])
  exact row_answered c 0x29 [m] (by decide) rfl rfl (by decide) (by decide) (by decide) rfl rfl (by cases s.u.st <;> rfl) (by decide)
    (by decide) hop

/-! ### PROFLOAD (11 R505) -/

/-- The steps stored in their places, and their entry written. -/
def profLoaded (s : State) (h : Hdr) (p : Nat) (first : Byte) (ss : List (BitVec 64)) : State :=
  let old := vget s.profiles p []
  logE { s with profiles := vset s.profiles p (old.take first.toNat ++ ss.map stKept ++ old.drop (first.toNat + ss.length)) }
    (orgPkt h.src) 0x0052 p (natW first.toNat) (natW ss.length)

/-- The payload of a PROFLOAD. -/
abbrev profloadBytes (p : Nat) (first : Byte) (ss : List (BitVec 64)) : List Byte :=
  byteOf p :: first :: (ss.map (fun w => beBytes 8 w.toNat)).flatten

section
variable {s : State} {p : Nat} {first : Byte} {ss : List (BitVec 64)} (hp : p < 16) (h1 : 1 ≤ ss.length) (h29 : ss.length ≤ 29)
  (hf : first.toNat ≤ 31) (hl : first.toNat + ss.length ≤ 32) (hok : ss.all stepOk = true) (hu : profInUse s p = false)

include h1 h29 in
theorem lenOk_profload : lenOk 0x2A (profloadBytes p first ss) = some true := by
  have hlen : (profloadBytes p first ss).length = 2 + 8 * ss.length := by
    rw [List.length_cons, List.length_cons, length_flatten_map fun _ => beBytes_length _ _]
    omega
  simp only [lenOk, hlen, Option.some.injEq, Bool.and_eq_true, decide_eq_true_eq, beq_iff_eq]
  omega

include hp hf hl hok hu in
theorem opProfload_stores (h : Hdr) :
    opProfload s (ctxOf s h) (profloadBytes p first ss) = opDone (profLoaded s h p first ss) [] := by
  simp only [opProfload, plByte_succ, plByte_zero, byteOf_toNat (show p < 256 by omega), List.drop_succ_cons, List.drop_zero,
    plSteps_bytes]
  exact guarded_pass _ _ _ (by simp [show p ≤ 15 by omega, hf, hl, hok, hu])

include hp h1 h29 hf hl hok hu in
theorem row_profload {h : Hdr} (c : CanChange s h tuner) (hv : s.u.st ≠ .vigil) :
    rowRun s h 0x2A (profloadBytes p first ss) = answered (profLoaded s h p first ss) h stDone [] :=
  row_answered c 0x2A _ (by decide) rfl (lenOk_profload h1 h29) (by decide) (by decide) (by decide) rfl rfl
    (by simpa [stateTakes, startOps, configOps] using hv) (by decide) (by decide) (opProfload_stores hp hf hl hok hu h)

end

theorem profLoaded_profiles (s : State) (h : Hdr) (p : Nat) (first : Byte) (ss : List (BitVec 64)) :
    (profLoaded s h p first ss).profiles = vset s.profiles p ((vget s.profiles p []).take first.toNat ++ ss.map stKept ++
      (vget s.profiles p []).drop (first.toNat + ss.length)) := rfl

/-- Settles O31: HEATSTOP ends the run of each heater named, and no end starts another; PROFLOAD passes its checks and writes the one
profile. -/
theorem heaterCommands : Obligations.HeaterCommands := by
  intro s h
  refine ⟨fun c m hm => ⟨_, congrArg _ (row_heatstop c hm), fun n hn => ?_, ?_⟩,
    fun c hv p first ss h1 h29 hf hl hok hu => ⟨_, congrArg _ (row_profload p.isLt h1 h29 hf hl hok hu c hv), rfl, ?_, ?_⟩⟩
  · exact htrRunning_forEach_htrEnd n.isLt _ _ s (.inl (by simp [maskList, hn]))
  · exact forEach_same State.cfg (fun s n => htrEnd_cfg s n 0 0 _) _ s
  · rw [profLoaded_profiles]
    simp [vset, vmod, vget]
  · intro k hk
    rw [profLoaded_profiles]
    simp [vset, vmod, Ne.symm (Fin.val_ne_of_ne hk)]

end Sys2Proof.Machine
end

section
/-! SUPPORT. The loop of a heater (11 R499–R502, R506, R507). -/

namespace Sys2Proof.Machine

section
variable {s : State} {n : Nat}

theorem heaterLoop_idle (h : (htrOf s n).prof = none) : heaterLoop s n = s := by simp [heaterLoop, h]

/-- Where the profile ends, its end is all that comes of the loop. -/
theorem heaterLoop_ends (h : (htrOf s n).prof ≠ none) (he : (stepReady s n).2 = true) : heaterLoop s n = (stepReady s n).1 := by
  simp [heaterLoop, h, he]

/-! ### A step that goes on -/

/-- Heater `n` runs a step that is no END and whose superframes are not all counted. -/
structure StepGoes (s : State) (n : Nat) : Prop where
  runs : (htrOf s n).prof ≠ none
  mode : stMode (stepNow s n) ≠ 0
  left : (htrOf s n).done < stDur (stepNow s n)

theorem stepNow_prof {p : Nat} (hp : (htrOf s n).prof = some p) : stepNow s n = profStep s p (htrOf s n).step := by
  simp [stepNow, hp]

theorem StepGoes.ready (g : StepGoes s n) : stepReady s n = (s, false) := by
  simp [stepReady, g.mode, Nat.not_le.mpr g.left]

theorem heaterLoop_off (g : StepGoes s n) (hm : stMode (stepNow s n) = 1) :
    heaterLoop s n = modHtr s n (fun h => { h with next := 0, boundNext := false }) := by
  simp [heaterLoop, g.runs, g.ready, hm]

/-- The integral after the computation: it moves in CT alone, and where a power follows from R_h (11 R500). -/
def loopInt (s : State) (n : Nat) : Rat :=
  if stMode (stepNow s n) = 4 ∧ 0 < ionNow s n * ionNow s n * rhNow s n then pIntNext s n (setNow s n - tempOf s n (rhNow s n))
  else (htrOf s n).pInt

/-- The duty asked for, before the bound; the last one stays where none is finite. -/
def loopDuty (s : State) (n : Nat) : Nat := (dutyWanted s n (loopInt s n)).getD (htrOf s n).duty

/-- The heater after a computation that asks for a duty. -/
def loopedHeater (s : State) (n : Nat) (h : Heater) : Heater :=
  { h with pInt := loopInt s n, used := h.used || h.meas.isSome, next := min (loopDuty s n) (dutyBound s n),
           boundNext := decide (dutyBound s n < loopDuty s n) }

theorem heaterLoop_drives (g : StepGoes s n) (hm : stMode (stepNow s n) ≠ 1) :
    heaterLoop s n = modHtr s n (loopedHeater s n) := by
  simp only [heaterLoop, g.ready, Option.isNone_iff_eq_none, g.runs, hm, if_false, Bool.false_eq_true, decide_eq_true_eq]
  rfl

/-- A CP step off its ramp asks for the duty that brings its power (11 R499, R506). -/
theorem loopDuty_power (hm : stMode (stepNow s n) = 2) (hr : stRamp (stepNow s n) = false)
    (hg : 0 < ionNow s n * ionNow s n * rhNow s n) :
    loopDuty s n = min 2048 (roundAway (2048 * ((stSet (stepNow s n) : Rat) / 10000) / (ionNow s n * ionNow s n * rhNow s n))).toNat := by
  have hset : setNow s n = (stSet (stepNow s n) : Rat) / 10000 := by simp [setNow, hm, hr]
  simp [loopDuty, dutyWanted, not_le.mpr hg, hm, hset]

end

/-- What one computation leaves, in each mode but OFF of a step that goes on. -/
theorem heaterLoop_goes {s : State} {n : Nat} (hn : n < 4) {p : Nat} (hp : (htrOf s n).prof = some p)
    (hd : (htrOf s n).done < stDur (profStep s p (htrOf s n).step)) (hm : 2 ≤ stMode (profStep s p (htrOf s n).step)) :
    heaterLoop s n = { s with htr := (heaterLoop s n).htr } ∧ htrOf (heaterLoop s n) n = loopedHeater s n (htrOf s n) := by
  rw [← stepNow_prof hp] at hd hm
  rw [heaterLoop_drives ⟨by simp [hp], by omega, hd⟩ (by omega)]
  exact ⟨rfl, htrOf_modHtr_same s hn _⟩

end Sys2Proof.Machine
end

section
/-! SUPPORT. The measurement of a heater's superframe (11 R489–R492, R513). -/

namespace Sys2Proof.Machine

/-! ### What an event of HTR_OPEN or HTR_SHORT leaves alone -/

/-- From `s` to `t` the time and every heater's newest measurement stand. -/
structure SameMeas (s t : State) : Prop where
  time : t.t = s.t
  meas : ∀ n, (htrOf t n).meas = (htrOf s n).meas

theorem SameMeas.refl (s : State) : SameMeas s s := ⟨rfl, fun _ => rfl⟩

theorem SameMeas.trans {s x t : State} (h : SameMeas s x) (k : SameMeas x t) : SameMeas s t :=
  ⟨k.time.trans h.time, fun n => (k.meas n).trans (h.meas n)⟩

theorem SameMeas.ite {s x y : State} {c : Prop} [Decidable c] (hx : SameMeas s x) (hy : SameMeas s y) :
    SameMeas s (if c then x else y) := by
  split
  · exact hx
  · exact hy

theorem SameMeas.of_htr {s t : State} (ht : t.t = s.t) (hh : t.htr = s.htr) : SameMeas s t :=
  ⟨ht, fun n => congrArg Heater.meas (htrOf_congr hh n)⟩

/-- The fault and the abort of a heater are no part of its measurement. -/
theorem htrFaultOne_sameMeas (s : State) (n : Nat) : SameMeas s (htrFaultOne s n) := by
  refine ⟨rfl, fun m => ?_⟩
  unfold htrOf htrFaultOne
  rw [modHtr_htr]
  by_cases h : n = m
  · subst h
    by_cases hn : n < 4
    · rw [vget_vmod_same _ _ _ _ hn]
    · simp [vmod, hn]
  · rw [vget_vmod_other _ _ _ _ _ h]

theorem htrFault_sameMeas (s : State) (open_ : Bool) : SameMeas s (htrFault s open_) := by
  unfold htrFault forEach
  generalize List.range 4 = ns
  induction ns generalizing s with
  | nil => exact .refl s
  | cons n ns ih => exact .trans (.ite (htrFaultOne_sameMeas s n) (.refl s)) (ih _)

theorem tallyEvent_sameMeas (s : State) {i : Nat} (hi : ∀ x, SameMeas x (lastingAction x i)) : SameMeas s (tallyEvent s i) := by
  have hlatch (x : State) : SameMeas x (tallyLatch x i) := .of_htr (by simp [tallyLatch]) (by simp [tallyLatch])
  have hadd : SameMeas s (tallyAdd s i) := .of_htr rfl rfl
  exact hadd.trans (.ite (.ite (.refl _) ((hlatch _).trans (hi _))) (.refl _))

theorem htrEvent_sameMeas (s : State) (n : Nat) {i : Nat} (hi : ∀ x, SameMeas x (lastingAction x i)) : SameMeas s (htrEvent s n i) :=
  .ite ((tallyEvent_sameMeas s hi).trans (htrFaultOne_sameMeas _ n)) (tallyEvent_sameMeas s hi)

/-- A valid measurement is kept, whatever the conditions it shows bring. -/
theorem measTake_keepsMeas (s : State) {n : Nat} (hn : n < 4) (m : Meas) :
    (measTake s n m).t = s.t ∧ (htrOf (measTake s n m) n).meas = some m := by
  unfold measTake
  extract_lets rh op sh s1 span s2 s3
  have h1 : (htrOf s1 n).meas = some m := congrArg Heater.meas (htrOf_modHtr_same s hn _)
  have h2 : SameMeas s1 s2 := .ite (.of_htr rfl rfl) (.refl s1)
  have h3 : SameMeas s1 s3 := .ite (h2.trans (htrEvent_sameMeas s2 n fun x => htrFault_sameMeas x true)) h2
  have hend : SameMeas s1 (if sh then htrEvent s3 n 13 else s3) :=
    .ite (h3.trans (htrEvent_sameMeas s3 n fun x => htrFault_sameMeas x false)) h3
  obtain ⟨ht, hm⟩ : SameMeas s1 (if !htrRunning s n then s1 else if sh then htrEvent s3 n 13 else s3) := .ite (.refl s1) hend
  exact ⟨ht, (hm n).trans h1⟩

/-! ### The sample (11 R492) -/

/-- Quality 7 says that the measurement is not valid; every quality has three bits. -/
theorem heaterSample_qual (s : State) (n : Nat) (h : Heater) (valid : Bool) :
    (heaterSample s n h valid).qual < 8 ∧ ((heaterSample s n h valid).qual = 7 ↔ valid = false) := by
  cases valid with
  | false => exact ⟨show 7 < 8 by decide, fun _ => rfl, fun _ => rfl⟩
  | true =>
    simp only [heaterSample, Bool.not_true, Bool.false_eq_true, if_false]
    split_ifs <;> decide

/-- The state the measurement leaves before its sample is formed: a heater that has just started gives no measurement. -/
def measured (s : State) (n : Nat) : State :=
  let h := htrOf s n
  if h.doneOld then s
  else if measValid h then measTake s n (measOf h)
  else modHtr s n (fun h => { h with lead := h.lead.map (fun r => { r with bad := r.bad || 4 ≤ r.idx }) })

/-- The sample of the superframe just ended. -/
def measSample (s : State) (n : Nat) : Sample := heaterSample (measured s n) n (htrOf s n) (measValid (htrOf s n))

/-- The measurement is done, and its sample is the heater's last. -/
def measDone (s : State) (n : Nat) : State := modHtr (measured s n) n (fun h => { h with doneOn := false, last := wordOf (measSample s n) })

theorem execHeaterMeasurement_acts {s : State} {n : Fin 4} (hp : s.t.p = 2) (hd : (htrOf s n).doneOn = true) (hu : 514 ≤ s.t.up) :
    execHeaterMeasurement n s = .next (passSample (measDone s n) { prim := measSample s n, blk := none, tone := false } none) := by
  have hgo : ¬(s.t.p ≠ 2 ∨ (!(htrOf s n).doneOn) = true ∨ s.t.up < 514) := by simp [hp, hd, hu]
  exact congrArg Host.Outcome.next (if_neg hgo)

theorem measured_time (s : State) {n : Nat} (hn : n < 4) : (measured s n).t = s.t := by
  unfold measured
  dsimp only
  split_ifs
  · rfl
  · exact (measTake_keepsMeas s hn _).1
  · rfl

theorem measSample_tag {s : State} {n : Nat} (hn : n < 4) (hp : s.t.p = 2) : (measSample s n).tag = s.t.up - 3 := by
  show (measured s n).t.up - (measured s n).t.p - 1 = _
  rw [measured_time s hn, hp, Nat.sub_sub]

theorem measDone_heater (s : State) {n : Nat} (hn : n < 4) :
    htrOf (measDone s n) n = { htrOf (measured s n) n with doneOn := false, last := wordOf (measSample s n) } :=
  htrOf_modHtr_same _ hn _

theorem measured_valid {s : State} {n : Nat} (hn : n < 4) (hv : measValid (htrOf s n) = true) (ho : (htrOf s n).doneOld = false) :
    (htrOf (measured s n) n).meas = some (measOf (htrOf s n)) := by
  have htake : measured s n = measTake s n (measOf (htrOf s n)) := by simp [measured, hv, ho]
  rw [htake]
  exact (measTake_keepsMeas s hn _).2

end Sys2Proof.Machine
end

section
/-! SUPPORT. LEADCAL (11 R495–R498), the abort of a heater (11 R510), and the bridge loop (10 R465). -/

namespace Sys2Proof.Machine

/-! ### LEADCAL -/

/-- Bit 1 of HTRCTL is clear in an A superframe alone: L2, L4 and so on (11 R496). -/
theorem execLeadcalSwitch_acts {s : State} {n : Fin 4} {r : LeadRun} (hr : (htrOf s n).lead = some r) (hp : s.t.p = 480)
    (hm : s.twin.mode ≠ 1) (hl : r.idx < 34) :
    execLeadcalSwitch n s = .next (regWrite s (0x10 + n) (htrWord s n (!(decide (2 ≤ r.idx) && r.idx % 2 == 0)))) := by
  simp [execLeadcalSwitch, hr, hp, hm, Nat.not_le.mpr hl]

/-- R_drv held within the limits of RLEAD. -/
def leadLimited (q : Rat) : Rat := if q < 0 then 0 else if 20 < q then 20 else q

/-- RLEAD of heater `n` written, with its entry where the value is a new one. -/
def leadWritten (s : State) (n : Nat) (r : LeadRun) : State :=
  let w := f32Of (leadLimited ((r.sumA - r.sumB) / 16))
  let id := idHtr n 3
  let s1 := modHtr (setParam s id w) n (fun h => { h with leadSrc := true })
  if sameVal id (param s id) w then s1 else logE s1 r.origin 0x0010 id (param s id) w

theorem leadWritten_htr (s : State) (n : Nat) (r : LeadRun) :
    (leadWritten s n r).htr = vmod s.htr n (fun h => { h with leadSrc := true }) := by
  simp [leadWritten, apply_ite State.htr]

theorem leadWritten_cfg (s : State) (n : Nat) (r : LeadRun) :
    (leadWritten s n r).cfg = (setParam s (idHtr n 3) (f32Of (leadLimited ((r.sumA - r.sumB) / 16)))).cfg := by
  simp [leadWritten, apply_ite State.cfg]

/-- The run of heater `n` ends with its task, which gives this result. -/
def leadEnded (s : State) (n : Nat) (result : List Byte) : State := htrOff (taskEnd s (htrOf s n).task 0 0 result) n orgUnit

theorem leadEnded_cfg (s : State) (n : Nat) (result : List Byte) : (leadEnded s n result).cfg = s.cfg :=
  (htrOff_cfg ..).trans (taskEnd_cfg ..)

theorem leadEnded_heater {s : State} {n : Nat} (hn : n < 4) (hr : htrRunning s n = true) (result : List Byte) :
    htrOf (leadEnded s n result) n = idleHeater (htrOf s n) := by
  rw [leadEnded, htrOff_idles hn ((htrRunning_taskEnd ..).trans hr), htrOf_congr (taskEnd_htr ..)]

section
variable {s : State} {n : Fin 4} {r : LeadRun} (hr : (htrOf s n).lead = some r) (hl : 35 ≤ r.idx) (hp : s.t.p = 2)
include hr hl hp

theorem execLeadcalDone_good (hb : r.bad = false) (hg : r.good = 32) : execLeadcalDone n s =
    .next (leadEnded (leadWritten s n r) n
      ([0] ++ beBytes 4 (f32OfOpt (if r.noRs then none else some ((r.sumA - r.sumB) / 16))).toNat)) := by
  simp only [execLeadcalDone, hr, hp, hb, hg, Nat.not_lt.mpr hl]
  rfl

theorem execLeadcalDone_fails (hb : r.bad = true ∨ r.good ≠ 32) : execLeadcalDone n s = .next (leadEnded s n [1]) := by
  simp only [execLeadcalDone, hr, hp, if_pos hb, Nat.not_lt.mpr hl]
  rfl

end

theorem leadWritten_heater (s : State) {n : Nat} (hn : n < 4) (r : LeadRun) :
    htrOf (leadWritten s n r) n = { htrOf s n with leadSrc := true } := by
  rw [htrOf, leadWritten_htr]
  exact vget_vmod_same _ _ _ _ hn

theorem leadWritten_running {s : State} {n : Nat} (hn : n < 4) {r : LeadRun} (hr : (htrOf s n).lead = some r) :
    htrRunning (leadWritten s n r) n = true :=
  htrRunning_of_lead (r := r) (by rw [leadWritten_heater s hn]; exact hr)

/-- A LEADCAL that ends well writes RLEAD of its heater, and no other parameter. -/
theorem leadEnded_params (s : State) (n : Nat) (r : LeadRun) (result : List Byte) :
    param (leadEnded (leadWritten s n r) n result) (idHtr n 3) = f32Of (leadLimited ((r.sumA - r.sumB) / 16)) ∧
      ∀ id : Nat, id ≠ idHtr n 3 → param (leadEnded (leadWritten s n r) n result) id = param s id := by
  have hparam := param_congr ((leadEnded_cfg (leadWritten s n r) n result).trans (leadWritten_cfg s n r))
  exact ⟨(hparam _).trans (param_setParam_same ..), fun id hid => (hparam id).trans (param_setParam_other s hid _)⟩

/-! ### The abort (11 R510) -/

/-- The entry of an abort: the task of heater `n` is refused. -/
def abortLogged (s : State) (n : Nat) (reason : Byte) : State :=
  let opc : Word := match taskOf s (htrOf s n).task with
    | some t => t.opc.setWidth 32
    | none => 0
  logE s orgUnit 0x0061 (htrOf s n).task opc (reason.setWidth 32)

/-- The entry written, and the run ended. -/
def heaterAborted (s : State) (n : Nat) (reason : Byte) : State := htrEnd (abortLogged s n reason) n 3 reason.toNat orgUnit

/-- At p = 0 the abort due ends the run, and is due no more. -/
theorem execProfileAbort_acts {s : State} {n : Fin 4} {reason : Byte} (ha : (htrOf s n).abort = some reason)
    (hr : htrRunning s n = true) (hp : s.t.p = 0) : execProfileAbort n s =
    .next (modHtr (heaterAborted s n reason) n
      (fun h => { h with abort := none, aborted := h.aborted || !h.fault || reason != 0 })) := by
  simp only [execProfileAbort, ha, hr, hp]
  rfl

theorem execProfileAbort_waits {s : State} {n : Fin 4} (h : (htrOf s n).abort = none ∨ htrRunning s n = true ∧ s.t.p ≠ 0) :
    execProfileAbort n s = .next s := by
  unfold execProfileAbort
  rcases h with h | ⟨hr, hp⟩
  · simp [h]
  · cases (htrOf s n).abort <;> simp [hr, hp]

theorem heaterAborted_drive {s : State} {n : Nat} (hn : n < 4) (hr : htrRunning s n = true) (reason : Byte) :
    vget (heaterAborted s n reason).seam.drive n 0 = 0 := by
  have hlog : htrRunning (abortLogged s n reason) n = true := hr
  rw [heaterAborted, htrEnd_running hlog]
  exact htrOff_drive hn ((htrRunning_taskEnd ..).trans hlog) _

theorem heaterAborted_stops (s : State) {n : Nat} (hn : n < 4) (reason : Byte) : htrRunning (heaterAborted s n reason) n = false :=
  htrRunning_htrEnd_same hn ..

theorem heaterAborted_cfg (s : State) (n : Nat) (reason : Byte) : (heaterAborted s n reason).cfg = s.cfg :=
  htrEnd_cfg ..

/-! ### The bridge loop (10 R465) -/

theorem brg_getElem (s : State) (b : Fin 2) : s.brg[b] = brgOf s b := by
  rw [brgOf, vget, dif_pos b.isLt]
  rfl

/-- The code of the coming superframe: the target in millivolts up to the bound code, and 0 below 500. -/
def bridgeCode (s : State) (b : Nat) : Nat :=
  let c := min (roundAway (nextTarget s b * 1000)).toNat (codeBound s b)
  if c < 500 then 0 else c

theorem bridgeCode_bounds (s : State) (b : Nat) : (bridgeCode s b = 0 ∨ 500 ≤ bridgeCode s b) ∧
    bridgeCode s b ≤ min (roundAway (nextTarget s b * 1000)).toNat (codeBound s b) := by
  unfold bridgeCode
  dsimp only
  split
  · exact ⟨.inl rfl, Nat.zero_le _⟩
  · next h => exact ⟨.inr (Nat.not_lt.mp h), le_rfl⟩

theorem bridgeLoop_asks {s : State} {b : Nat} (hr : (brgOf s b).running = true) (ht : (brgOf s b).task ≠ 0) :
    bridgeLoop s b = modBrg s b (fun g => { g with
      ask := some (bridgeCode s b, (vH s * (bridgeCode s b : Nat) / pVal s (idBrg b 2)).ceil.toNat) }) := by
  simp only [bridgeLoop, hr, ht, Bool.not_true, Bool.false_or, beq_iff_eq, if_false]
  rfl

/-! ### The events -/

/-- Settles O55: each row acts as its own lemma says; an event of a heater's conditions leaves its measurement, and a run's end the
parameters. -/
theorem heaterAndBridgeEvents : Obligations.HeaterAndBridgeEvents := by
  intro s
  simp only [htr_getElem, brg_getElem]
  refine ⟨fun n p hp hd => ⟨fun hm => ?_, fun hm hr hg => ?_⟩, fun n p hp hd h2 _ => ?_,
    fun n hp he => congrArg _ (heaterLoop_ends hp he), fun n hp => congrArg _ (heaterLoop_idle hp), fun n hp hd hu => ?_,
    fun n r hr => ⟨fun hp hm hl => ?_, fun hl hp => ⟨fun hb hg => ?_, fun hb => ?_⟩⟩, fun n reason ha hr hp => ?_,
    fun n h => execProfileAbort_waits h, fun b hr ht => ?_⟩
  · rw [← stepNow_prof hp] at hd hm
    have hloop := heaterLoop_off ⟨by simp [hp], by omega, hd⟩ hm
    refine ⟨_, congrArg Host.Outcome.next hloop, ?_⟩
    rw [htrOf_modHtr_same s n.isLt]
    exact ⟨rfl, rfl, rfl⟩
  · obtain ⟨hs, hh⟩ := heaterLoop_goes n.isLt hp hd (by omega)
    refine ⟨_, rfl, hs, ?_⟩
    rw [← stepNow_prof hp] at hm hr ⊢
    rw [hh, ← loopDuty_power hm hr hg]
    exact ⟨rfl, rfl⟩
  · obtain ⟨hs, hh⟩ := heaterLoop_goes n.isLt hp hd h2
    refine ⟨_, rfl, hs, ?_⟩
    rw [hh, ← stepNow_prof hp]
    exact ⟨rfl, rfl, rfl⟩
  · refine ⟨_, _, execHeaterMeasurement_acts hp hd hu, rfl, measSample_tag n.isLt hp, rfl, ?_⟩
    obtain ⟨hq, h7⟩ := heaterSample_qual (measured s n) n (htrOf s n) (measValid (htrOf s n))
    rw [measDone_heater s n.isLt]
    exact ⟨hq, rfl, rfl, h7, measured_valid n.isLt⟩
  · exact ⟨_, execLeadcalSwitch_acts hr hp hm hl, rfl, rfl⟩
  · refine ⟨_, execLeadcalDone_good hr hl hp hb hg, ?_⟩
    rw [leadEnded_heater n.isLt (leadWritten_running n.isLt hr), leadWritten_heater s n.isLt]
    exact ⟨rfl, rfl, leadEnded_params s n r _⟩
  · refine ⟨_, execLeadcalDone_fails hr hl hp hb, ?_, leadEnded_cfg ..⟩
    rw [leadEnded_heater n.isLt (htrRunning_of_lead hr)]
    rfl
  · refine ⟨_, execProfileAbort_acts ha hr hp, ?_, ?_, heaterAborted_drive n.isLt hr reason, heaterAborted_cfg s n reason⟩
    · have hstop := heaterAborted_stops s n.isLt reason
      simpa only [htrRunning, htrOf_modHtr_same _ n.isLt] using hstop
    · rw [htrOf_modHtr_same _ n.isLt]
  · refine ⟨_, bridgeCode s b, congrArg Host.Outcome.next (bridgeLoop_asks hr ht), rfl, ?_, bridgeCode_bounds s b⟩
    rw [brgOf, modBrg_brg, vget_vmod_same _ _ _ _ b.isLt]

end Sys2Proof.Machine
end

section
/-! SUPPORT. Channel masks in payloads (06 R942), steps over numbers, and chains one by one. -/

namespace Sys2Proof.Machine

/-! ### Masks (06 R942) -/

theorem maskBytes_length (m : Mask) : (maskBytes m).length = if m.wide then 8 else 4 := by
  unfold maskBytes
  split <;> exact beBytes_length ..

/-- The form of a mask is told by the length of its payload. -/
theorem maskLen_maskBytes (m : Mask) (l : List Byte) : maskLen (maskBytes m ++ l) l.length = (maskBytes m).length := by
  have hlen := maskBytes_length m
  unfold maskLen
  rw [List.length_append]
  split at hlen <;> rw [hlen] <;> simp

/-- A mask in front of a payload reads back. -/
theorem plMask_maskBytes (m : Mask) (l : List Byte) : plMask (maskBytes m ++ l) l.length = maskVal m := by
  rw [plMask, maskLen_maskBytes]
  unfold maskBytes maskVal
  split
  · rw [beBytes_length, plField_front]
    exact Nat.mod_eq_of_lt m.bits.isLt
  · rw [beBytes_length, plField_front]
    rfl

/-- The field behind a mask reads back. -/
theorem plField_maskBytes (m : Mask) (k x : Nat) : plField (maskBytes m ++ beBytes k x) (maskBytes m).length k = x % 256 ^ k := by
  rw [← plField_last k x]
  simp [plField]

/-- The byte behind a mask reads back. -/
theorem plByte_maskBytes (m : Mask) (b : Byte) : plByte (maskBytes m ++ [b]) (maskBytes m).length = b.toNat := by
  simp [plByte]

theorem plMask_alone (m : Mask) : plMask (maskBytes m) 0 = maskVal m := by
  simpa using plMask_maskBytes m []

/-- A mask of channels 0–23 is one that a single unit takes. -/
theorem maskOk_of_lt {pl : List Byte} {rest v : Nat} (h : plMask pl rest = v) (hv : v < 2 ^ 24) : maskOk pl rest = true := by
  simp only [maskOk, h, decide_eq_true_eq]
  omega

/-- The opcodes whose payload is a mask. -/
theorem lenOk_mask {opc : Nat} (ho : opc = 0x14 ∨ opc = 0x15 ∨ opc = 0x17) (m : Mask) : lenOk opc (maskBytes m) = some true := by
  have hlens : lenOk opc (maskBytes m) = some ([4, 8].contains (maskBytes m).length) := by
    rcases ho with rfl | rfl | rfl <;> rfl
  rw [hlens, maskBytes_length]
  split <;> rfl

theorem lt_of_mem_maskList {n m c : Nat} (h : c ∈ maskList n m) : c < n :=
  List.mem_range.mp (List.mem_filter.mp h).1

/-! ### Steps over numbers -/

section
variable {f : State → Nat → State} {ns : List Nat} {s : State}

/-- What the step of one number brings about and every step keeps holds after a run over that number. -/
theorem forEach_reaches {P : State → Prop} {c : Nat} (hc : ∀ s, P (f s c)) (hf : ∀ s i, P s → P (f s i)) (h : c ∈ ns ∨ P s) :
    P (forEach s ns f) := by
  unfold forEach
  induction ns generalizing s with
  | nil => simpa using h
  | cons i ns ih =>
    refine ih ?_
    rcases h with h | h
    · rcases List.mem_cons.mp h with rfl | h
      · exact .inr (hc s)
      · exact .inl h
    · exact .inr (hf s i h)

/-- What the steps of the numbers of a run leave alone, the run leaves alone. -/
theorem forEach_same_on {α : Type} (part : State → α) (hf : ∀ s, ∀ i ∈ ns, part (f s i) = part s) :
    part (forEach s ns f) = part s := by
  unfold forEach
  induction ns generalizing s with
  | nil => rfl
  | cons i ns ih =>
    exact (ih fun s j hj => hf s j (List.mem_cons_of_mem _ hj)).trans (hf s i List.mem_cons_self)

/-- A number named once takes its step once, from what the other steps leave alone and to what they leave alone. -/
theorem forEach_once {α β : Type} (before : State → α) (after : State → β) {c : Nat} {b : β}
    (hbefore : ∀ s i, i ≠ c → before (f s i) = before s)
    (hafter : ∀ s i, i ≠ c → after (f s i) = after s) (hc : ∀ t, before t = before s → after (f t c) = b)
    (hn : ns.Nodup) (hm : c ∈ ns) : after (forEach s ns f) = b := by
  obtain ⟨l, r, rfl⟩ := List.append_of_mem hm
  have hl : ∀ i ∈ l, i ≠ c := by
    rintro i hi rfl
    exact List.disjoint_of_nodup_append hn hi List.mem_cons_self
  have hr : ∀ i ∈ r, i ≠ c := by
    rintro i hi rfl
    exact (List.nodup_cons.mp (List.nodup_append.mp hn).2.1).1 hi
  have hrun : forEach s (l ++ c :: r) f = forEach (f (forEach s l f) c) r f := List.foldl_append
  rw [hrun, forEach_same_on after fun s i hi => hafter s i (hr i hi)]
  exact hc _ (forEach_same_on before fun s i hi => hbefore s i (hl i hi))

end

/-! ### Chains one by one -/

theorem chain_getElem (s : State) (c : Fin 14) : s.chain[c] = chainOf s c := by simp [chainOf, vget]

theorem chainOf_modChain_same (s : State) {c : Nat} (hc : c < 14) (f : Chain → Chain) : chainOf (modChain s c f) c = f (chainOf s c) :=
  vget_vmod_same _ _ _ _ hc

theorem chainOf_modChain_other (s : State) {c d : Nat} (h : c ≠ d) (f : Chain → Chain) : chainOf (modChain s c f) d = chainOf s d :=
  vget_vmod_other _ _ _ _ _ h

/-- What a change of a chain leaves of it. -/
theorem chainOf_modChain_part {α : Type} (part : Chain → α) {f : Chain → Chain} (hf : ∀ ch, part (f ch) = part ch) (s : State)
    (c d : Nat) : part (chainOf (modChain s c f) d) = part (chainOf s d) := by
  by_cases h : c = d
  · subst h
    by_cases hc : c < 14
    · rw [chainOf_modChain_same s hc, hf]
    · simp [chainOf, vget, hc]
  · rw [chainOf_modChain_other s h]

theorem chainOf_congr {s t : State} (h : t.chain = s.chain) (c : Nat) : chainOf t c = chainOf s c := by rw [chainOf, chainOf, h]

end Sys2Proof.Machine
end

section
/-! SUPPORT. CHSTART, CHSTOP and SNAP (12 R557, R558, R565). -/

namespace Sys2Proof.Machine

/-! ### What a start leaves of the other channels' -/

/-- Channel `d` is started. -/
abbrev startedAt (d : Nat) (s : State) : Bool := (chainOf s d).started

/-- A change of a chain that starts and stops nothing. -/
theorem startedAt_modChain {f : Chain → Chain} (hf : ∀ ch, (f ch).started = ch.started) (s : State) (c d : Nat) :
    startedAt d (modChain s c f) = startedAt d s :=
  chainOf_modChain_part Chain.started hf s c d

theorem startedAt_settleFrom (s : State) (c ref d : Nat) : startedAt d (settleFrom s c ref) = startedAt d s :=
  startedAt_modChain (fun _ => by rfl) _ _ _

theorem startedAt_dcForget (s : State) (c d : Nat) : startedAt d (dcForget s c) = startedAt d s :=
  startedAt_modChain (fun ch => by split <;> rfl) _ _ _

theorem startedAt_bridgeVoid (s : State) (b d : Nat) : startedAt d (bridgeVoid s b) = startedAt d s :=
  startedAt_modChain (fun _ => by rfl) _ _ _

theorem trackersReset_chain (s : State) (c : Nat) : (trackersReset s c).chain = s.chain :=
  forEach_same State.chain (fun s i => by split <;> rfl) _ s

theorem zSinceStart_chain (s : State) (c : Nat) : (zSinceStart s c).chain = s.chain := by
  unfold zSinceStart
  split <;> rfl

theorem startedAt_frontStart (s : State) (n d : Nat) : startedAt d (frontStart s n) = startedAt d s := by
  unfold frontStart
  extract_lets rg a w
  split
  · exact startedAt_modChain (fun _ => by rfl) _ _ _
  · rfl

/-- After its chain is cleared and started, what else a start does neither starts nor stops a channel. -/
theorem startedAt_chanStart (s : State) (c : Nat) (o : BitVec 16) (d : Nat) :
    startedAt d (chanStart s c o) = startedAt d (modChain (chainFresh s c) c (fun ch => { ch with started := true })) := by
  unfold chanStart
  extract_lets u s1 s2 s3 b n t1 t2 t3 t4 s4
  have h3 : startedAt d s3 = startedAt d s1 := by
    have hchain : s3.chain = (dcForget s2 c).chain := (zSinceStart_chain ..).trans (trackersReset_chain ..)
    exact (congrArg Chain.started (chainOf_congr hchain d)).trans (startedAt_dcForget s2 c d)
  have h4 : startedAt d s4 = startedAt d s3 := by
    unfold s4
    split
    · exact startedAt_frontStart ..
    · have hchain : t3.chain = s3.chain := by simp only [t3, t2, t1, regWrite_chain, modBrg_chain, taskNew_chain]
      have ht : startedAt d t4 = startedAt d s3 :=
        (startedAt_modChain (fun _ => by rfl) t3 c d).trans (congrArg Chain.started (chainOf_congr hchain d))
      rw [startedAt_settleFrom]
      split
      · exact (startedAt_bridgeVoid ..).trans ht
      · exact ht
  clear_value s4
  split
  · exact (startedAt_modChain (fun _ => by rfl) _ _ _).trans (h4.trans h3)
  · exact h4.trans h3

/-- A start starts its channel. -/
theorem chanStart_starts (s : State) {c : Nat} (hc : c < 14) (o : BitVec 16) : startedAt c (chanStart s c o) = true := by
  rw [startedAt_chanStart, startedAt, chainOf_modChain_same _ hc]

/-- A start stops none. -/
theorem chanStart_keeps_started {s : State} {d : Nat} (hd : d < 14) (h : startedAt d s = true) (c : Nat) (o : BitVec 16) :
    startedAt d (chanStart s c o) = true := by
  by_cases hc : c = d
  · subst hc
    exact chanStart_starts s hd o
  · rw [startedAt_chanStart, startedAt, chainOf_modChain_other _ hc, chainFresh, chainOf_modChain_other _ hc]
    exact h

/-! ### CHSTART and CHSTOP -/

/-- The named channels 0–13 that are stopped. -/
abbrev freshChans (s : State) (m : Mask) : List Nat := (maskList 14 (maskVal m)).filter (fun c => !(chainOf s c).started)

/-- Channels started by command, one after the other. -/
def chansStarted (s : State) (ns : List Nat) (o : BitVec 16) : State := forEach s ns (fun t c => chanStart t c o)

/-- Channels stopped by command, one after the other. -/
def chansStopped (s : State) (ns : List Nat) (o : BitVec 16) : State := forEach s ns (fun t c => chanCommandStop t c o)

theorem chansStarted_started {s : State} {ns : List Nat} {c : Nat} (hc : c < 14) (o : BitVec 16) (h : c ∈ ns ∨ startedAt c s = true) :
    startedAt c (chansStarted s ns o) = true :=
  forEach_reaches (P := fun s => startedAt c s = true) (fun s => chanStart_starts s hc o)
    (fun _ i hs => chanStart_keeps_started hc hs i o) h

theorem row_chstart {s : State} {h : Hdr} (c : CanChange s h operator) (hrun : s.u.st = .run) {m : Mask} (hm : maskVal m < 2 ^ 24)
    (hf : ∀ c ∈ freshChans s m, chainDead s c = false ∧ inSnap s c = false)
    (hr : s.sched.tasks.length + ((freshChans s m).filter (12 ≤ ·)).length ≤ 16) :
    rowRun s h 0x14 (maskBytes m) = answered (chansStarted s (freshChans s m) (orgPkt h.src)) h stDone [] := by
  have hop : opChstart s (ctxOf s h) (maskBytes m) = opDone (chansStarted s (freshChans s m) (orgPkt h.src)) [] := by
    unfold opChstart
    rw [plMask_alone, maskOk_of_lt (plMask_alone m) hm]
    refine guarded_pass _ _ _ ?_
    simp only [List.all_cons, List.all_nil, Bool.and_true, Bool.and_eq_true, List.all_eq_true, decide_eq_true_eq, Bool.true_and]
    exact ⟨fun c hc => by simp [(hf c hc).1], hm, fun c hc => by simp [(hf c hc).2], decide_eq_true hr⟩
  exact row_answered c 0x14 _ (by decide) rfl (lenOk_mask (.inl rfl) m) (by decide) (by decide) (by decide) rfl rfl
    (by rw [hrun]; rfl) (by decide) (by decide) hop

theorem row_chstop {s : State} {h : Hdr} (c : CanChange s h operator) {m : Mask} (hm : maskVal m < 2 ^ 24) :
    rowRun s h 0x15 (maskBytes m) = answered (chansStopped s (maskList 14 (maskVal m)) (orgPkt h.src)) h stDone [] := by
  have hop : opChstop s (ctxOf s h) (maskBytes m) = opDone (chansStopped s (maskList 14 (maskVal m)) (orgPkt h.src)) [] := by
    unfold opChstop
    rw [plMask_alone, maskOk_of_lt (plMask_alone m) hm]
    exact guarded_pass _ _ _ (by simpa using hm)
  exact row_answered c 0x15 _ (by decide) rfl (lenOk_mask (.inr (.inl rfl)) m) (by decide) (by decide) (by decide) rfl rfl
    (by cases s.u.st <;> rfl) (by decide) (by decide) hop

/-- Settles O25: each row passes its checks and runs over its channels; a channel named is started already, or is among those a start is
given, and no start stops another. -/
theorem channelsStartAndStop : Obligations.ChannelsStartAndStop := by
  intro s h m c hm
  refine ⟨fun hrun hf hr => ⟨_, congrArg _ (row_chstart c hrun hm hf hr), rfl, fun n hn => ?_⟩,
    _, congrArg _ (row_chstop c hm), rfl⟩
  refine chansStarted_started (lt_of_mem_maskList hn) _ ?_
  cases hs : startedAt n s
  · exact .inl (List.mem_filter.mpr ⟨hn, by simp [hs]⟩)
  · exact .inr rfl

/-! ### SNAP -/

/-- Settles O26: the checks of SNAP pass, so that its one task is made and each channel begins. -/
theorem snapIsATask : Obligations.SnapIsATask := by
  intro s h m c hrun hm hs hne hf ht
  refine congrArg Host.Outcome.next (row_answered c 0x17 _ (by decide) rfl (lenOk_mask (.inr (.inr rfl)) m) (by decide) (by decide)
    (by decide) rfl rfl (by rw [hrun]; rfl) (by decide) (st := stAccepted) (by decide) ?_)
  show opSnap s (ctxOf s h) (maskBytes m) = _
  unfold opSnap
  rw [plMask_alone, maskOk_of_lt (plMask_alone m) hm]
  refine guarded_pass _ _ _ ?_
  have hfree : (maskList 12 (maskVal m)).all (fun c => !filtRunning s c && !chainDead s c) = true :=
    List.all_eq_true.mpr fun c hc => by simp [hf c hc]
  have hroom : tasksFull s = false := by simpa [tasksFull] using ht
  simpa [maskChans, hs, hne, hfree, hroom] using hm

end Sys2Proof.Machine
end

section
/-! SUPPORT. SYNC (12 R551, R556): what a named reset leaves, and the chains it clears. -/

namespace Sys2Proof.Machine

/-- One chain at a SYNC: a single conversion or a started chain is cleared from tick `u` on. -/
def chainSynced (u : Nat) (s : State) (c : Nat) : State :=
  if (chainOf s c).isSnap || (chainOf s c).conv.isSome then chainDue s c u true
  else if (chainOf s c).started then
    modChain (chainDue s c u true) c (fun ch =>
      if ch.from_ = u then startAsSync u ch else { ch with settle := { ref := u, left := 0 } :: ch.settle })
  else s

theorem chainsClear_eq (s : State) (u : Nat) : chainsClear s u = forEach s (List.range 14) (chainSynced u) := rfl

theorem chainSynced_shape (u : Nat) (s : State) (c : Nat) : chainSynced u s c = { s with chain := (chainSynced u s c).chain } := by
  unfold chainSynced
  split
  · rfl
  · split <;> rfl

theorem chainOf_chainSynced_other (u : Nat) (s : State) {c d : Nat} (h : c ≠ d) : chainOf (chainSynced u s c) d = chainOf s d := by
  unfold chainSynced
  split
  · exact chainOf_modChain_other s h _
  · split
    · exact (chainOf_modChain_other _ h _).trans (chainOf_modChain_other s h _)
    · rfl

/-- A chain that runs is given the clearing, on the present grid. -/
theorem chainSynced_due {s : State} {c : Nat} (hc : c < 14) (u : Nat) (h : (chainOf s c).started = true ∨ (chainOf s c).isSnap = true) :
    (chainOf (chainSynced u s c) c).due = (chainOf s c).due ++ [(u, gridBase s c, true)] := by
  have hdue : (chainOf (chainDue s c u true) c).due = (chainOf s c).due ++ [(u, gridBase s c, true)] := by
    rw [chainDue, chainOf_modChain_same s hc]
  unfold chainSynced
  split
  · exact hdue
  · next hsnap =>
    have hs : (chainOf s c).started = true := h.resolve_right fun hs => hsnap (by simp [hs])
    rw [if_pos hs]
    exact (chainOf_modChain_part Chain.due (fun ch => by split <;> rfl) _ c c).trans hdue

theorem gridBase_chainSynced (u : Nat) (s : State) (i c : Nat) : gridBase (chainSynced u s i) c = gridBase s c := by
  rw [chainSynced_shape]
  rfl

/-- Chains cleared one after the other: nothing but chains changes. -/
theorem forEach_chainSynced_shape (u : Nat) (ns : List Nat) (s : State) :
    forEach s ns (chainSynced u) = { s with chain := (forEach s ns (chainSynced u)).chain } := by
  have h : { forEach s ns (chainSynced u) with chain := s.chain } = s :=
    forEach_same (fun t => { t with chain := s.chain })
      (fun t i => congrArg (fun x : State => { x with chain := s.chain }) (chainSynced_shape u t i)) ns s
  exact congrArg (fun x : State => { x with chain := (forEach s ns (chainSynced u)).chain }) h

theorem chainsClear_shape (s : State) (u : Nat) : chainsClear s u = { s with chain := (chainsClear s u).chain } := by
  rw [chainsClear_eq]
  exact forEach_chainSynced_shape u _ s

theorem chainsClear_due {s : State} {c : Nat} (hc : c < 14) (u : Nat)
    (h : (chainOf s c).started = true ∨ (chainOf s c).isSnap = true) :
    (chainOf (chainsClear s u) c).due = (chainOf s c).due ++ [(u, gridBase s c, true)] := by
  rw [chainsClear_eq]
  refine forEach_once (fun s => (chainOf s c, gridBase s c)) (fun s => (chainOf s c).due)
    (fun s i hi => ?_) (fun s i hi => ?_) (fun t ht => ?_) List.nodup_range (List.mem_range.mpr hc)
  · rw [chainOf_chainSynced_other u s hi, gridBase_chainSynced]
  · rw [chainOf_chainSynced_other u s hi]
  · obtain ⟨hchain, hbase⟩ := Prod.mk.inj ht
    rw [← hchain] at h
    rw [chainSynced_due hc u h, hchain, hbase]

/-- A SYNC at this tick: it is the reference tick, and chains and the check under way are all that changes beside. -/
theorem syncReset_shape (s : State) :
    syncReset s = { s with ty := s.t.up, chain := (chainsClear { s with ty := s.t.up } s.t.up).chain, z := (syncReset s).z } := by
  have h := chainsClear_shape { s with ty := s.t.up } s.t.up
  unfold syncReset
  generalize chainsClear { s with ty := s.t.up } s.t.up = y at h ⊢
  exact congrArg (fun x : State => { x with z := (zSpoil y).z }) h

/-- The resets due by now take place as one, with one entry. -/
theorem syncRun_due {s : State} (h : ∃ d ∈ s.syncs, d.due s = true) :
    ∃ o, syncRun s = logE (syncReset { s with syncs := s.syncs.filter (fun d => !d.due s) }) o 0x0045 0 0 (tick32 s) := by
  obtain ⟨d, hd, hdue⟩ := h
  have hne : s.syncs.filter (fun d => d.due s) ≠ [] := List.ne_nil_of_mem (List.mem_filter.mpr ⟨hd, hdue⟩)
  unfold syncRun
  dsimp only
  split
  · next he => exact absurd he hne
  · exact ⟨_, rfl⟩

/-- What a named reset leaves: its tick is the reference tick, the resets due are gone, and every running chain is cleared from it. -/
structure Synced (s t : State) : Prop where
  tick   : t.ty = s.t.up
  syncs  : t.syncs = s.syncs.filter (fun d => !d.due s)
  config : t.cfg = s.cfg
  due    : ∀ c < 14, (chainOf s c).started = true ∨ (chainOf s c).isSnap = true →
    (chainOf t c).due = (chainOf s c).due ++ [(s.t.up, (s.t.up : Int) + (pNat s (idFilt c 6) : Int), true)]

theorem syncRun_synced {s : State} (h : ∃ d ∈ s.syncs, d.due s = true) : Synced s (syncRun s) := by
  obtain ⟨o, ho⟩ := syncRun_due h
  rw [ho]
  generalize hx : { s with syncs := s.syncs.filter (fun d => !d.due s) } = x
  have hreset := syncReset_shape x
  have hdue := fun c hc => @chainsClear_due { x with ty := x.t.up } c hc x.t.up
  generalize chainsClear { x with ty := x.t.up } x.t.up = y at hreset hdue
  rw [logE_shape, hreset]
  subst hx
  exact ⟨rfl, rfl, rfl, hdue⟩

theorem syncRun_none {s : State} (h : ∀ d ∈ s.syncs, d.due s = false) : syncRun s = s := by
  have he : s.syncs.filter (fun d => d.due s) = [] := List.filter_eq_nil_iff.mpr fun d hd => by simp [h d hd]
  unfold syncRun
  dsimp only
  split
  · rfl
  · next d ds hds => exact absurd (he.symm.trans hds) (by simp)

end Sys2Proof.Machine
end

section
/-! SUPPORT. STREAM, DCFREEZE and SYNCNOW (12 R555, R569, 15 R683). -/

namespace Sys2Proof.Machine

section
variable {s : State} {h : Hdr} (c : CanChange s h operator) (hrun : s.u.st = .run)

/-! ### STREAM -/

/-- What STREAM sets: with no bit of its mask left streaming stops. -/
def streamSet (s : State) (m : Mask) (d : BitVec 16) : State :=
  { s with stream := if maskVal m &&& 0xFC3FFF = 0 then { s.stream with mask := 0, div := 0, st := .off, count := Vector.replicate 24 0 }
    else { s.stream with mask := BitVec.ofNat 24 (maskVal m &&& 0xFC3FFF), div := d.toNat, st := .on, count := Vector.replicate 24 0 } }

theorem opStream_sets (h : Hdr) {m : Mask} {d : BitVec 16} (hm : maskVal m < 2 ^ 24) (hd : d ≠ 0) :
    opStream s (ctxOf s h) (maskBytes m ++ beBytes 2 d.toNat) = opDone (streamSet s m d) [] := by
  have hmask : plMask (maskBytes m ++ beBytes 2 d.toNat) 2 = maskVal m := by
    simpa only [beBytes_length] using plMask_maskBytes m (beBytes 2 d.toNat)
  have hlen : maskLen (maskBytes m ++ beBytes 2 d.toNat) 2 = (maskBytes m).length := by
    simpa only [beBytes_length] using maskLen_maskBytes m (beBytes 2 d.toNat)
  have hdiv : plField (maskBytes m ++ beBytes 2 d.toNat) (maskBytes m).length 2 = d.toNat :=
    (plField_maskBytes m 2 d.toNat).trans (Nat.mod_eq_of_lt d.isLt)
  have hd0 : d.toNat ≠ 0 := fun h0 => hd (BitVec.eq_of_toNat_eq h0)
  unfold opStream
  rw [maskOk_of_lt hmask hm, hmask, hlen, hdiv]
  refine (guarded_pass _ _ _ (by simpa [hd0] using hm)).trans (congrArg (opDone · []) ?_)
  unfold streamSet
  dsimp only
  split <;> rfl

include c hrun in
theorem row_stream {m : Mask} {d : BitVec 16} (hm : maskVal m < 2 ^ 24) (hd : d ≠ 0) :
    rowRun s h 0x18 (maskBytes m ++ beBytes 2 d.toNat) = answered (streamSet s m d) h stDone [] := by
  have hlen : lenOk 0x18 (maskBytes m ++ beBytes 2 d.toNat) = some true := by
    simp only [lenOk, List.length_append, maskBytes_length, beBytes_length]
    split <;> rfl
  exact row_answered c 0x18 _ (by decide) rfl hlen (by decide) (by decide) (by decide) rfl rfl (by rw [hrun]; rfl) (by decide)
    (by decide) (opStream_sets h hm hd)

/-! ### DCFREEZE -/

/-- One estimate frozen or freed, with its entry where that changes it. -/
def dcFrozen (f : Byte) (o : BitVec 16) (s : State) (ch : Nat) : State :=
  if (chainOf s ch).frozen = (f.toNat == 1) then s
  else logE (modChain s ch (fun x => { x with frozen := f.toNat == 1 })) o 0x0044 ch (natW (1 - f.toNat)) (natW f.toNat)

theorem dcFrozen_same (f : Byte) (o : BitVec 16) (s : State) {ch : Nat} (hc : ch < 14) :
    (chainOf (dcFrozen f o s ch) ch).frozen = (f.toNat == 1) := by
  unfold dcFrozen
  split
  · assumption
  · exact congrArg Chain.frozen (chainOf_modChain_same s hc _)

theorem dcFrozen_other (f : Byte) (o : BitVec 16) (s : State) {ch d : Nat} (h : ch ≠ d) :
    chainOf (dcFrozen f o s ch) d = chainOf s d := by
  unfold dcFrozen
  split
  · rfl
  · exact chainOf_modChain_other s h _

theorem opDcfreeze_sets (h : Hdr) {m : Mask} {f : Byte} (hm : maskVal m < 2 ^ 14) (hf : f.toNat ≤ 1) :
    opDcfreeze s (ctxOf s h) (maskBytes m ++ [f]) = opDone (forEach s (maskList 14 (maskVal m)) (dcFrozen f (orgPkt h.src))) [] := by
  have hmask : plMask (maskBytes m ++ [f]) 1 = maskVal m := plMask_maskBytes m [f]
  have hlen : maskLen (maskBytes m ++ [f]) 1 = (maskBytes m).length := maskLen_maskBytes m [f]
  unfold opDcfreeze
  rw [maskOk_of_lt hmask (by omega), hmask, hlen, plByte_maskBytes]
  exact guarded_pass _ _ _ (by simpa [hf] using hm)

include c hrun in
theorem row_dcfreeze {m : Mask} {f : Byte} (hm : maskVal m < 2 ^ 14) (hf : f.toNat ≤ 1) :
    rowRun s h 0x1C (maskBytes m ++ [f]) =
      answered (forEach s (maskList 14 (maskVal m)) (dcFrozen f (orgPkt h.src))) h stDone [] := by
  have hlen : lenOk 0x1C (maskBytes m ++ [f]) = some true := by
    simp only [lenOk, List.length_append, maskBytes_length, List.length_singleton]
    split <;> rfl
  exact row_answered c 0x1C _ (by decide) rfl hlen (by decide) (by decide) (by decide) rfl rfl (by rw [hrun]; rfl) (by decide)
    (by decide) (opDcfreeze_sets h hm hf)

/-! ### SYNCNOW -/

/-- The reset a SYNCNOW names for this tick. -/
def syncHere (s : State) (o : BitVec 16) : SyncDue := { up := s.t.up, count := none, order := 1, origin := o }

include c hrun in
theorem row_syncnow : rowRun s h 0x1D [] = answered (if s.ty = s.t.up ∧ s.t.up ≠ 0 then s
    else syncRun { s with syncs := s.syncs ++ [syncHere s (orgPkt h.src)] }) h stDone (beBytes 6 s.t.count.toNat) :=
  row_answered c 0x1D [] (by decide) rfl rfl (by decide) (by decide) (by decide) rfl rfl (by rw [hrun]; rfl) (by decide) (by decide) rfl

/-- The reset named for this tick is due in it. -/
theorem syncHere_synced (s : State) (o : BitVec 16) :
    Synced { s with syncs := s.syncs ++ [syncHere s o] } (syncRun { s with syncs := s.syncs ++ [syncHere s o] }) :=
  syncRun_synced ⟨_, List.mem_concat_self, decide_eq_true (le_refl s.t.up)⟩

end

/-- Settles O28: each row passes its checks; DCFREEZE runs over the channels of its mask, and a SYNCNOW that is the first of its tick
names a reset that is due at once. -/
theorem streamFreezeSync : Obligations.StreamFreezeSync := by
  intro s h m c hrun
  have hsync := syncHere_synced s (orgPkt h.src)
  refine ⟨fun d hm hd => congrArg _ (row_stream c hrun hm hd),
    fun f hm hf => ⟨_, congrArg _ (row_dcfreeze c hrun hm hf), fun n hn => ?_, fun n hn => ?_⟩,
    fun hy h0 => congrArg Host.Outcome.next ?_,
    fun hy => ⟨_, congrArg Host.Outcome.next ((row_syncnow c hrun).trans ?_), hsync.tick, hsync.config⟩⟩
  · have hbit : (f == 1) = (f.toNat == 1) := by
      rw [Bool.eq_iff_iff, beq_iff_eq, beq_iff_eq]
      exact BitVec.toNat_inj.symm
    have hlt := lt_of_mem_maskList hn
    rw [hbit]
    refine forEach_reaches (P := fun s => (chainOf s n).frozen = (f.toNat == 1)) (fun s => dcFrozen_same f _ s hlt)
      (fun s i hs => ?_) (.inl hn)
    by_cases hi : i = n
    · subst hi
      exact dcFrozen_same f _ s hlt
    · rwa [dcFrozen_other f _ s hi]
  · exact forEach_same_on (chainOf · n) fun s i hi => dcFrozen_other f _ s fun he => hn (he ▸ hi)
  · rw [row_syncnow c hrun, if_pos ⟨hy, h0⟩]
  · rw [if_neg fun hn => hy hn.1]

end Sys2Proof.Machine
end

section
/-! SUPPORT. FIRLOAD and FIRSEL (12 R536–R538). -/

namespace Sys2Proof.Machine

/-! ### FIRLOAD -/

/-- Half-coefficients put behind the first ones of a set, with their entry. -/
def coeffsLoaded (s : State) (h : Hdr) (k : Nat) (first : Byte) (co : List (BitVec 24)) : State :=
  logE { s with usets := vset s.usets k ((vget s.usets k []).take first.toNat ++ co) } (orgPkt h.src) 0x0042 k (natW first.toNat)
    (natW co.length)

/-- The payload of a FIRLOAD. -/
abbrev firloadBytes (k : Nat) (first : Byte) (co : List (BitVec 24)) : List Byte :=
  [byteOf k, first] ++ (co.map (fun c => beBytes 3 c.toNat)).flatten

section
variable {s : State} {k : Nat} {first : Byte} {co : List (BitVec 24)} (hk : k < 16) (h1 : 1 ≤ co.length) (h78 : co.length ≤ 78)
  (hf : first.toNat ≤ (vget s.usets k []).length) (hl : first.toNat + co.length ≤ 128) (hu : usetInUse s k = false)

include h1 h78 in
theorem lenOk_firload : lenOk 0x1A (firloadBytes k first co) = some true := by
  have hlen : (firloadBytes k first co).length = 2 + 3 * co.length := by
    rw [List.length_append, length_flatten_map fun _ => beBytes_length _ _]
    rfl
  simp only [lenOk, hlen, Option.some.injEq, Bool.and_eq_true, decide_eq_true_eq, beq_iff_eq]
  omega

include hk hf hl hu in
theorem opFirload_stores (h : Hdr) :
    opFirload s (ctxOf s h) (firloadBytes k first co) = opDone (coeffsLoaded s h k first co) [] := by
  simp only [opFirload, firloadBytes, List.cons_append, List.nil_append, plByte_succ, plByte_zero, byteOf_toNat (show k < 256 by omega),
    List.drop_succ_cons, List.drop_zero, plCoeffs_bytes]
  exact guarded_pass _ _ _ (by simp [show k ≤ 15 by omega, hf, hl, hu])

include hk h1 h78 hf hl hu in
theorem row_firload {h : Hdr} (c : CanChange s h tuner) (hv : s.u.st ≠ .vigil) :
    rowRun s h 0x1A (firloadBytes k first co) = answered (coeffsLoaded s h k first co) h stDone [] :=
  row_answered c 0x1A _ (by decide) rfl (lenOk_firload h1 h78) (by decide) (by decide) (by decide) rfl rfl
    (by simpa [stateTakes, startOps, configOps] using hv) (by decide) (by decide) (opFirload_stores hk hf hl hu h)

end

theorem coeffsLoaded_usets (s : State) (h : Hdr) (k : Nat) (first : Byte) (co : List (BitVec 24)) :
    (coeffsLoaded s h k first co).usets = vset s.usets k ((vget s.usets k []).take first.toNat ++ co) := rfl

theorem uset_getElem (v : Vector (List (BitVec 24)) 16) (k : Fin 16) : v[k] = vget v k [] := by simp [vget]

/-! ### FIRSEL -/

/-- The response and the set of a channel, with their entry where that changes them. -/
def responseSelected (s : State) (h : Hdr) (ch ix k : Nat) : State :=
  if pNat s (idFilt ch 1) = ix ∧ pNat s (idFilt ch 2) = k then s
  else logE (setParam (setParam s (idFilt ch 1) (natW ix)) (idFilt ch 2) (natW k)) (orgPkt h.src) 0x0043 ch
    (natW (pNat s (idFilt ch 1) * 256 + pNat s (idFilt ch 2))) (natW (ix * 256 + k))

theorem responseSelected_shape (s : State) (h : Hdr) (ch ix k : Nat) :
    responseSelected s h ch ix k =
      { s with cfg := (responseSelected s h ch ix k).cfg, log := (responseSelected s h ch ix k).log } := by
  unfold responseSelected
  split <;> rfl

theorem pNat_logE (s : State) (o : BitVec 16) (ev sub : Nat) (old new : Word) (id : Nat) : pNat (logE s o ev sub old new) id = pNat s id :=
  rfl

theorem pNat_setParam_same (s : State) (id : Nat) {n : Nat} (hn : n < 2 ^ 32) : pNat (setParam s id (natW n)) id = n := by
  rw [pNat, param_setParam_same]
  exact (BitVec.toNat_ofNat ..).trans (Nat.mod_eq_of_lt hn)

theorem pNat_setParam_other (s : State) {id j : Nat} (hj : j ≠ id) (w : Word) : pNat (setParam s id w) j = pNat s j :=
  congrArg BitVec.toNat (param_setParam_other s hj w)

theorem responseSelected_reads (s : State) (h : Hdr) (ch : Nat) {ix k : Nat} (hi : ix < 2 ^ 32) (hk : k < 2 ^ 32) :
    pNat (responseSelected s h ch ix k) (idFilt ch 1) = ix ∧ pNat (responseSelected s h ch ix k) (idFilt ch 2) = k := by
  unfold responseSelected
  split
  · assumption
  · have hids : idFilt ch 1 ≠ idFilt ch 2 := by unfold idFilt; omega
    rw [pNat_logE, pNat_logE, pNat_setParam_same _ _ hk, pNat_setParam_other _ hids, pNat_setParam_same _ _ hi]
    exact ⟨rfl, rfl⟩

theorem row_firsel {s : State} {h : Hdr} (c : CanChange s h tuner) (hv : s.u.st ≠ .vigil) {ch ix k : Nat} (hc : ch < 14) (hi : ix < 8)
    (hk : k < 16) (hr : filtRunning s ch = false) (h7 : ix = 7 → vget s.usets k [] ≠ []) (h4 : ix = 4 → pNat s (idFilt ch 0) = 3) :
    rowRun s h 0x1B [byteOf ch, byteOf ix, byteOf k] = answered (responseSelected s h ch ix k) h stDone [] := by
  have hop : opFirsel s (ctxOf s h) [byteOf ch, byteOf ix, byteOf k] = opDone (responseSelected s h ch ix k) [] := by
    simp only [opFirsel, plByte_succ, plByte_zero, byteOf_toNat (show ch < 256 by omega), byteOf_toNat (show ix < 256 by omega),
      byteOf_toNat (show k < 256 by omega)]
    have hfit : (ix ≠ 7 ∨ vget s.usets k [] ≠ []) ∧ (ix ≠ 4 ∨ pNat s (idFilt ch 0) = 3) :=
      ⟨not_or_of_imp h7, not_or_of_imp h4⟩
    exact guarded_pass _ _ _ (by simpa [hr, show ch ≤ 13 by omega, show ix ≤ 7 by omega, show k ≤ 15 by omega] using hfit)
  exact row_answered c 0x1B _ (by decide) rfl rfl (by decide) (by decide) (by decide) rfl rfl
    (by simpa [stateTakes, startOps, configOps] using hv) (by decide) (by decide) hop

/-- Settles O29: each row passes its checks; FIRLOAD writes the one set, FIRSEL the two parameters of the channel. -/
theorem responsesLoadAndSelect : Obligations.ResponsesLoadAndSelect := by
  intro s h c hv
  refine ⟨fun set first co h1 h78 hf hl hu => ?_, fun ch ix set hr h7 h4 => ?_⟩
  · rw [uset_getElem] at hf
    refine ⟨_, congrArg _ (row_firload set.isLt h1 h78 hf hl hu c hv), rfl, ?_, fun k hk => ?_⟩
    · rw [coeffsLoaded_usets, uset_getElem, uset_getElem]
      exact vget_vset_same _ _ _ set.isLt
    · rw [coeffsLoaded_usets, uset_getElem, uset_getElem]
      exact vget_vmod_other _ _ _ _ _ (Fin.val_ne_of_ne hk.symm)
  · rw [uset_getElem] at h7
    exact ⟨_, congrArg _ (row_firsel c hv ch.isLt ix.isLt set.isLt hr h7 h4), responseSelected_shape ..,
      responseSelected_reads s h ch (by omega) (by omega)⟩

end Sys2Proof.Machine
end

section
/-! SUPPORT. Samples, conversion boundaries, SYNC and releases (09 R407, R408, 10 R450, 12 R547, R551–R554, R558, R563, R570). -/

namespace Sys2Proof.Machine

/-! ### The sample word (12 R570) -/

theorem wordOf_toNat (x : Sample) :
    (wordOf x).toNat = (BitVec.ofInt 24 x.value).toNat * 256 + x.qual % 8 * 32 + x.ch % 32 := by
  have hv := (BitVec.ofInt 24 x.value).isLt
  exact (BitVec.toNat_ofNat ..).trans (Nat.mod_eq_of_lt (by omega))

/-- Settles O50: the three fields stand side by side in the word, and none reaches into the next. -/
theorem sampleWordFields : Obligations.SampleWordFields := by
  intro x hq hc hlo hhi
  have hw := wordOf_toNat x
  have hvalue : (wordOf x).toNat / 256 = (BitVec.ofInt 24 x.value).toNat := by omega
  refine ⟨hvalue, ?_, by omega, by omega, fun hch hqual hval => ?_, fun hch hqual hval => ?_⟩
  · rw [hvalue, BitVec.ofNat_toNat, BitVec.setWidth_eq]
    exact BitVec.toInt_ofInt_eq_self (by decide) hlo (by omega)
  · simp only [wordOf, hch, hqual, hval]
    decide
  · simp only [wordOf, hch, hqual, hval]
    decide

/-! ### Outputs (12 R547, R558) -/

section
variable {s : State} {c : Nat} {o : ChainOut} {rest : List ChainOut} (hc : c < 14) (ho : (chainOf s c).outs = o :: rest)
  (hdue : o.tag + 3 ≤ s.t.up)

include hc ho hdue

/-- The oldest output of the present run, or of one whose end came before its tag. -/
theorem chainOutput_present (hp : ∀ p, (chainOf s c).past = some p → p.cut ≤ o.tag) :
    chainOutput s c = sampleMain (modChain s c (fun ch => { ch with outs := rest })) c o := by
  have hpast : (chainOf (modChain s c (fun ch => { ch with outs := rest })) c).past = (chainOf s c).past := by
    rw [chainOf_modChain_same s hc]
  unfold chainOutput
  simp only [ho, Nat.not_lt.mpr hdue, if_false, hpast]
  split
  · next p he => rw [if_neg (Nat.not_lt.mpr (hp p he))]
  · rfl

/-- An output tagged before the CHSTOP is formed under the settings of the run it ended. -/
theorem chainOutput_past {p : PastRun} (hp : (chainOf s c).past = some p) (ht : o.tag < p.cut) :
    chainOutput s c = inPast (modChain s c (fun ch => { ch with outs := rest })) c p (fun s => sampleMain s c o) := by
  have hpast : (chainOf (modChain s c (fun ch => { ch with outs := rest })) c).past = some p := by
    rw [chainOf_modChain_same s hc]
    exact hp
  unfold chainOutput
  simp only [ho, Nat.not_lt.mpr hdue, if_false, hpast, ht, if_true]

end

theorem execSampleOutput_chain (s : State) (c : Fin 14) :
    exec (.sampleOutput (c.castLE (by omega))) s = .next (chainOutput s c) :=
  congrArg Host.Outcome.next (if_pos c.isLt)

theorem execSampleOutput_heater (s : State) {c : Fin 24} (h14 : 14 ≤ c.val) (h18 : c.val < 18) : exec (.sampleOutput c) s = .next s :=
  congrArg Host.Outcome.next ((if_neg (Nat.not_lt.mpr h14)).trans (if_pos h18))

theorem execSampleOutput_monitor (s : State) {c : Fin 24} (h : 18 ≤ c.val) : exec (.sampleOutput c) s = .next (hkOutput s c) :=
  congrArg Host.Outcome.next ((if_neg (by omega)).trans (if_neg (Nat.not_lt.mpr h)))

/-- A monitor's output is taken out, and the burst waits for it no longer. -/
def hkTaken (s : State) (c : Nat) : State :=
  { s with hk.out := none, vigil.waiting := s.vigil.waiting &&& ~~~(BitVec.ofNat 24 (2 ^ c)) }

theorem hkOutput_due {s : State} {c : Nat} {o : HkOut} (ho : s.hk.out = some o) (hc : o.ch = c) (hdue : o.tag + 3 ≤ s.t.up) :
    hkOutput s c =
      let x := hkSample s o
      let t := passSample (hkNote (hkTaken s c) x) { prim := x, blk := none, tone := false } none
      if x.qual = 7 then t else monitorLimits t c (sampleVal s x) := by
  have hnot : ¬(o.ch ≠ c ∨ s.t.up < o.tag + 3) := by omega
  unfold hkOutput
  simp only [ho, if_neg hnot]
  rfl

/-! ### Boundaries of conversions (12 R563) -/

theorem scsBoundary_due {s : State} {c : Nat} (hs : (chainOf s c).started = true) (hv : (chainOf s c).conv = none)
    (hf : pOn s (idFilt c 5) = true) (hu : s.u.st ≠ .vigil) (hn : chainPscs s c ≠ 0)
    (hm : ((s.t.up : Int) - baseNow (chainOf s c)) % (chainPscs s c : Int) = 0)
    (hd : (s.t.up, baseNow (chainOf s c), true) ∉ (chainOf s c).due) :
    scsBoundary s c = modChain s c (fun ch => { ch with due := ch.due ++ [(s.t.up, baseNow ch, true)] }) := by
  unfold scsBoundary
  extract_lets ch n at_
  refine if_pos ?_
  simp [ch, at_, n, hs, hv, hf, hu, hn, hm, hd]

/-! ### SYNC (12 R551, R554) -/

theorem execSyncPin_names {s : State} (ha : alive s = true) (hu : s.u.st ≠ .vigil) : exec .syncPin s =
    .next { s with syncs := { up := s.t.up + 2, count := none, order := 2, origin := orgPin } :: s.syncs } :=
  congrArg Host.Outcome.next (if_pos (by simp [ha, hu]))

theorem execSyncReset_alive {s : State} (ha : alive s = true) : exec .syncReset s = .next (syncRun s) :=
  congrArg Host.Outcome.next (if_pos ha)

/-! ### Releases (09 R407, R408, 10 R450) -/

/-- A front end apart from what tells of its episodes of saturation and clamping. -/
def bareFront (f : Front) : Front := { f with sat := none, run := 0, clampAt := none, clearAt := 0 }

theorem bareFront_modFront {f : Front → Front} (hf : ∀ x, bareFront (f x) = bareFront x) (s : State) (m n : Nat) :
    bareFront (frontOf (modFront s m f) n) = bareFront (frontOf s n) := by
  by_cases h : m = n
  · subst h
    by_cases hm : m < 12
    · rw [frontOf_modFront_same s hm, hf]
    · simp [frontOf, vget, hm]
  · exact congrArg bareFront (vget_vmod_other _ _ _ _ _ h)

theorem bareFront_neighbourClose (s : State) (m c n : Nat) : bareFront (frontOf (neighbourClose s m c) n) = bareFront (frontOf s n) := by
  unfold neighbourClose
  extract_lets cl s1
  have h1 : bareFront (frontOf s1 n) = bareFront (frontOf s n) := bareFront_modFront (fun _ => by rfl) s m n
  split
  · exact h1
  · refine (forEach_same (fun t => bareFront (frontOf t n)) (fun s i => by rfl) _ _).trans ?_
    exact (bareFront_modFront (fun _ => by rfl) s1 m n).trans h1

/-- The end of a saturation episode leaves the rest of a front end. -/
theorem bareFront_satEnd (s : State) (m c n : Nat) : bareFront (frontOf (satEnd s m c) n) = bareFront (frontOf s n) := by
  unfold satEnd
  split
  · rfl
  · exact (bareFront_neighbourClose ..).trans (bareFront_modFront (fun _ => by rfl) s m n)

theorem releaseApplied_releases (s : State) {n : Nat} (hn : n < 12) (e : Nat) : Released s (releaseApplied s n e) n e := by
  have hfront : bareFront (frontOf (releaseApplied s n e) n) = bareFront { frontOf s n with
      closed := false, holdAt := none, relSent := false, freeAt := none, oldRange := (frontOf s n).range,
      relAt := if (frontOf s n).range = (frontOf s n).oldRange then (frontOf s n).relAt else some e } := by
    unfold releaseApplied
    extract_lets s1 s2
    exact (bareFront_satEnd s2 n e n).trans (congrArg bareFront (frontOf_modFront_same s hn _))
  have hrange := congrArg Front.range hfront
  exact ⟨congrArg Front.closed hfront, congrArg Front.holdAt hfront, congrArg Front.freeAt hfront, hrange,
    congrArg Front.relAt hfront, (releaseApplied_keeps (.self s)).config⟩

theorem releaseNow_due {s : State} {n e : Nat} (h : (frontOf s n).freeAt = some e) : releaseNow s n = releaseApplied s n e := by
  unfold releaseNow
  rw [h]

theorem releaseNow_none {s : State} {n : Nat} (h : (frontOf s n).freeAt = none) : releaseNow s n = s := by
  unfold releaseNow
  rw [h]

/-! ### The events -/

/-- Settles O51: each row acts as its own lemma says. -/
theorem signalEvents : Obligations.SignalEvents := by
  intro s
  simp only [chain_getElem]
  refine ⟨fun c o rest ho hdue => ⟨fun hp => ?_, fun p hp ht => ?_⟩, fun c h14 h18 => execSampleOutput_heater s h14 h18,
    fun c o h18 ho hc hdue => ⟨hkNote (hkTaken s c) (hkSample s o), hkSample s o, rfl, rfl, rfl, ?_⟩,
    fun c hs hv hf hu hn hm hd => ⟨_, congrArg Host.Outcome.next (scsBoundary_due hs hv hf hu hn hm hd), rfl, ?_, fun d hdc => ?_⟩,
    execSyncPin_names, fun ha => ⟨fun h => ⟨_, execSyncReset_alive ha, ?_⟩, fun h => ?_⟩,
    fun n => ⟨fun e he => ⟨_, congrArg Host.Outcome.next (releaseNow_due he), releaseApplied_releases s (by omega) e⟩,
      fun he => congrArg Host.Outcome.next (releaseNow_none he)⟩,
    fun n => ⟨fun e he => ⟨_, congrArg Host.Outcome.next (releaseNow_due he), releaseApplied_releases s (by omega) e⟩,
      fun he => congrArg Host.Outcome.next (releaseNow_none he)⟩⟩
  · rw [execSampleOutput_chain, chainOutput_present c.isLt ho hdue hp]
  · rw [execSampleOutput_chain, chainOutput_past c.isLt ho hdue hp ht]
  · rw [execSampleOutput_monitor s h18, hkOutput_due ho hc hdue]
  · exact chainOf_modChain_same s c.isLt _
  · exact chainOf_modChain_other s (Fin.val_ne_of_ne hdc.symm) _
  · have hsync := syncRun_synced h
    exact ⟨hsync.tick, hsync.syncs, hsync.config, fun c hrun => hsync.due c c.isLt hrun⟩
  · rw [execSyncReset_alive ha, syncRun_none h]

end Sys2Proof.Machine
end

section
/-! SUPPORT. TRIPARM, TRIPDISARM, TRIPFORCE and CAPCLEAR (14 R633–R640, 15 R681): what each leaves of the Tripwire and of the records. -/

namespace Sys2Proof.Machine

theorem CaptOnly.trip {s t : State} (h : CaptOnly s t) : t.trip = s.trip := by
  rw [h]

/-! ### A new segment (15 R669) -/

theorem capTime_captOnly (s : State) (u reason : Nat) : CaptOnly s (capTime s u reason) :=
  ((capPush_captOnly ..).trans (capPush_captOnly ..)).trans rfl

theorem capOpen_trip (s : State) (armId : BitVec 16) : (capOpen s armId).trip = s.trip :=
  ((capTime_captOnly ..).trans (capPush_captOnly ..)).trip

/-- From `s` to `t` no record has reached SRAM or left it, and the phase stands. -/
structure SameSram (s t : State) : Prop where
  recs  : t.capt.recs = s.capt.recs
  prot  : t.capt.prot = s.capt.prot
  phase : t.capt.phase = s.capt.phase

theorem SameSram.trans {s t u : State} (h : SameSram s t) (k : SameSram t u) : SameSram s u :=
  ⟨k.recs.trans h.recs, k.prot.trans h.prot, k.phase.trans h.phase⟩

/-- A record made stands in the FIFO, or is lost. -/
theorem capPush_sameSram (s : State) (w : BitVec 64) (u : Nat) : SameSram s (capPush s w u) := by
  unfold capPush
  repeat' split
  all_goals exact ⟨rfl, rfl, rfl⟩

theorem capTime_sameSram (s : State) (u reason : Nat) : SameSram s (capTime s u reason) :=
  ((capPush_sameSram ..).trans (capPush_sameSram ..)).trans ⟨rfl, rfl, rfl⟩

/-- A segment opened records behind the records that stand. -/
theorem capOpen_records (s : State) (armId : BitVec 16) : (capOpen s armId).capt.phase = .recording ∧
    (capOpen s armId).capt.recs = s.capt.recs ∧ (capOpen s armId).capt.prot = s.capt.prot := by
  obtain ⟨hrecs, hprot, hphase⟩ := (capTime_sameSram _ s.t.up 1).trans (capPush_sameSram _ _ _)
  exact ⟨hphase, hrecs, hprot⟩

/-! ### CAPCLEAR (15 R681) -/

/-- Nothing is held after CAPCLEAR: capture is EMPTY without a session, and the session goes on in a new segment. -/
theorem capClear_clears (s : State) (o : BitVec 16) : (capClear s o).capt.recs = [] ∧ (capClear s o).capt.prot = 0 ∧
    (s.trip.st = .disarmed → (capClear s o).capt.phase = .empty ∧ (capClear s o).capt.fifo = []) ∧
    (s.trip.st ≠ .disarmed → (capClear s o).capt.phase = .recording) := by
  unfold capClear
  extract_lets s1 _ c s2
  split
  · next hd => exact ⟨rfl, rfl, fun _ => ⟨rfl, rfl⟩, fun hn => absurd hd hn⟩
  · next hn =>
    obtain ⟨hphase, hrecs, hprot⟩ := capOpen_records s2 s.capt.armId
    exact ⟨hrecs, hprot, fun hd => absurd hd hn, fun _ => hphase⟩

/-! ### Arming and disarming (14 R637, R638) -/

@[simp] theorem slotEntries_trip (s : State) (old : TripSt) (o : BitVec 16) : (slotEntries s old o).trip = s.trip :=
  forEach_same State.trip (fun s i => by split <;> rfl) _ s

/-- The arming master's word goes to the ring alone. -/
@[simp] theorem masterAsk_trip (s : State) (arm : Bool) (armId : BitVec 16) : (masterAsk s arm armId).trip = s.trip := by
  unfold masterAsk
  split <;> rfl

/-- A dead interval that ends leaves the armed slots and the session. -/
theorem tripRearm_armed (s : State) (o : BitVec 16) :
    (tripRearm s o).trip.armed = s.trip.armed ∧ (tripRearm s o).trip.armId = s.trip.armId := by
  unfold tripRearm
  split <;> exact ⟨rfl, rfl⟩

theorem tripOpen_trip (s : State) (armId : BitVec 16) : (tripOpen s armId).trip = { s.trip with st := .armed } := by
  unfold tripOpen
  extract_lets _ s1
  split
  · exact capOpen_trip s1 armId
  · rfl

theorem tripArm_arms (s : State) (m : Byte) (armId o : BitVec 16) : (tripArm s m armId o).trip.st = .armed ∧
    (tripArm s m armId o).trip.armed = m ∧ (tripArm s m armId o).trip.armId = armId := by
  have hslots : (tripSlots s m armId o).trip = { s.trip with armed := m, armId := armId, trackers := keptTrackers s.trip } :=
    slotEntries_trip ..
  obtain ⟨harmed, hid⟩ := tripRearm_armed (tripSlots s m armId o) o
  rw [hslots] at harmed hid
  rw [tripArm, tripOpen_trip]
  exact ⟨rfl, harmed, hid⟩

/-- The slots of a mask disarmed. -/
def tripLess (t : TripSt) (m : Byte) : TripSt := { t with armed := t.armed &&& ~~~m }

/-- The Tripwire DISARMED, with the ticks of its last dead interval. -/
def tripOff (t : TripSt) (dead : Nat) : TripSt := { t with st := .disarmed, armId := 0, carry := none, deadTicks := dead }

/-- The slots named leave the mask; the Tripwire is DISARMED where the last of them goes. -/
theorem tripDisarm_trip (s : State) (m : Byte) (o : BitVec 16) : (tripDisarm s m o).trip =
    if s.trip.armed &&& ~~~m ≠ 0 ∨ s.trip.armed = 0 then tripLess s.trip m else tripOff (tripLess s.trip m) (deadTicks s) := by
  unfold tripDisarm
  extract_lets old left s1 _ s2
  have h1 : s1.trip = tripLess s.trip m := slotEntries_trip ..
  have h2 : s2.trip = tripOff (tripLess s.trip m) (deadTicks s) := congrArg (tripOff · (deadTicks s)) h1
  split
  · exact h1
  split
  · exact (capClose_captOnly s2 4 o).trip.trans h2
  · exact h2

theorem disarmRun_trip (s : State) (m : Byte) (o : BitVec 16) : (disarmRun s m.toNat o).trip = (tripDisarm s m o).trip := by
  unfold disarmRun
  rw [byteOf_of_toNat]
  extract_lets s1
  split
  · exact masterAsk_trip ..
  · rfl

/-! ### A trigger taken (14 R631, R633, R634) -/

theorem capTrigger_captOnly (s : State) (g : Trigger) : CaptOnly s (capTrigger s g) := by
  unfold capTrigger
  extract_lets _ x s1 s2 s3 n s4 _ s5
  have h3 : CaptOnly s s3 := ((capPush_captOnly ..).trans (capPush_captOnly ..)).trans (capPush_captOnly ..)
  have h5 : CaptOnly s s5 := h3.trans rfl
  split
  · rfl
  split
  · exact h3
  split
  · exact h5.trans (capClose_captOnly ..)
  · exact h5

@[simp] theorem firePend_trip (s : State) (k : BitVec 56) : (firePend s k).trip = s.trip := by
  unfold firePend
  repeat' split
  all_goals rfl

/-- A trigger taken begins a dead interval in its tick; the armed slots and the session stand. -/
theorem tripTake_trip (s : State) (source type rule ch : Nat) (blk : Bool) (era : BitVec 16) (tick : BitVec 48) (frac : Byte)
    (coinc : BitVec 16) : ∃ g : Trigger, (tripTake s source type rule ch blk era tick frac coinc).trip =
      { s.trip with st := .dead, triggers := s.trip.triggers + 1, recogAt := s.t.up, deadTicks := 0, missed := 0, carry := none,
                    last := some g, lastCoinc := coinc } := by
  unfold tripTake
  extract_lets c g s1 _ s2 k _ _ _ s3 own _ s5
  have h3 : s3.trip = s2.trip := by
    unfold s3
    split
    · exact (capFire_captOnly _ k).trip
    · exact (capTrigger_captOnly s2 g).trip
  have h5 : s5.trip = s2.trip := by
    unfold s5
    split
    · exact h3
    · exact (firePend_trip ..).trans h3
  refine ⟨g, ?_⟩
  split <;> exact h5

/-! ### The four rows -/

section
variable {s : State} {h : Hdr} (c : CanChange s h operator)
include c

theorem row_triparm (hrun : s.u.st = .run) {m : Byte} (hm : m ≠ 0) (hfit : ∀ i ∈ maskList 8 m.toNat, slotFit s i = true)
    {armId : BitVec 16} (hb : armBusy s armId = false) : rowRun s h 0x30 (m :: beBytes 2 armId.toNat) =
      answered (masterAsk (tripArm s m armId (orgPkt h.src)) true armId) h stDone [] := by
  have hid : BitVec.ofNat 16 (plField (m :: beBytes 2 armId.toNat) 1 2) = armId := by
    rw [plField_succ, plField_last, show 256 ^ 2 = 2 ^ 16 from rfl, Nat.mod_eq_of_lt armId.isLt, BitVec.ofNat_toNat,
      BitVec.setWidth_eq]
  have hm0 : m.toNat ≠ 0 := fun h0 => hm (BitVec.eq_of_toNat_eq h0)
  have hop : opTriparm s (ctxOf s h) (m :: beBytes 2 armId.toNat) =
      opDone (masterAsk (tripArm s m armId (orgPkt h.src)) true armId) [] := by
    simp only [opTriparm, hid, plByte_zero, byteOf_of_toNat]
    exact guarded_pass _ _ _ (by simp [hm0, hb, List.all_eq_true.mpr hfit])
  exact row_answered c 0x30 _ (by decide) rfl rfl (by decide) (by decide) (by decide) rfl rfl (by rw [hrun]; rfl) (by decide)
    (by decide) hop

theorem row_tripdisarm (m : Byte) :
    rowRun s h 0x31 [m] = answered (disarmRun s m.toNat (orgPkt h.src)) h stDone [] :=
  row_answered c 0x31 [m] (by decide) rfl rfl (by decide) (by decide) (by decide) rfl rfl rfl (by decide) (by decide) rfl

theorem row_tripforce (hrun : s.u.st = .run) (ha : s.trip.st = .armed) {i : Nat} (hi : i < 8) : rowRun s h 0x32 [byteOf i] =
    answered (tripTake s 9 6 i 0xFF false s.t.era s.t.count 0 0x200) h stDone [] := by
  have hop : opTripforce s (ctxOf s h) [byteOf i] = opDone (tripTake s 9 6 i 0xFF false s.t.era s.t.count 0 0x200) [] := by
    simp only [opTripforce, plByte_zero, byteOf_toNat (show i < 256 by omega)]
    exact guarded_pass _ _ _ (by simp [ha, show i ≤ 7 by omega])
  exact row_answered c 0x32 _ (by decide) rfl rfl (by decide) (by decide) (by decide) rfl rfl (by rw [hrun]; rfl) (by decide)
    (by decide) hop

theorem row_capclear : rowRun s h 0x35 [] = answered (capClear s (orgPkt h.src)) h stDone [] :=
  row_answered c 0x35 [] (by decide) rfl rfl (by decide) (by decide) (by decide) rfl rfl rfl (by decide) (by decide) rfl

end

/-- Settles O32: each row passes its checks and acts by its own operation, whose Tripwire `tripArm_arms`, `tripDisarm_trip` and
`tripTake_trip` give; what CAPCLEAR leaves of the records `capClear_clears` says. -/
theorem tripwireCommands : Obligations.TripwireCommands := by
  intro s h c
  refine ⟨fun m armId hrun hm hfit hb => ⟨_, congrArg _ (row_triparm c hrun hm hfit hb), ?_⟩,
    fun m => ⟨_, congrArg _ (row_tripdisarm c m), ?_⟩,
    fun i hrun ha => ⟨_, congrArg _ (row_tripforce c hrun ha i.isLt), ?_⟩,
    ⟨_, congrArg _ (row_capclear c), capClear_clears s _⟩⟩
  · rw [masterAsk_trip]
    exact tripArm_arms ..
  · rw [disarmRun_trip, tripDisarm_trip]
    split
    · next hstay => exact ⟨rfl, fun ha h0 => absurd h0 (hstay.resolve_right ha), fun _ => rfl⟩
    · next hoff => exact ⟨rfl, fun _ _ => rfl, fun hl => absurd (.inl hl) hoff⟩
  · obtain ⟨g, hg⟩ := tripTake_trip s 9 6 i 0xFF false s.t.era s.t.count 0 0x200
    rw [hg]
    exact ⟨rfl, rfl, rfl, rfl, rfl⟩

end Sys2Proof.Machine
end

section
/-! SUPPORT. What the rows that are no packets leave of the configuration and of the unit's condition (20 R877, 03 R139). -/

namespace Sys2Proof.Machine

section
variable {Q : List Instr} {C : List (Nat × Word) → Prop} {U : UnitSt → Prop} {B : Prop} {s : State}

/-- The rows of both lists write neither a parameter nor the unit's condition. -/
theorem exec_keeps_both (hk : Keeps Q C U B s)
    {i : Instr} (h : (keepsConfig i && keepsUnit i) = true) : Keeps Q C U B (outState s (exec i s)) := by
  cases i with
  | claimHoldoffEnd => exact execClaimHoldoffEnd_keeps hk
  | fieldDieReset => exact execFieldDieReset_keeps hk
  | vhtrPresentChange _ => exact execVhtrPresentChange_keeps hk
  | vdrvPresentChange _ => exact execVdrvPresentChange_keeps hk
  | missingEdge => exact execMissingEdge_keeps hk
  | clockReturn => exact execClockReturn_keeps hk
  | sckLoss => exact execSckLoss_keeps hk
  | wakeInVigil => exact execWakeInVigil_keeps hk
  | downFrameTimeout => exact execDownFrameTimeout_keeps hk
  | housekeepingStep => exact execHousekeepingStep_keeps hk
  | headerArm _ => exact execHeaderArm_keeps hk
  | headerDisarm _ => exact execHeaderDisarm_keeps hk
  | headerSync _ => exact execHeaderSync_keeps hk
  | pitchAll _ => exact execPitchAll_keeps hk
  | pitchFill _ => exact execPitchFill_keeps hk
  | pitchSticky _ => exact execPitchSticky_keeps hk
  | pitchDrop _ => exact execPitchDrop_keeps hk
  | pitchMeasure _ => exact execPitchMeasure_keeps hk
  | bulkGrant _ _ => exact execBulkGrant_keeps hk
  | firePass _ => exact execFirePass_keeps hk
  | resolvePass _ _ => exact execResolvePass_keeps hk
  | confirmPass _ _ => exact execConfirmPass_keeps hk
  | beaconHeader _ => exact execBeaconHeader_keeps hk
  | orphanBeacon => exact execOrphanBeacon_keeps hk
  | dataLossBeacon => exact execDataLossBeacon_keeps hk
  | pegClashRelease => exact execPegClashRelease_keeps hk
  | eventLost => exact execEventLost_keeps hk
  | logSealTask _ => exact execLogSealTask_keeps hk
  | slewStep => exact execSlewStep_keeps hk
  | rangeChangeRelease _ => exact execRangeChangeRelease_keeps hk
  | decadeChangeRelease _ => exact execDecadeChangeRelease_keeps hk
  | syncPin => exact execSyncPin_keeps hk
  | syncReset => exact execSyncReset_keeps hk
  | scsBoundary _ => exact execScsBoundary_keeps hk
  | cellEnableStep _ => exact execCellEnableStep_keeps hk
  | cellDisableStep _ => exact execCellDisableStep_keeps hk
  | biasRampStep _ => exact execBiasRampStep_keeps hk
  | tripwireAutoRearm => exact execTripwireAutoRearm_keeps hk
  | nextSegment => exact execNextSegment_keeps hk
  | fifoWrite => exact execFifoWrite_keeps hk
  | preRingDiscard => exact execPreRingDiscard_keeps hk
  | overflowEvent => exact execOverflowEvent_keeps hk
  | sentinelBurst => exact execSentinelBurst_keeps hk
  | sentinelBurstEnd => exact execSentinelBurstEnd_keeps hk
  | profileAbort _ => exact execProfileAbort_keeps hk
  | heaterLoop _ => exact execHeaterLoop_keeps hk
  | bridgeLoop _ => exact execBridgeLoop_keeps hk
  | leadcalSwitch _ => exact execLeadcalSwitch_keeps hk
  | periodicCheckDue => exact execPeriodicCheckDue_keeps hk
  | toneStart => exact execToneStart_keeps hk
  | toneCode => exact execToneCode_keeps hk
  | filmToneToggle => exact execFilmToneToggle_keeps hk
  | clrNLevel _ => exact execClrNLevel_keeps hk
  | wavePoint _ => exact execWavePoint_keeps hk
  | twinHello _ => exact execTwinHello_keeps hk
  | twinJoin _ _ => exact execTwinJoin_keeps hk
  | pairCommit => exact execPairCommit_keeps hk
  | joinTimeout => exact execJoinTimeout_keeps hk
  | twinVerdict _ _ _ => exact execTwinVerdict_keeps hk
  | twinCommit _ _ => exact execTwinCommit_keeps hk
  | twinAck _ => exact execTwinAck_keeps hk
  | twinAnswer _ _ _ _ _ => exact execTwinAnswer_keeps hk
  | twinReq _ _ => exact execTwinReq_keeps hk
  | twinRule _ _ _ _ => exact execTwinRule_keeps hk
  | twinTrig _ _ source type _ => exact execTwinTrig_keeps (_source := source) (_type := type) hk
  | twinSlot _ _ _ _ => exact execTwinSlot_keeps hk
  | twinSplitMsg _ => exact execTwinSplitMsg_keeps hk
  | vddaReturn => exact execVddaReturn_keeps hk
  | _ => exact absurd h Bool.false_ne_true

/-- A row of the first list writes no parameter. -/
theorem exec_keeps_config (hU : UFree U) (hk : Keeps Q C U B s) (i : Instr) (hc : keepsConfig i = true) :
    Keeps Q C U B (outState s (exec i s)) := by
  cases hu : keepsUnit i with
  | true => exact exec_keeps_both hk (by rw [hc, hu]; rfl)
  | false =>
    have h : (keepsConfig i && !keepsUnit i) = true := by rw [hc, hu]; rfl
    cases i with
    | dormantArm _ => exact execDormantArm_keeps hU hk
    | upFrame _ => exact execUpFrame_keeps hU hk
    | downFrame _ => exact execDownFrame_keeps hk
    | driveWordApply => exact execDriveWordApply_keeps hU hk
    | superframeHeader _ _ => exact execSuperframeHeader_keeps hU hk
    | slotWrite _ => exact execSlotWrite_keeps hU hk
    | commandWindow _ => exact execCommandWindow_keeps hU hk
    | heaterMeasurement _ => exact execHeaterMeasurement_keeps hU hk
    | _ => exact absurd h Bool.false_ne_true

/-- A row of the second list leaves the unit's condition. -/
theorem exec_keeps_unit (hC : CfgClosed C) (hk : Keeps Q C U B s) (i : Instr) (hu : keepsUnit i = true) :
    Keeps Q C U B (outState s (exec i s)) := by
  cases hc : keepsConfig i with
  | true => exact exec_keeps_both hk (by rw [hc, hu]; rfl)
  | false =>
    have h : (keepsUnit i && !keepsConfig i) = true := by rw [hc, hu]; rfl
    cases i with
    | pitchCount _ => exact execPitchCount_keeps hk
    | rightsRecordWrite _ => exact execRightsRecordWrite_keeps hC hk
    | leadcalDone _ => exact execLeadcalDone_keeps hC hk
    | nvLoadApply _ => exact execNvLoadApply_keeps hC hk
    | twinConf _ => exact execTwinConf_keeps hC hk
    | calwriteDone _ => exact execCalwriteDone_keeps hC hk
    | nvsaveDone _ _ => exact execNvsaveDone_keeps hC hk
    | _ => exact absurd h Bool.false_ne_true

end

/-- Settles O6: of the configuration and the condition as they stand, each list's rows keep theirs whatever becomes of the other. -/
theorem eventsKeepConfiguration : Obligations.EventsKeepConfiguration := by
  intro i s t e
  have ht : outState s (exec i s) = t := by rw [e]; rfl
  constructor
  · intro hc
    have k : Keeps s.pending (· = s.cfg) (fun _ => True) False s := ⟨rfl, rfl, trivial, nofun, nofun, nofun⟩
    exact ht ▸ (exec_keeps_config (fun _ => trivial) k i hc).config
  · intro hu
    have k : Keeps s.pending (fun _ => True) (· = s.u) False s := ⟨rfl, trivial, rfl, nofun, nofun, nofun⟩
    exact ht ▸ (exec_keeps_unit ⟨fun _ _ _ _ => trivial, trivial⟩ k i hu).unit

end Sys2Proof.Machine
end

section
/-! SUPPORT. Parameters read and written (20 R876, R877): GETP, GETBLK by the reply, and the store. -/

namespace Sys2Proof.Machine

/-- Settles O12: the store's own laws. -/
theorem writtenParameterReadsBack : Obligations.WrittenParameterReadsBack :=
  fun s id w => ⟨param_setParam_same s id w, fun _ hj => param_setParam_other s hj w, fun h => cfgWf_cfgSet h id w⟩

theorem row_getp {s : State} {h : Hdr} (c : CanQuery s h) {ids : List Pid} (h1 : 1 ≤ ids.length) (h16 : ids.length ≤ 16)
    (hd : ∀ i ∈ ids, (descOf i.toNat).isSome = true) :
    rowRun s h 0x02 ((ids.map (fun i => beBytes 2 i.toNat)).flatten) =
      queried s h ((ids.map (fun i => beBytes 4 (readParam s i.toNat).toNat)).flatten) := by
  have hbytes := plIds_bytes ids
  have hlen := length_flatten_map (fun i : Pid => beBytes_length 2 i.toNat) ids
  generalize (ids.map (fun i => beBytes 2 i.toNat)).flatten = pl at hbytes hlen ⊢
  have hl : lenOk 0x02 pl = some true := by
    simp only [lenOk, hlen, Option.some.injEq, Bool.and_eq_true, decide_eq_true_eq, beq_iff_eq]
    omega
  have hnames : readNames s 0x02 pl = true := by
    simpa [readNames, hbytes, idDefined, idHome_single c.single] using hd
  refine row_queried c 0x02 pl (by decide) rfl hl (by decide) hnames rfl rfl rfl ?_
  show opGetp s (ctxOf s h) pl = _
  simp only [opGetp, hbytes, List.map_map]
  rfl

theorem row_getblk_reply {s : State} {h : Hdr} (c : CanQuery s h) {first : Pid} {n : Byte}
    (hd : (descOf first.toNat).isSome = true) (h1 : 1 ≤ n.toNat) (h63 : n.toNat ≤ 63) (hn : first.toNat % 256 + n.toNat ≤ 256) :
    rowRun s h 0x04 (beBytes 2 first.toNat ++ [n, 0]) = queried s h (blockBytes s first.toNat n.toNat) := by
  generalize hpl : beBytes 2 first.toNat ++ [n, 0] = pl
  obtain ⟨hfirst, hcount, hvia⟩ := getblk_fields first n 0 hpl.symm
  have hlen : lenOk 0x04 pl = some true := by simp [lenOk, ← hpl, beBytes_length]
  have hnames : readNames s 0x04 pl = true := by simp [readNames, idDefined, hfirst, idHome_single c.single, hd]
  refine row_queried_lane c (by decide) hlen hnames ?_
  show opGetblk s (ctxOf s h) pl = _
  simp only [opGetblk, hfirst, hcount, hvia]
  exact guarded_pass _ _ _ (by simp [h1, h63, hn])

/-- Settles O8: each read names defined parameters and answers their values in order. -/
theorem parameterReadsAnswer : Obligations.ParameterReadsAnswer := by
  intro s h c
  exact ⟨fun ids h1 h16 hd => congrArg _ (row_getp c h1 h16 hd),
    fun first n hd h1 h63 hn => congrArg _ (row_getblk_reply c hd h1 h63 hn)⟩

end Sys2Proof.Machine
end

section
/-! SUPPORT. DIAG (20 R898, R899): FIELDREAD, whose answer the Seam brings later, and PINS. -/

namespace Sys2Proof.Machine

/-- DIAG is taken in every state, at once, from a client of its code's role. -/
theorem rowRun_diag {s : State} {h : Hdr} {r : Nat} (c : CanChange s h r) {pl : List Byte} (hl : lenOk 0x7F pl = some true)
    (hr : minRole 0x7F pl = r) : rowRun s h 0x7F pl = resultEnd (opDiag s (ctxOf s h) pl) (rowPkt h 0x7F pl) :=
  rowRun_change c 0x7F pl (by decide) rfl
    (packetNames_pass c.single hl (by decide) rfl (by rw [hr]; exact c.role)) rfl (.inr (by cases s.u.st <;> rfl)) (by decide)

/-- The answer of a changing packet that comes later holds the places of its record and of its reply. -/
theorem packetFinish_later (s : State) (h : Hdr) (opc : Nat) (pl : List Byte) (ho : opc < 256) (hq : isQuery opc pl = false) :
    packetFinish s (rowPkt h opc pl) (answer stDone []) (some 0) = { s with
      cmd.dups := aset s.cmd.dups h.src.toNat { seq := h.seq, ans := answer stDone [], wait := some 0 },
      cmd.replies := if h.bcast then s.cmd.replies
        else s.cmd.replies ++ [{ replyOf h (answer stDone []) with wait := some 0 }] } := by
  simp only [packetFinish, rejectNote_done s _ stDone [] (by decide)]
  simp only [rowPkt, byteOf_toNat ho, hq, replyAdd, dupSet, replyOf]
  cases h.bcast <;> rfl

/-- Settles O11: FIELDREAD queues its read and leaves its answer open; PINS answers the levels. -/
theorem diagnosticsAnswer : Obligations.DiagnosticsAnswer := by
  intro s h
  refine ⟨fun c a => congrArg Host.Outcome.next ?_, fun c => congrArg Host.Outcome.next ?_⟩
  · have hrun : opDiag s (ctxOf s h) [1, a] = ({ s with
        seam := { s.seam with regQ := s.seam.regQ ++ [{ regAccess s a 0 with read := true }],
                              fieldRead := s.seam.fieldRead ++ [(a, h.src, h.seq)] } }, none) := by
      simp only [opDiag, plByte_zero, opFieldread, plByte_succ, byteOf_of_toNat]
      rfl
    rw [rowRun_diag c rfl rfl, hrun]
    exact packetFinish_later _ h 0x7F _ (by decide) rfl
  · rw [rowRun_diag c rfl rfl]
    exact packetFinish_change s h 0x7F [2] stDone _ (by decide) (by decide) rfl

end Sys2Proof.Machine
end

section
/-! SUPPORT. The verdicts of a decision (17 R745–R747): the order of the requests, and what each verdict takes of the energy. -/

namespace Sys2Proof.Machine

/-! ### The order served (17 R745) -/

theorem reqInsert_perm (r : Req) (l : List Req) : (reqInsert r l).Perm (r :: l) := by
  induction l with
  | nil => exact .refl _
  | cons x xs ih =>
    simp only [reqInsert]
    split
    · exact (ih.cons x).trans (.swap r x xs)
    · exact .refl _

theorem reqSort_perm (rs : List Req) : (reqSort rs).Perm rs := by
  suffices h : ∀ acc, (rs.foldl (fun acc r => reqInsert r acc) acc).Perm (rs ++ acc) by simpa [reqSort] using h []
  induction rs with
  | nil => exact fun acc => .refl _
  | cons r rs ih => exact fun acc => (ih _).trans (((reqInsert_perm r acc).append_left rs).trans List.perm_middle)

/-! ### One verdict after the other (17 R746) -/

/-- A request that nothing stands against asks no more than what is left. -/
theorem noGrant_zero {d : Deciding} {c : Caps} {r : Req} (h : noGrant d c r = 0) : r.energy ≤ d.avail - d.taken := by
  by_contra hn
  simp only [noGrant, hn, if_false] at h
  split_ifs at h

theorem verdictOf_grant {st : UState} {d : Deciding} {r : Req} (h : (verdictOf st d r).status = vGrant) :
    r.energy ≤ d.avail - d.taken := by
  refine noGrant_zero (c := if r.asker = .tail then d.far else d.own) ?_
  by_contra hn
  simp only [verdictOf, hn, if_false] at h
  split_ifs at h <;> cases h

theorem sumOf_snoc (out : List (Req × Verdict)) (r : Req) (v : Verdict) :
    sumOf (out ++ [(r, v)]) (fun _ => true) = sumOf out (fun _ => true) + if v.status == vGrant then r.energy else 0 := by
  cases hv : v.status == vGrant <;> simp [sumOf, List.filter_append, hv]

/-- A decision under way that has served these requests: what it granted is what it counts as taken, and no more than it has. -/
structure Served (avail : Nat) (d : Deciding) (rs : List Req) : Prop where
  budget : d.avail = avail
  within : d.taken ≤ avail
  sum    : sumOf d.out (fun _ => true) = d.taken
  order  : d.out.map Prod.fst = rs

theorem Served.next {avail : Nat} {d : Deciding} {rs : List Req} (h : Served avail d rs) (st : UState) (r : Req) :
    Served avail (decideNext st d r) (rs ++ [r]) where
  budget := h.budget
  within := by
    show d.taken + (if (verdictOf st d r).status == vGrant then r.energy else 0) ≤ avail
    have hw := h.within
    cases hg : (verdictOf st d r).status == vGrant with
    | false => simpa using hw
    | true =>
      have he := verdictOf_grant (beq_iff_eq.mp hg)
      rw [h.budget] at he
      simp only [if_true]
      omega
  sum := (sumOf_snoc ..).trans (congrArg (· + _) h.sum)
  order := by
    show (d.out ++ [(r, _)]).map Prod.fst = _
    rw [List.map_append, h.order]
    rfl

theorem Served.all {avail : Nat} (st : UState) (rs : List Req) {d : Deciding} {done : List Req} (h : Served avail d done) :
    Served avail (rs.foldl (decideNext st) d) (done ++ rs) := by
  induction rs generalizing d done with
  | nil => simpa using h
  | cons r rs ih => simpa using ih (h.next st r)

/-- Settles O56, by induction over the requests as they are served. -/
theorem grantsStayWithinBudget : Obligations.GrantsStayWithinBudget := by
  intro st avail own far rs
  have k : Served avail (decideAll st avail own far rs) (reqSort rs) := Served.all st (reqSort rs) (done := []) ⟨rfl, Nat.zero_le _, rfl, rfl⟩
  exact ⟨k.within, k.sum, k.order, reqSort_perm rs⟩

end Sys2Proof.Machine
end

section
/-! SUPPORT. The capture memory's own steps (14 R635, 15 R657, R658, R666–R669, R673). -/

namespace Sys2Proof.Machine

/-! ### Records made (15 R658, R661) -/

/-- From `s` to `t` records are made, or lost; nothing else of capture, and of the state, changes. -/
def Pushed (s t : State) : Prop :=
  t = { s with capt := { s.capt with fifo := t.capt.fifo, lostAt := t.capt.lostAt, overflows := t.capt.overflows,
                                     base := t.capt.base, timeAt := t.capt.timeAt } }

theorem Pushed.trans {s t u : State} (h : Pushed s t) (k : Pushed t u) : Pushed s u := by
  unfold Pushed at h k ⊢
  rw [k, h]

theorem capPush_pushed (s : State) (w : BitVec 64) (u : Nat) : Pushed s (capPush s w u) := by
  unfold capPush
  split_ifs <;> rfl

theorem capTime_pushed (s : State) (u reason : Nat) : Pushed s (capTime s u reason) :=
  ((capPush_pushed ..).trans (capPush_pushed ..)).trans rfl

/-- A segment opened: its session's, without a point or a fire; no entry is written (15 R669). -/
theorem capOpen_fresh (s : State) (armId : BitVec 16) : (capOpen s armId).capt.nextDue = false ∧
    (capOpen s armId).capt.armId = armId ∧ (capOpen s armId).capt.gotFire = false ∧ (capOpen s armId).capt.placed = false ∧
    (capOpen s armId).log = s.log := by
  unfold capOpen
  extract_lets _ c _ s1
  have h : Pushed s1 (capPush (capTime s1 s.t.up 1) (evWord 0x07 (armId.toNat * 2 ^ 32 + (tick32 s).toNat)) s.t.up) :=
    (capTime_pushed ..).trans (capPush_pushed ..)
  rw [h]
  exact ⟨rfl, rfl, rfl, rfl, rfl⟩

/-! ### Records reaching SRAM (15 R657–R659) -/

/-- From `s` to `t` records join those held, outside any write of the FIFO. -/
structure Joined (s t : State) : Prop where
  recs  : ∃ more, t.capt.recs = s.capt.recs ++ more
  prot  : t.capt.prot = s.capt.prot
  wrote : t.capt.wroteAt = s.capt.wroteAt

theorem Joined.refl (s : State) : Joined s s := ⟨⟨[], by simp⟩, rfl, rfl⟩

theorem Joined.trans {s t u : State} (h : Joined s t) (k : Joined t u) : Joined s u := by
  obtain ⟨a, ha⟩ := h.recs
  obtain ⟨b, hb⟩ := k.recs
  exact ⟨⟨a ++ b, by rw [hb, ha, List.append_assoc]⟩, k.prot.trans h.prot, k.wrote.trans h.wrote⟩

/-- The record as SRAM holds it. -/
def recOf (s : State) (r : FifoRec) : Rec := { num := s.capt.nextRec, word := seqChk r.word s.capt.nextRec, at_ := r.at_ }

theorem capStore_room {s : State} (h : s.capt.recs.length < 32768) (r : FifoRec) : capStore s r =
    { s with capt.recs := s.capt.recs ++ [recOf s r], capt.nextRec := (s.capt.nextRec + 1) % 2 ^ 32 } := by
  simp only [capStore, show ¬ 32768 ≤ s.capt.recs.length by omega, if_false]
  rfl

theorem capStore_joined (s : State) (r : FifoRec) : Joined s (capStore s r) := by
  unfold capStore
  split_ifs
  · exact .refl s
  · exact ⟨⟨[], by simp⟩, rfl, rfl⟩
  · exact ⟨⟨_, rfl⟩, rfl, rfl⟩

theorem capFollow_joined (s : State) : Joined s (capFollow s) := by
  have h : ∀ (rs : List FifoRec) (x : State), Joined x (rs.foldl capStore x) := by
    intro rs
    induction rs with
    | nil => exact .refl
    | cons r rs ih => exact fun x => (capStore_joined x r).trans (ih _)
  exact .trans (t := { s with capt.fifo := s.capt.fifo.dropWhile FifoRec.outside }) ⟨⟨[], by simp⟩, rfl, rfl⟩ (h _ _)

theorem capOutside_joined (s : State) (w : BitVec 64) (u : Nat) : Joined s (capOutside s w u) :=
  .trans (t := { s with capt.fifo := s.capt.fifo ++ [{ word := w, at_ := u, outside := true }] }) ⟨⟨[], by simp⟩, rfl, rfl⟩
    (capFollow_joined _)

/-- With nothing in the FIFO, a word outside it reaches SRAM at once. -/
theorem capOutside_drained {s : State} (h : s.capt.fifo = []) (w : BitVec 64) (u : Nat) :
    capOutside s w u = capStore { s with capt.fifo := [] } { word := w, at_ := u, outside := true } := by
  simp [capOutside, capFollow, h]

/-- A close that no further segment follows: the phase, its status, and the one word that joins the records (15 R668, R673). -/
theorem capClose_ends (s : State) {status : Nat} (hs : status ≠ 1) (o : BitVec 16) :
    (capClose s status o).capt.phase = .closed ∧ (capClose s status o).capt.close = status ∧
    (capClose s status o).capt.lostAt = none ∧
    (capClose s status o).capt.recs = (capOutside s (evWord 0x08 (status * 2 ^ 40 + (tick32 s).toNat)) s.t.up).capt.recs ∧
    Joined s (capClose s status o) := by
  have h := capOutside_joined s (evWord 0x08 (status * 2 ^ 40 + (tick32 s).toNat)) s.t.up
  simp only [capClose, hs, false_and, if_false, logE_capt]
  exact ⟨trivial, trivial, trivial, trivial, h.recs, h.prot, h.wrote⟩

/-! ### The FIFO's write of a tick (15 R657, R658) -/

section
variable {s : State} {r : FifoRec} {rest : List FifoRec} (hf : s.capt.fifo = r :: rest) (hw : s.capt.wroteAt ≠ some s.t.up)
  (hl : s.capt.recs.length < 32768)

/-- The oldest record has left the FIFO. -/
def fifoGone (s : State) (r : FifoRec) (rest : List FifoRec) : State :=
  { s with capt := { s.capt with fifo := rest, wroteAt := some s.t.up, nextRec := (s.capt.nextRec + 1) % 2 ^ 32,
                                 recs := s.capt.recs ++ [recOf s r] } }

include hf hw hl in
theorem fifoWrite_writes : fifoWrite s =
    let s1 := capFollow (fifoGone s r rest)
    if s1.capt.stopping && s1.capt.lostAt.isNone && s1.capt.fifo.isEmpty then capClose s1 5 orgUnit else s1 := by
  have h := capStore_room (s := { s with capt.fifo := rest, capt.wroteAt := some s.t.up }) hl r
  simp only [fifoWrite, hf, hw, if_false, h]
  rfl

include hf hw hl in
/-- None stands outside the FIFO behind it, and no stop waits. -/
theorem fifoWrite_one (ho : rest.takeWhile FifoRec.outside = []) (hs : s.capt.stopping = false) :
    fifoWrite s = fifoGone s r rest := by
  have hd : rest.dropWhile FifoRec.outside = rest := by
    simpa [ho] using List.takeWhile_append_dropWhile (p := FifoRec.outside) (l := rest)
  have hk : capFollow (fifoGone s r rest) = fifoGone s r rest := by simp [capFollow, fifoGone, ho, hd]
  rw [fifoWrite_writes hf hw hl, hk]
  simp [fifoGone, hs]

include hf hw hl in
theorem fifoWrite_joined : Joined (fifoGone s r rest) (fifoWrite s) := by
  have hk := capFollow_joined (fifoGone s r rest)
  rw [fifoWrite_writes hf hw hl]
  extract_lets s1
  split
  · obtain ⟨-, -, -, -, hc⟩ := capClose_ends s1 (status := 5) (by decide) orgUnit
    exact hk.trans hc
  · exact hk

end

theorem fifoWrite_waits {s : State} (h : s.capt.fifo = [] ∨ s.capt.wroteAt = some s.t.up) : fifoWrite s = s := by
  unfold fifoWrite
  rcases h with h | h
  · rw [h]
  · split
    · rfl
    · rw [if_pos h]

/-! ### The pre-ring (15 R666, R667) -/

/-- From `s` to `t` only the base context of the oldest held record changes. -/
def Based (s t : State) : Prop :=
  t = { s with capt := { s.capt with bTick := t.capt.bTick, bEra := t.capt.bEra, bAmp := t.capt.bAmp, bMox := t.capt.bMox } }

theorem Based.trans {s t u : State} (h : Based s t) (k : Based t u) : Based s u := by
  unfold Based at h k ⊢
  rw [k, h]

theorem baseStep_based (s : State) (r : Rec) : Based s (baseStep s r) := by
  unfold baseStep
  extract_lets w c put tg ch c1
  have hc : c1 = { s.capt with bTick := c1.bTick, bEra := c1.bEra, bAmp := c1.bAmp, bMox := c1.bMox } := by
    show (ite _ _ _ : CaptSt) = _
    simp only [c1]
    split_ifs <;> rfl
  unfold Based
  rw [hc]

theorem discardDue_based {s t : State} (h : Based s t) (n : Nat) (r : Rec) : discardDue t n r = discardDue s n r := by
  rw [h]
  rfl

/-- What goes is a stretch of the oldest; the one behind it is not due. -/
theorem discardFrom_spec (s : State) (n : Nat) (l : List Rec) : Based s (discardFrom s n l).1 ∧
    ∃ j, (discardFrom s n l).2 = l.drop j ∧ ∀ r, (l.drop j).head? = some r → discardDue s (n - j) r = false := by
  induction l generalizing s n with
  | nil => exact ⟨rfl, 0, rfl, nofun⟩
  | cons x l ih =>
    cases hx : discardDue s n x with
    | false =>
      simp only [discardFrom, hx, Bool.false_eq_true, if_false]
      exact ⟨rfl, 0, rfl, fun r hr => by cases hr; exact hx⟩
    | true =>
      obtain ⟨hb, j, hd, hj⟩ := ih (baseStep s x) (n - 1)
      simp only [discardFrom, hx, if_true]
      refine ⟨(baseStep_based s x).trans hb, j + 1, hd, fun r hr => ?_⟩
      rw [← discardDue_based (baseStep_based s x), Nat.add_comm, ← Nat.sub_sub]
      exact hj r hr

theorem discardDue_false {s : State} {n : Nat} {r : Rec} (h : discardDue s n r = false) :
    s.t.count.toNat ≤ (tagOf s r.at_).1.toNat + captN s 2 ∧ n + s.capt.prot + captN s 3 + 64 ≤ 32768 := by
  simpa [discardDue] using h

/-- The pre-ring of a tick gives up its oldest records until the rest is young and few enough. -/
theorem preDiscard_spec {s : State} (hp : s.capt.phase = .recording) (hs : s.capt.stopping = false) (hl : s.capt.lostAt = none) :
    ∃ j : Nat, preDiscard s = { s with capt := (preDiscard s).capt } ∧ (preDiscard s).capt.fifo = s.capt.fifo ∧
      (preDiscard s).capt.recs = s.capt.recs.take s.capt.prot ++ (s.capt.recs.drop s.capt.prot).drop j ∧
      ∀ r : Rec, ((preDiscard s).capt.recs.drop s.capt.prot).head? = some r →
        s.t.count.toNat ≤ (tagOf s r.at_).1.toNat + captN s 2 ∧
          (preDiscard s).capt.recs.length + s.capt.fifo.length + captN s 3 + 64 ≤ 32768 := by
  have htake : s.capt.recs.take (min s.capt.prot s.capt.recs.length) = s.capt.recs.take s.capt.prot := by
    rw [List.take_eq_take_iff]; omega
  have hdrop : s.capt.recs.drop (min s.capt.prot s.capt.recs.length) = s.capt.recs.drop s.capt.prot := by
    rcases Nat.le_total s.capt.prot s.capt.recs.length with h | h
    · rw [Nat.min_eq_left h]
    · rw [Nat.min_eq_right h, List.drop_length, List.drop_eq_nil_of_le h]
  simp only [preDiscard, hp, hs, hl, ne_eq, not_true_eq_false, Bool.false_eq_true, Option.isSome_none, or_self, if_false, htake,
    hdrop]
  generalize hn : (s.capt.recs.drop s.capt.prot).length + s.capt.fifo.length - _ = n
  obtain ⟨hb, j, hd, hj⟩ := discardFrom_spec s n (s.capt.recs.drop s.capt.prot)
  refine ⟨j, ?_, by rw [hb], by rw [hd], fun r hr => ?_⟩
  · rw [hb]
  · rw [hd] at hr ⊢
    have hcut : (s.capt.recs.drop s.capt.prot).drop j ≠ [] := fun he => by
      rw [he, List.append_nil, List.drop_eq_nil_of_le (by simp)] at hr
      cases hr
    have hpos := List.length_pos_of_ne_nil hcut
    simp only [List.length_drop] at hpos hn
    rw [List.drop_append, List.drop_eq_nil_of_le (by simp), List.nil_append, List.length_take,
      Nat.min_eq_left (by omega), Nat.sub_self, List.drop_zero] at hr
    obtain ⟨hyoung, hfew⟩ := discardDue_false (hj r hr)
    refine ⟨hyoung, ?_⟩
    simp only [List.length_append, List.length_take, List.length_drop]
    omega

/-! ### An overflow (15 R658, R673) -/

theorem execOverflowEvent_acts {s : State} {u : Nat} (hu : s.capt.lostAt = some u) (hf : s.capt.fifo = [])
    (hr : capRunning s = true) : execOverflowEvent s =
      .next (capClose (capOutside s (evWord 0x05 (tagOf s u).1.toNat) s.t.up) 3 orgUnit) := by
  simp [execOverflowEvent, hu, hf, hr]

/-- With room for both, OVERFLOW and CLOSE follow the records held. -/
theorem overflow_records {s : State} (hf : s.capt.fifo = []) (hl : s.capt.recs.length + 2 ≤ 32768) (w : BitVec 64) :
    ∃ c : Rec, (capClose (capOutside s w s.t.up) 3 orgUnit).capt.recs = s.capt.recs ++
      [{ num := s.capt.nextRec, word := seqChk w s.capt.nextRec, at_ := s.t.up }, c] := by
  obtain ⟨-, -, -, hrecs, -⟩ := capClose_ends (capOutside s w s.t.up) (status := 3) (by decide) orgUnit
  have hone := capOutside_drained hf w s.t.up
  rw [capStore_room (by show s.capt.recs.length < 32768; omega)] at hone
  rw [hrecs, hone, capOutside_drained rfl, capStore_room (by simp only [List.length_append, List.length_singleton]; omega)]
  exact ⟨_, by rw [List.append_assoc]; rfl⟩

/-! ### The events -/

/-- Settles O54: each event by what its own operation leaves. -/
theorem captureEvents : Obligations.CaptureEvents := by
  intro s
  refine ⟨fun hon hdue hp hd => ?_, fun hn hm => ?_, fun r rest hf hw hl ho hs => congrArg _ (fifoWrite_one hf hw hl ho hs),
    fun r rest hf hw hl => ?_, fun h => congrArg _ (fifoWrite_waits h), fun hp hs hl => ?_, fun u hu hf hr => ?_⟩
  · have hrun : exec .tripwireAutoRearm s = .next (tripRearm s orgUnit) := by
      show execTripwireAutoRearm s = _
      simp [execTripwireAutoRearm, hon, hdue, hp]
    refine ⟨_, hrun, ?_⟩
    simp only [tripRearm, hd, ne_eq, not_true_eq_false, if_false]
    exact ⟨rfl, rfl, rfl, rfl, rfl, rfl⟩
  · have hrun : exec .nextSegment s = .next (capOpen s s.capt.armId) := by
      show execNextSegment s = _
      simp [execNextSegment, hn, hm]
    obtain ⟨hphase, hrecs, hprot⟩ := capOpen_records s s.capt.armId
    obtain ⟨hdue, harm, hfire, hplaced, hlog⟩ := capOpen_fresh s s.capt.armId
    exact ⟨_, hrun, hphase, hdue, harm, hfire, hplaced, hrecs, hprot, hlog⟩
  · obtain ⟨⟨more, hrecs⟩, -, hwrote⟩ := fifoWrite_joined hf hw hl
    exact ⟨_, more, rfl, hwrote, by rw [hrecs, fifoGone, List.append_assoc]; rfl⟩
  · obtain ⟨j, hshape, hfifo, hrecs, hhead⟩ := preDiscard_spec hp hs hl
    exact ⟨_, j, rfl, hshape, hfifo, hrecs, hhead⟩
  · obtain ⟨hphase, hclose, hlost, -, hj⟩ := capClose_ends (capOutside s (evWord 0x05 (tagOf s u).1.toNat) s.t.up) (status := 3)
      (by decide) orgUnit
    exact ⟨_, execOverflowEvent_acts hu hf hr, hphase, hclose, hlost, hj.prot.trans (capOutside_joined ..).prot,
      fun hl => overflow_records hf hl _⟩

end Sys2Proof.Machine
end

section
/-! SUPPORT. ALARMACK and TALLYCLEAR (16 R703, R704, R712). -/

namespace Sys2Proof.Machine

/-! ### ALARMACK (16 R712) -/

theorem rule_getElem (s : State) (r : Fin 16) : s.alarm[r] = ruleOf s r := by simp [ruleOf, vget]

/-- The state of rule `r`. -/
def ruleStAt (r : Nat) (s : State) : AlarmSt := (ruleOf s r).st

/-- A rule acknowledged at a unit in no pair. -/
def ackOwn (o : BitVec 16) (s : State) (r : Nat) : State :=
  if ruleStAt r s = .latched then logE (modRule s r (fun a => { a with st := .clear })) o 0x0071 r 2 0 else s

theorem ackRule_single {s : State} (h : s.twin.mode = 0) (o : BitVec 16) (r : Nat) : ackRule s o r = ackOwn o s r := by
  by_cases hl : (ruleOf s r).st = .latched <;> simp [ackRule, ackOwn, ruleStAt, h, hl]

theorem ackRules_single {s : State} (h : s.twin.mode = 0) (o : BitVec 16) (ns : List Nat) :
    forEach s ns (fun s r => ackRule s o r) = forEach s ns (ackOwn o) := by
  unfold forEach
  induction ns generalizing s with
  | nil => rfl
  | cons r ns ih =>
    simp only [List.foldl_cons, ackRule_single h]
    exact ih (by unfold ackOwn; split <;> exact h)

theorem ackOwn_other (o : BitVec 16) (s : State) {r k : Nat} (h : r ≠ k) : ruleStAt k (ackOwn o s r) = ruleStAt k s := by
  unfold ackOwn
  split
  · exact congrArg AlarmRule.st (vget_vmod_other _ _ _ _ _ h)
  · rfl

theorem ackOwn_same (o : BitVec 16) (s : State) {r : Nat} (h : r < 16) :
    ruleStAt r (ackOwn o s r) = if ruleStAt r s = .latched then .clear else ruleStAt r s := by
  unfold ackOwn
  split
  · exact congrArg AlarmRule.st (vget_vmod_same _ _ _ _ h)
  · rfl

theorem nodup_maskList (n m : Nat) : (maskList n m).Nodup := List.nodup_range.filter _

/-- The rules named become CLEAR where they were LATCHED; the others stay. -/
theorem acksOwn_st (o : BitVec 16) (s : State) (m : Nat) {r : Nat} (h : r < 16) :
    ruleStAt r (forEach s (maskList 16 m) (ackOwn o)) =
      if bit m r = true ∧ ruleStAt r s = .latched then .clear else ruleStAt r s := by
  by_cases hb : bit m r = true
  · simp only [hb, true_and]
    refine forEach_once (ruleStAt r) (ruleStAt r) (fun s i hi => ackOwn_other o s hi) (fun s i hi => ackOwn_other o s hi) ?_
      (nodup_maskList 16 m) (by simp [maskList, h, hb])
    intro t ht
    rw [ackOwn_same o t h, ht]
  · simp only [hb, Bool.false_eq_true, false_and, if_false]
    refine forEach_same_on (ruleStAt r) fun s i hi => ackOwn_other o s ?_
    rintro rfl
    simp [maskList, hb] at hi

/-- A run over numbers none of which changes the state. -/
theorem forEach_idle {s : State} {f : State → Nat → State} {ns : List Nat} (h : ∀ i ∈ ns, f s i = s) : forEach s ns f = s := by
  unfold forEach
  induction ns with
  | nil => rfl
  | cons i ns ih =>
    rw [List.foldl_cons, h i List.mem_cons_self]
    exact ih fun j hj => h j (List.mem_cons_of_mem _ hj)

theorem row_alarmack {s : State} {h : Hdr} (c : CanChange s h operator) (m : BitVec 16) :
    rowRun s h 0x38 (beBytes 2 m.toNat) =
      answered (forEach s (maskList 16 m.toNat) (ackOwn (orgPkt h.src))) h stDone [] := by
  have hrun : opRun s (ctxOf s h) 0x38 (beBytes 2 m.toNat) =
      opDone (forEach s (maskList 16 m.toNat) (ackOwn (orgPkt h.src))) [] := by
    show opAlarmack s (ctxOf s h) _ = _
    rw [opAlarmack, plField_last, show m.toNat % 256 ^ 2 = m.toNat from Nat.mod_eq_of_lt m.isLt, ackRules_single c.single]
    rfl
  exact row_answered c 0x38 _ (by decide) rfl (by simp [lenOk, beBytes_length]) (by decide) (by decide) (by decide) rfl rfl
    (by cases s.u.st <;> rfl) (by decide) (by decide) hrun

/-! ### TALLYCLEAR (16 R703, R704) -/

theorem tally_getElem (s : State) (i : Fin 24) : s.tally[i] = tallyOf s i := by simp [tallyOf, vget]

theorem tallyUndo_tally (s : State) (i : Nat) : (tallyUndo s i).tally = s.tally := by
  unfold tallyUndo
  split_ifs
  · exact forEach_same State.tally (fun s n => modFront_tally s n _) _ s
  · exact forEach_same State.tally (fun s n => modHtr_tally s n _) _ s
  · rfl

theorem tallyOf_tallyClear_same (s : State) (o : BitVec 16) {i : Nat} (h : i < 24) :
    (tallyOf (tallyClear s o i) i).win = [] ∧ (tallyOf (tallyClear s o i) i).lasting = false := by
  have he : tallyOf (tallyEmpty s i) i = { tallyOf s i with win := [] } := vget_vmod_same _ _ _ _ h
  unfold tallyClear
  extract_lets s1 s2
  split
  · next hl =>
    rw [he]
    exact ⟨rfl, by simpa [isLasting] using hl⟩
  · have h2 : tallyOf s2 i = { tallyOf s1 i with lasting := false } := vget_vmod_same _ _ _ _ h
    rw [tallyOf, tallyUndo_tally]
    exact ⟨by rw [← tallyOf, tallyOf, logE_tally, ← tallyOf, h2, he], by rw [logE_tally, ← tallyOf, h2]⟩

theorem tallyOf_tallyClear_other (s : State) (o : BitVec 16) {i j : Nat} (h : i ≠ j) :
    tallyOf (tallyClear s o i) j = tallyOf s j := by
  have he : tallyOf (tallyEmpty s i) j = tallyOf s j := vget_vmod_other _ _ _ _ _ h
  unfold tallyClear
  extract_lets s1 s2
  split
  · exact he
  · have h2 : tallyOf s2 j = tallyOf s1 j := vget_vmod_other _ _ _ _ _ h
    rw [tallyOf, tallyUndo_tally, logE_tally, ← tallyOf, h2, he]

theorem row_tallyclear {s : State} {h : Hdr} (c : CanChange s h operator) {b : Byte} (hb : b.toNat ≤ 23 ∨ b.toNat = 0xFF) :
    rowRun s h 0x3A [b] = answered (forEach s (if b.toNat = 0xFF then List.range 24 else [b.toNat])
      (fun s i => tallyClear s (orgPkt h.src) i)) h stDone [] := by
  refine row_answered c 0x3A [b] (by decide) rfl rfl (by decide) (by decide) (by decide) rfl rfl (by cases s.u.st <;> rfl) (by decide)
    (by decide) ?_
  show opTallyclear s (ctxOf s h) [b] = _
  simp only [opTallyclear, plByte_zero]
  exact guarded_pass _ _ _ (by rcases hb with hb | hb <;> simp [hb])

/-- Settles O33: each rule and each source of a command is visited once, and its step touches no other. -/
theorem alarmAndTallyCommands : Obligations.AlarmAndTallyCommands := by
  intro s h c
  refine ⟨fun m => ⟨_, congrArg _ (row_alarmack c m), fun r => ?_⟩, fun m hm => ?_, fun i => ?_, ?_⟩
  · rw [rule_getElem, rule_getElem]
    exact acksOwn_st _ s _ r.isLt
  · refine (congrArg Host.Outcome.next (row_alarmack c m)).trans ?_
    rw [forEach_idle fun r hr => ?_]
    have hr : r < 16 ∧ bit m.toNat r = true := by simpa [maskList] using hr
    have hn := hm ⟨r, hr.1⟩ hr.2
    rw [rule_getElem] at hn
    exact if_neg hn
  · have hi : (byteOf i).toNat = i := byteOf_toNat (by omega)
    refine ⟨_, congrArg _ (row_tallyclear c (.inl (by omega))), ?_⟩
    simp only [hi, show i.val ≠ 0xFF by omega, if_false, tally_getElem]
    obtain ⟨hw, hl⟩ := tallyOf_tallyClear_same s (orgPkt h.src) i.isLt
    exact ⟨hw, hl, fun j hj => tallyOf_tallyClear_other s _ (Fin.val_ne_of_ne hj.symm)⟩
  · refine ⟨_, congrArg _ (row_tallyclear c (.inr rfl)), fun i => ?_⟩
    rw [tally_getElem]
    have hend := forEach_once (s := s) (f := fun s i => tallyClear s (orgPkt h.src) i) (ns := List.range 24) (fun _ => ())
      (fun s => ((tallyOf s i).win, (tallyOf s i).lasting)) (c := i) (b := ([], false)) (fun _ _ _ => rfl)
      (fun s j hj => by rw [tallyOf_tallyClear_other s _ hj])
      (fun t _ => Prod.ext_iff.mpr (tallyOf_tallyClear_same t _ i.isLt)) List.nodup_range (by simp)
    exact Prod.ext_iff.mp hend

end Sys2Proof.Machine
end

section
/-! SUPPORT. AOUTSET, AOUTRANGE, WAVELOAD, WAVEPLAY and WAVESTOP (18 R777, R779, R795–R801), points of a waveform (18 R799, R801), and
CLR_N (18 R782). -/

namespace Sys2Proof.Machine

theorem play_getElem (s : State) (g : Fin 5) : s.wave.play[g] = playOf s g := by simp [playOf, vget]

theorem points_getElem (s : State) (w : Fin 16) : s.wave.points[w] = wavePts s w := by simp [wavePts, vget]

theorem playOf_modPlay_same (s : State) {g : Nat} (hg : g < 5) (f : Play → Play) : playOf (modPlay s g f) g = f (playOf s g) :=
  vget_vmod_same _ _ _ _ hg

theorem vget_vset_other {α : Type} {n : Nat} (v : Vector α n) {i j : Nat} (a d : α) (h : i ≠ j) :
    vget (vset v i a) j d = vget v j d := vget_vmod_other v i j (fun _ => a) d h

@[simp] theorem biasTo_wave (s : State) (k : Nat) (c : BitVec 14) : (biasTo s k c).wave = s.wave := by
  unfold biasTo
  split <;> rfl

@[simp] theorem biasTo_log (s : State) (k : Nat) (c : BitVec 14) : (biasTo s k c).log = s.log := by
  unfold biasTo
  split <;> rfl

/-! ### Opcodes by the states that take them (03 R126) -/

/-- A start is carried out in RUN. -/
theorem row_answered_start {s t : State} {h : Hdr} (c : CanChange s h operator) (hrun : s.u.st = .run) {opc : Nat}
    (ho : opc = 0x21 ∨ opc = 0x3C) {pl : List Byte} (hl : lenOk opc pl = some true) (hr : opRun s (ctxOf s h) opc pl = opDone t []) :
    rowRun s h opc pl = answered t h stDone [] := by
  rcases ho with rfl | rfl <;>
  exact row_answered c _ pl (by decide) rfl hl (by decide) (by decide) (by decide) rfl rfl (by rw [hrun]; rfl) (by decide)
    (by decide) hr

/-- Configuration is carried out in every state but VIGIL. -/
theorem row_answered_config {s t : State} {h : Hdr} (c : CanChange s h tuner) (hv : s.u.st ≠ .vigil) {opc : Nat}
    (ho : opc = 0x23 ∨ opc = 0x3D) {pl : List Byte} (hl : lenOk opc pl = some true) (hr : opRun s (ctxOf s h) opc pl = opDone t []) :
    rowRun s h opc pl = answered t h stDone [] := by
  rcases ho with rfl | rfl <;>
  exact row_answered c _ pl (by decide) rfl hl (by decide) (by decide) (by decide) rfl rfl
    (by simpa [stateTakes, startOps, configOps] using hv) (by decide) (by decide) hr

/-! ### AOUTSET and AOUTRANGE (18 R777, R779) -/

/-- A static output's code, with its entry where it changes. -/
def codeSet (s : State) (o : BitVec 16) (c : BitVec 16) : State :=
  if c = s.aout.code then s else logE { s with aout.code := c } o 0x0055 0 (s.aout.code.setWidth 32) (c.setWidth 32)

theorem codeSet_aout (s : State) (o c : BitVec 16) : (codeSet s o c).aout = { s.aout with code := c } := by
  unfold codeSet
  split
  · next e => rw [e]
  · rfl

theorem codeSet_shape (s : State) (o c : BitVec 16) : codeSet s o c = { s with aout := (codeSet s o c).aout, log := (codeSet s o c).log } := by
  unfold codeSet
  split <;> rfl

theorem row_aoutset {s : State} {h : Hdr} (c : CanChange s h operator) (hrun : s.u.st = .run) (hp : isPlaying s 0 = false)
    (code : BitVec 16) : rowRun s h 0x3C (beBytes 2 code.toNat) = answered (codeSet s (orgPkt h.src) code) h stDone [] := by
  refine row_answered_start c hrun (.inr rfl) (by simp [lenOk, beBytes_length]) ?_
  show opAoutset s (ctxOf s h) _ = _
  rw [opAoutset, plField_last, show code.toNat % 256 ^ 2 = code.toNat from Nat.mod_eq_of_lt code.isLt, BitVec.ofNat_toNat,
    BitVec.setWidth_eq]
  exact guarded_pass _ _ _ (by simp [hp])

/-- A disabled output's range, with its register write and entry where it changes. -/
def rangeSet (s : State) (o : BitVec 16) (r : Nat) : State :=
  if r = s.aout.range then s else logE (regSet { s with aout.range := r } 0x16 3 1 r) o 0x0056 0 (natW s.aout.range) (natW r)

theorem row_aoutrange {s : State} {h : Hdr} (c : CanChange s h tuner) (hv : s.u.st ≠ .vigil) (he : s.aout.enabled = false) {r : Nat}
    (hr : r < 5) : rowRun s h 0x3D [byteOf r] = answered (rangeSet s (orgPkt h.src) r) h stDone [] := by
  refine row_answered_config c hv (.inr rfl) rfl ?_
  show opAoutrange s (ctxOf s h) _ = _
  simp only [opAoutrange, plByte_zero, byteOf_toNat (show r < 256 by omega)]
  exact guarded_pass _ _ _ (by simp [he, show r ≤ 4 by omega])

/-! ### WAVELOAD (18 R795) -/

/-- The points stored from `first` on, and their entry. -/
def pointsLoaded (s : State) (o : BitVec 16) (w first : Nat) (ps : List (BitVec 16)) : State :=
  logE { s with wave.points := vset s.wave.points w ((wavePts s w).take first ++ ps) } o 0x0053 w (natW first) (natW ps.length)

theorem row_waveload {s : State} {h : Hdr} (c : CanChange s h tuner) (hv : s.u.st ≠ .vigil) {w : Nat} (hw : w < 16)
    {first : BitVec 16} {ps : List (BitVec 16)} (h1 : 1 ≤ ps.length) (h118 : ps.length ≤ 118)
    (hf : first.toNat ≤ (wavePts s w).length) (hs : first.toNat + ps.length ≤ waveSize s w) (hb : waveBusy s w = false) :
    rowRun s h 0x23 (byteOf w :: (beBytes 2 first.toNat ++ (ps.map (fun p => beBytes 2 p.toNat)).flatten)) =
      answered (pointsLoaded s (orgPkt h.src) w first.toNat ps) h stDone [] := by
  have hlen := length_flatten_map (fun p : BitVec 16 => beBytes_length 2 p.toNat) ps
  have hpts := plPoints_bytes ps
  generalize (ps.map (fun p => beBytes 2 p.toNat)).flatten = tl at hlen hpts ⊢
  have hl : lenOk 0x23 (byteOf w :: (beBytes 2 first.toNat ++ tl)) = some true := by
    simp only [lenOk, List.length_cons, List.length_append, beBytes_length, hlen, Option.some.injEq, Bool.and_eq_true,
      decide_eq_true_eq, beq_iff_eq]
    omega
  refine row_answered_config c hv (.inl rfl) hl ?_
  have hdrop : (byteOf w :: (beBytes 2 first.toNat ++ tl)).drop 3 = tl := by
    rw [List.drop_succ_cons, List.drop_left' (beBytes_length ..)]
  show opWaveload s (ctxOf s h) _ = _
  simp only [opWaveload, plByte_zero, byteOf_toNat (show w < 256 by omega), plField_succ, plField_front, hdrop, hpts,
    show first.toNat % 256 ^ 2 = first.toNat from Nat.mod_eq_of_lt first.isLt]
  exact guarded_pass _ _ _ (by simp [show w ≤ 15 by omega, hf, hs, hb])

/-! ### WAVEPLAY and WAVESTOP (18 R797, R801) -/

theorem row_waveplay {s : State} {h : Hdr} (c : CanChange s h operator) (hrun : s.u.st = .run) {w g : Nat} (hw : w < 16) (hg : g < 5)
    {period repeats : BitVec 16} (hr : playReady s g = true) (hp : period ≠ 0) (hpts : wavePts s w ≠ [])
    (hz : g ≠ 0 → zCell s (g - 1) = false) :
    rowRun s h 0x21 ([byteOf w, byteOf g] ++ beBytes 2 period.toNat ++ beBytes 2 repeats.toNat) =
      answered (playStart s g w period.toNat repeats.toNat (orgPkt h.src)) h stDone [] := by
  refine row_answered_start c hrun (.inl rfl) (by simp [lenOk, beBytes_length]) ?_
  have hperiod : plField (beBytes 2 period.toNat ++ beBytes 2 repeats.toNat) 0 2 = period.toNat :=
    (plField_front ..).trans (Nat.mod_eq_of_lt period.isLt)
  have hrepeats : plField (beBytes 2 period.toNat ++ beBytes 2 repeats.toNat) 2 2 = repeats.toNat :=
    ((plField_behind 2 _ 0 2 _).trans (plField_last ..)).trans (Nat.mod_eq_of_lt repeats.isLt)
  have hne : period.toNat ≠ 0 := fun e => hp (BitVec.eq_of_toNat_eq e)
  show opWaveplay s (ctxOf s h) _ = _
  simp only [opWaveplay, List.cons_append, List.nil_append, plByte_succ, plByte_zero, plField_succ,
    byteOf_toNat (show w < 256 by omega), byteOf_toNat (show g < 256 by omega), hperiod, hrepeats]
  refine guarded_pass _ _ _ ?_
  rcases Nat.eq_zero_or_pos g with h0 | h0
  · simp [hne, hpts, show w ≤ 15 by omega, h0 ▸ hr, h0]
  · simp [hr, hne, hpts, show w ≤ 15 by omega, show g ≤ 4 by omega, hz (by omega)]

theorem playStart_play (s : State) {g : Nat} (hg : g < 5) (w k repeats : Nat) (o : BitVec 16) :
    playOf (playStart s g w k repeats o) g =
      { st := .playing, wave := w, point := 0, passes := repeats, period := k, due := s.t.up + k } := by
  unfold playStart
  extract_lets s1 p s2 pt
  have h2 : playOf s2 g = p := playOf_modPlay_same s1 hg _
  split
  · exact h2
  · rw [playOf, biasTo_wave]
    exact h2

/-- Playback ended: the target is idle, and the last point stays, at AOUT as its code (18 R801). -/
theorem playEnd_ends (s : State) {g : Nat} (hg : g < 5) (o : BitVec 16) (closing : Bool) :
    (playOf (playEnd s g o closing) g).st = .idle ∧
      (g = 0 → isPlaying s g = true → (playEnd s g o closing).aout.code = pointOf s 0) := by
  unfold playEnd
  split
  · next hi => exact ⟨by simpa [isPlaying] using hi, fun _ hp => by simp [hp] at hi⟩
  · extract_lets pt s1 _ s2 _ k s3
    have h2 : (playOf s2 g).st = .idle := congrArg Play.st (playOf_modPlay_same s1 hg _)
    split
    · next h0 => exact ⟨h2, fun _ _ => by show pointOf s g = _; rw [h0]⟩
    · next h0 =>
      refine ⟨?_, fun e => absurd e h0⟩
      split <;> exact h2

theorem row_wavestop {s : State} {h : Hdr} (c : CanChange s h operator) {g : Nat} (hg : g < 5) :
    rowRun s h 0x22 [byteOf g] = answered (playEnd s g (orgPkt h.src) false) h stDone [] := by
  refine row_answered c 0x22 _ (by decide) rfl rfl (by decide) (by decide) (by decide) rfl rfl (by cases s.u.st <;> rfl) (by decide)
    (by decide) ?_
  show opWavestop s (ctxOf s h) _ = _
  simp only [opWavestop, plByte_zero, byteOf_toNat (show g < 256 by omega), show g ≠ 0xFF by omega, if_false]
  exact guarded_pass _ _ _ (by simp [show g ≤ 4 by omega])

/-- Settles O34: each row passes its checks, and what it leaves is its own operation's. -/
theorem outputCommands : Obligations.OutputCommands := by
  intro s h
  refine ⟨fun c hrun hp code => ⟨_, congrArg _ (row_aoutset c hrun hp code), codeSet_aout .., codeSet_shape ..⟩,
    fun c hv he r => ⟨_, congrArg _ (row_aoutrange c hv he r.isLt), ?_, fun hne => ?_⟩,
    fun c hv w first ps h1 h118 hf hs hb => ?_, fun c hrun w g period repeats hr hp hpts hz => ?_,
    fun c g => ⟨_, congrArg _ (row_wavestop c g.isLt), ?_⟩⟩
  · unfold rangeSet
    split
    · next e => rw [e]
    · rfl
  · rw [rangeSet, if_neg (Ne.symm hne)]
    rfl
  · rw [points_getElem] at hf
    refine ⟨_, congrArg _ (row_waveload c hv w.isLt h1 h118 hf hs hb), rfl, ?_, fun k hk => ?_⟩
    · rw [points_getElem, points_getElem]
      exact vget_vset_same _ _ _ w.isLt
    · rw [points_getElem, points_getElem]
      exact vget_vset_other _ _ _ (Fin.val_ne_of_ne hk.symm)
  · rw [points_getElem] at hpts
    refine ⟨_, congrArg _ (row_waveplay c hrun w.isLt g.isLt hr hp hpts hz), ?_⟩
    rw [play_getElem]
    exact playStart_play s g.isLt ..
  · rw [play_getElem]
    exact (playEnd_ends s g.isLt _ false).1

/-! ### Points of a waveform and the level of CLR_N (18 R782, R799, R801) -/

theorem pointSend_wave (s : State) (g : Nat) : (pointSend s g).wave = s.wave ∧ (pointSend s g).log = s.log := by
  unfold pointSend
  split
  · exact ⟨rfl, rfl⟩
  · exact ⟨biasTo_wave .., biasTo_log ..⟩

/-- A target whose point has changed, the new one sent. -/
theorem pointSend_modPlay (s : State) {g : Nat} (hg : g < 5) (f : Play → Play) :
    playOf (pointSend (modPlay s g f) g) g = f (playOf s g) ∧ (pointSend (modPlay s g f) g).log = s.log := by
  obtain ⟨hw, hl⟩ := pointSend_wave (modPlay s g f) g
  exact ⟨by rw [playOf, hw]; exact playOf_modPlay_same s hg f, hl⟩

section
variable {s : State} {g : Nat} (hp : (playOf s g).st = .playing) (hd : (playOf s g).due ≤ s.t.up)

include hp hd in
theorem wavePoint_next (h : (playOf s g).point + 1 < (wavePts s (playOf s g).wave).length) : wavePoint s g =
    pointSend (modPlay s g (fun p => { p with point := p.point + 1, due := p.due + p.period })) g := by
  simp [wavePoint, hp, Nat.not_lt.mpr hd, h]

include hp hd in
theorem wavePoint_again (h : (wavePts s (playOf s g).wave).length ≤ (playOf s g).point + 1) (hn : (playOf s g).passes ≠ 1) :
    wavePoint s g =
      pointSend (modPlay s g (fun p => { p with point := 0, passes := p.passes - 1, due := p.due + p.period })) g := by
  simp [wavePoint, hp, Nat.not_lt.mpr hd, Nat.not_lt.mpr h, hn]

include hp hd in
theorem wavePoint_last (h : (wavePts s (playOf s g).wave).length ≤ (playOf s g).point + 1) (h1 : (playOf s g).passes = 1) :
    wavePoint s g = playEnd s g orgUnit false := by
  simp [wavePoint, hp, Nat.not_lt.mpr hd, Nat.not_lt.mpr h, h1]

end

/-- The level of CLR_N in force becomes `high`, with its entry. -/
def clearTaken (s : State) (high : Bool) : State :=
  logE { s with aout := { s.aout with clrNow := high, clrLow := !high, clrCount := s.aout.clrCount + (if high then 0 else 1) } }
    orgPin 0x0058 0 (flagW (!high)) (flagW high)

theorem execClrNLevel_taken {s : State} (ha : alive s = true) {high : Bool} (hw : s.aout.clrWas = high) (hl : s.aout.clrLow = high) :
    execClrNLevel high s = .next (clearTaken s high) := by
  unfold execClrNLevel
  rw [if_neg (by simp [ha])]
  extract_lets _ s1 _ s2
  rw [if_neg (by simp [hw, hl])]
  cases high <;> rfl

theorem execClrNLevel_noted {s : State} (ha : alive s = true) {high : Bool} (h : s.aout.clrWas ≠ high ∨ s.aout.clrLow ≠ high) :
    execClrNLevel high s = .next { s with aout.clrNow := high } := by
  simp [execClrNLevel, ha, h]

/-- Settles O53: the three ways a point's time can come, and the two a sample of CLR_N can. -/
theorem waveformAndClearEvents : Obligations.WaveformAndClearEvents := by
  intro s ha
  refine ⟨fun g => ?_, fun high => ⟨fun hw hl => ⟨_, execClrNLevel_taken ha hw hl, rfl, rfl⟩, fun h => execClrNLevel_noted ha h⟩⟩
  have hrun : exec (.wavePoint g) s = .next (wavePoint s g) := congrArg Host.Outcome.next (if_pos ha)
  simp only [play_getElem, hrun]
  intro hp hd
  refine ⟨fun h => ⟨_, rfl, ?_⟩, fun h hn => ⟨_, rfl, ?_⟩, fun h h1 => ⟨_, rfl, ?_⟩⟩
  · rw [wavePoint_next hp hd h]
    exact pointSend_modPlay s g.isLt _
  · rw [wavePoint_again hp hd h hn]
    exact pointSend_modPlay s g.isLt _
  · rw [wavePoint_last hp hd h h1]
    obtain ⟨hst, hcode⟩ := playEnd_ends s g.isLt orgUnit false
    exact ⟨hst, fun h0 => hcode h0 (by simp [isPlaying, hp])⟩

end Sys2Proof.Machine
end

section
/-! SUPPORT. The ends of a pair and of a join (19 R826, R829, R865), TWINJOIN and TWINSPLIT (19 R825, R826, R863). -/

namespace Sys2Proof.Machine

/-- What holds before a run over numbers and is kept by each step holds after it. -/
theorem forEach_invariant {P : State → Prop} {f : State → Nat → State} (hf : ∀ s i, P s → P (f s i)) (ns : List Nat) {s : State}
    (hs : P s) : P (forEach s ns f) := by
  unfold forEach
  induction ns generalizing s with
  | nil => exact hs
  | cons n ns ih => exact ih (hf s n hs)

/-! ### What the rules and the outputs of a unit in no pair leave of the pair -/

@[simp] theorem alarmEvent_twin (s : State) (r : Nat) (was next : AlarmSt) (value : Word) :
    (alarmEvent s r was next value).twin = s.twin := by
  unfold alarmEvent
  split_ifs <;> simp

theorem alarmTo_twin {s : State} (h : s.twin.mode = 0) (r : Nat) (next : AlarmSt) (o : BitVec 16) (value : Word) :
    (alarmTo s r next o value).twin = s.twin := by
  simp [alarmTo, h, isMirror]

@[simp] theorem playEnd_twin (s : State) (g : Nat) (o : BitVec 16) (closing : Bool) : (playEnd s g o closing).twin = s.twin := by
  unfold playEnd
  split_ifs <;> rfl

@[simp] theorem aoutOff_twin (s : State) (o : BitVec 16) (write : Bool) : (aoutOff s o write).twin = s.twin := by
  unfold aoutOff
  split_ifs <;> simp

theorem splitLeadRules_twin {s : State} (h : s.twin.mode = 0) (mode : Nat) : (splitLeadRules s mode).twin = s.twin := by
  refine forEach_invariant (P := fun x => x.twin = s.twin) (fun x r hx => ?_) _ rfl
  have hm : x.twin.mode = 0 := hx ▸ h
  split_ifs
  · rw [alarmTo_twin hm, hx]
  · exact hx
  · exact hx

theorem splitTailRules_twin {s : State} (h : s.twin.mode = 0) (mode : Nat) : (splitTailRules s mode).twin = s.twin := by
  refine forEach_invariant (P := fun x => x.twin = s.twin) (fun x r hx => ?_) _ rfl
  have hm : x.twin.mode = 0 := hx ▸ h
  dsimp only
  split_ifs
  · exact (alarmTo_twin hm ..).trans hx
  · exact hx

/-! ### A pair split (19 R865, R866) -/

/-- The unit is in no pair any more; `link` tells the link's loss from a request. -/
structure Unpaired (link : Bool) (s t : State) : Prop where
  mode      : t.twin.mode = 0
  partner   : t.twin.partner = 0
  active    : t.twin.active = false
  byRequest : t.twin.byRequest = !link
  byLink    : t.twin.byLink = link
  unit      : t.u = s.u
  config    : t.cfg = s.cfg

theorem twinSplit_unpaired {s : State} (h : s.twin.mode ≠ 0) (o : BitVec 16) (link : Bool) : Unpaired link s (twinSplit s o link) := by
  have k : Keeps s.pending (· = s.cfg) (· = s.u) False (twinSplit s o link) := twinSplit_keeps (Keeps.self s)
  have htwin : ∃ x : TwinSt, (twinSplit s o link).twin = { x with
      mode := 0, partner := 0, active := false, byRequest := !link, byLink := link } := by
    unfold twinSplit
    rw [if_neg h]
    extract_lets mode lane _ _ s1 _ t late _ s2 _ s3
    have h2 : s2.twin.mode = 0 := rfl
    have h3 : s3.twin = t := splitTailRules_twin (s := { s2 with sched.bank := 0 }) h2 mode
    refine ⟨t, ?_⟩
    split_ifs
    · exact splitLeadRules_twin h2 mode
    · exact (aoutOff_twin ..).trans h3
    · exact h3
  obtain ⟨x, hx⟩ := htwin
  exact ⟨by rw [hx], by rw [hx], by rw [hx], by rw [hx], by rw [hx], k.unit, k.config⟩

/-! ### A join ended (19 R829) -/

theorem taskEnd_twin (s : State) (n status reason : Nat) (result : List Byte) : (taskEnd s n status reason result).twin = s.twin := by
  unfold taskEnd taskEndBy taskDone
  split
  · rfl
  · simp

theorem joinEnd_twin {s : State} {j : Join} (hj : s.twin.join = some j) (code : Nat) : (joinEnd s code).twin = { s.twin with
    join := none, active := false, joinResult := code, num := none, msgs := [], tx := [], rx := [], rxDead := false, rxDrop := false,
    lastLead := false } := by
  simp only [joinEnd, hj, taskEnd_twin]

theorem joinEnd_cfg (s : State) (code : Nat) : (joinEnd s code).cfg = s.cfg := (joinEnd_keeps (Keeps.self s)).config

theorem joinEndSend_cfg (s : State) (code : Nat) (msgs : List (List Byte)) : (joinEndSend s code msgs).cfg = s.cfg :=
  (joinEndSend_keeps (Keeps.self s)).config

theorem joinEndSend_ends {s : State} {j : Join} (hj : s.twin.join = some j) (code : Nat) (msgs : List (List Byte)) :
    (joinEndSend s code msgs).twin.join = none ∧ (joinEndSend s code msgs).twin.joinResult = code ∧
      (joinEndSend s code msgs).twin.mode = s.twin.mode := by
  simp only [joinEndSend, hj]
  split_ifs <;> rw [joinEnd_twin hj] <;> exact ⟨rfl, rfl, rfl⟩

/-- A lead's last message leaves by the link that stays up for it. -/
theorem joinEndSend_lead {s : State} {j : Join} (hj : s.twin.join = some j) (hl : j.lead = true) (code : Nat) (msgs : List (List Byte)) :
    (joinEndSend s code msgs).twin.active = true ∧ (joinEndSend s code msgs).twin.msgs = msgs := by
  simp [joinEndSend, hj, hl]

theorem joinEndSend_none {s : State} (hj : s.twin.join = none) (code : Nat) (msgs : List (List Byte)) : joinEndSend s code msgs = s := by
  simp [joinEndSend, hj]

/-! ### TWINJOIN (19 R825) -/

theorem row_twinjoin {s : State} {h : Hdr} (c : CanChange s h tuner) {mode partner : Byte} (hst : s.u.st = .idle ∨ s.u.st = .run)
    (hj : s.twin.join = none) (hmode : mode.toNat = 1 ∨ mode.toNat = 2)
    (hnear : partner.toNat = s.ring.peg + 1 ∨ partner.toNat + 1 = s.ring.peg) (hlo : 1 ≤ partner.toNat) (hhi : partner.toNat ≤ 60)
    (hroom : s.sched.tasks.length < 16) (hr : joinRefused s mode.toNat = false) :
    rowRun s h 0x40 [mode, partner] =
      answered (joinStart s (ctxOf s h) mode.toNat partner.toNat).1 h stAccepted [byteOf (nextTaskNum s)] := by
  have hrun : opRun s (ctxOf s h) 0x40 [mode, partner] = joinStart s (ctxOf s h) mode.toNat partner.toNat := by
    show opTwinjoin s (ctxOf s h) _ = _
    simp only [opTwinjoin, plByte_succ, plByte_zero, hr, Bool.false_eq_true, if_false]
    refine guarded_pass _ _ _ ?_
    simp [c.single, hj, hmode, hnear, hlo, hhi, tasksFull, hroom]
  exact row_answered c 0x40 _ (by decide) rfl rfl (by decide) (by decide) (by decide) rfl rfl
    (by rcases hst with e | e <;> rw [e] <;> rfl) (by decide) (by decide) hrun

/-! ### TWINSPLIT (19 R826, R863) -/

theorem slotAhead_shape (s : State) : slotAhead s = { s with cmd.replies := (slotAhead s).cmd.replies } := by
  unfold slotAhead
  split_ifs
  · split <;> rfl
  · rfl

/-- TWINSPLIT passes the checks of the packet at a lead. -/
theorem fate_twinsplit {s : State} {h : Hdr} (hm : s.twin.mode = 1 ∨ s.twin.mode = 2) (hb : h.bcast = false) (hlo : 1 ≤ h.src.toNat)
    (hhi : h.src.toNat ≤ 125) (hroom : repliesFull s = false) (hfresh : ∀ d, aget s.cmd.dups h.src.toNat = some d → d.seq ≠ h.seq)
    (hrole : tuner ≤ roleOf s h.src.toNat) : packetFate s (rowPkt h 0x41 []) = .run := by
  have ht : isTail s = false := by rcases hm with e | e <;> simp [isTail, e]
  have hs : ¬(h.src.toNat = 0 ∨ 125 < h.src.toNat) := by omega
  have hd : dupOf s (rowPkt h 0x41 []) = none := by
    simp only [dupOf, rowPkt]
    split
    · next d e => exact if_neg (hfresh d e)
    · rfl
  have hn : packetNames s (roleOf s h.src.toNat) 0x41 [] = none := by
    simp [packetNames, lenOk, ht, readNames, minRole, Nat.not_lt.mpr hrole]
  have hq : isQuery 0x41 [] = false := by decide
  have ho : (byteOf 0x41).toNat = 0x41 := by decide
  simp only [packetFate, hd]
  simp [rowPkt, hb, hs, hroom, hn, hq, ho]

section
variable {s : State} {h : Hdr} (ha : alive s = true) (hm : s.twin.mode = 1 ∨ s.twin.mode = 2) (hb : h.bcast = false)
  (hlo : 1 ≤ h.src.toNat) (hhi : h.src.toNat ≤ 125) (hroom : repliesFull s = false)
  (hfresh : ∀ d, aget s.cmd.dups h.src.toNat = some d → d.seq ≠ h.seq) (hrole : tuner ≤ roleOf s h.src.toNat)

include hm in
theorem partsOf_twinsplit : partsOf s 0x41 [] = (some [], none) := by
  rcases hm with e | e <;> simp [partsOf, isLead, e, sideOps, bothOps, spanParts]

include ha hm hb hlo hhi hroom hfresh hrole in
/-- At a lead TWINSPLIT waits for p = 0, and the tail is sent its SPLIT. -/
theorem row_twinsplit_waits (ht : s.cmd.taken = []) : rowRun s h 0x41 [] = awaiting (twinSend s 0x0E [0]) h 0x41 [] := by
  have hlead : isLead s = true := by rcases hm with e | e <;> simp [isLead, e]
  have hf := fate_twinsplit hm hb hlo hhi hroom hfresh hrole
  have htrial : takenTrial s = { s with cmd := { s.cmd with taken := [], replies := (takenTrial s).cmd.replies } } := by
    simp only [takenTrial, ht, List.foldl_nil]
    exact slotAhead_shape _
  have hft : packetFate { takenTrial s with cmd.replies := [] } (rowPkt h 0x41 []) = .run := by
    rw [htrial]
    exact fate_twinsplit hm hb hlo hhi rfl hfresh hrole
  have hp : partsOf (takenTrial s) (rowPkt h 0x41 []).opc.toNat (rowPkt h 0x41 []).payload = (some [], none) :=
    partsOf_twinsplit (by rw [htrial]; exact hm)
  simp only [rowRun, ha, hf, hlead, partsOf_twinsplit hm, packetTake, hft, hp]
  rfl

include hm hb hlo hhi hroom hfresh hrole in
/-- At p = 0 it splits the pair. -/
theorem execTaken_twinsplit (hw : stopPolicy s = false) : execTaken s { pkt := rowPkt h 0x41 [], verdict := none, fwd := none } =
    answered (twinSplit s (orgPkt h.src) false) h stDone [] := by
  have hne : s.twin.mode ≠ 0 := by omega
  have ho : (rowPkt h 0x41 []).opc.toNat = 0x41 := rfl
  have hrun : ownRun s (rowPkt h 0x41 []) none = opDone (twinSplit s (orgPkt h.src) false) [] := by
    simp only [ownRun, stepsRun, stopHeld]
    rw [stateAsked_other s h [] (by decide) (.inl (by decide))]
    have ht : stateTakes s.u.st 0x41 = true := by cases s.u.st <;> rfl
    simp only [ho, ht, hw]
    show opTwinsplit s _ [] = _
    rw [opTwinsplit, if_pos hne]
    rfl
  simp only [execTaken, packetEnd, fate_twinsplit hm hb hlo hhi hroom hfresh hrole, ho]
  rw [show (rowPkt h 0x41 []).payload = [] from rfl, partsOf_twinsplit hm, hrun]
  exact packetFinish_change _ h 0x41 [] stDone [] (by decide) (by decide) rfl

end

theorem row_twinsplit_single {s : State} {h : Hdr} (c : CanChange s h tuner) (hj : s.twin.join = none) :
    rowRun s h 0x41 [] = answered s h stDone [] := by
  refine row_answered c 0x41 [] (by decide) rfl rfl (by decide) (by decide) (by decide) rfl rfl (by cases s.u.st <;> rfl) (by decide)
    (by decide) ?_
  show opTwinsplit s (ctxOf s h) [] = _
  rw [opTwinsplit, if_neg (by simp [c.single]), joinEndSend_none hj]
  rfl

/-- Settles O35: the join starts as a task; a lead's split waits, and what it leaves `twinSplit_unpaired` says. -/
theorem twinCommands : Obligations.TwinCommands := by
  intro s h
  refine ⟨fun mode partner c hst hj hmode hnear hlo hhi hroom hr =>
      ⟨_, congrArg _ (row_twinjoin c hst hj hmode hnear hlo hhi hroom hr), rfl, c.single, ?_, _, rfl, rfl, rfl, rfl, rfl⟩,
    fun ha hm hb hlo hhi hroom hfresh hrole hw =>
      ⟨fun ht => congrArg _ (row_twinsplit_waits ha hm hb hlo hhi hroom hfresh hrole ht), _,
        execTaken_twinsplit hm hb hlo hhi hroom hfresh hrole hw, ?_⟩,
    fun c hj => congrArg _ (row_twinsplit_single c hj)⟩
  · exact List.length_append
  · obtain ⟨hmode, hpartner, hactive, hreq, -, hunit, hcfg⟩ := twinSplit_unpaired (s := s) (by omega) (orgPkt h.src) false
    exact ⟨hmode, hpartner, hactive, hreq, hunit, hcfg⟩

end Sys2Proof.Machine
end

section
/-! SUPPORT. The pole link: joining by message (19 R826–R829, R848, R863, R864), and the words of an exchange (19 R819, R861). -/

namespace Sys2Proof.Machine

/-! ### HELLO (19 R826) -/

section
variable {s : State} {j : Join} (hj : s.twin.join = some j) (m : Hello)

/-- The partner's HELLO noted. -/
def helloKept (s : State) (j : Join) (m : Hello) : State :=
  { s with twin := { s.twin with join := some { j with hello := some m }, partnerSt := m.state, serial := m.serial } }

/-- What a unit that joins answers a HELLO with. -/
def helloReply (s : State) (j : Join) : List (List Byte) := if j.lead then [] else [twinMsg 0x01 (helloBytes (helloOf s j))]

include hj in
theorem helloTake_good (h : joinFail s j m = none) : helloTake s m =
    { helloKept s j m with twin.msgs := s.twin.msgs ++ helloReply s j } := by
  simp only [helloTake, hj, h]
  rfl

include hj in
theorem helloTake_fails {code : Nat} (h : joinFail s j m = some code) : helloTake s m =
    if j.lead then joinEnd (helloKept s j m) code else joinEndSend (helloKept s j m) code (helloReply s j) := by
  simp only [helloTake, hj, h]
  rfl

include hj in
theorem helloTake_ends {code : Nat} (h : joinFail s j m = some code) : (helloTake s m).twin.join = none ∧
    (helloTake s m).twin.joinResult = code ∧ (helloTake s m).twin.mode = s.twin.mode ∧ (helloTake s m).cfg = s.cfg := by
  have hk : (helloKept s j m).twin.join = some { j with hello := some m } := rfl
  rw [helloTake_fails hj m h]
  split
  · rw [joinEnd_twin hk, joinEnd_cfg]
    exact ⟨rfl, rfl, rfl, rfl⟩
  · obtain ⟨hjoin, hcode, hmode⟩ := joinEndSend_ends hk code (helloReply s j)
    exact ⟨hjoin, hcode, hmode, joinEndSend_cfg ..⟩

end

/-! ### CONF, JOIN and the commit (19 R827–R829, R848) -/

theorem confTake_copy {s : State} {j : Join} (hj : s.twin.join = some j) (hm : j.mode = 2) (hl : j.lead = false) (ps : List (Nat × Word)) :
    confTake s ps = ps.foldl (fun s p => writeParam s p.1 orgTwin p.2) s := by
  simp [confTake, hj, hm, hl]

theorem confTake_shared {s : State} (hj : s.twin.join = none) (ht : isTail s = true) {id : Nat} (hp : id / 256 = 0x31)
    (hi : captShared (id % 256) = true) (w : Word) :
    confTake s [(id, w)] = { s with twin.leadCapt := aset s.twin.leadCapt id w } := by
  simp [confTake, hj, ht, confOne, hp, hi]

theorem joinTake_commits {s : State} {j : Join} (hj : s.twin.join = some j) (hl : j.lead = false) {mode : Nat} (hm : mode = j.mode)
    (sfn : BitVec 16) : joinTake s sfn mode = twinSend
      { s with twin.join := some { j with commit := some (s.t.sf + (sfn - (sfnIn s 0).setWidth 16).toNat) } } 0x05 [0] := by
  simp [joinTake, hj, hl, hm]

theorem joinCommit_pairs (s : State) (j : Join) : (joinCommit s j).twin.join = none ∧
    (joinCommit s j).twin.mode = (if j.lead then j.mode else j.mode + 2) ∧ (joinCommit s j).twin.partner = j.peg ∧
    (joinCommit s j).twin.joinResult = 0 ∧ (joinCommit s j).cfg = s.cfg := by
  have hcfg : (joinCommit s j).cfg = s.cfg := (joinCommit_keeps (Keeps.self s)).config
  have htwin : ∃ x : TwinSt, (joinCommit s j).twin = { x with
      join := none, mode := if j.lead then j.mode else j.mode + 2, partner := j.peg, joinResult := 0 } := by
    unfold joinCommit
    extract_lets mode s1 s2 s3 _ s4 s5
    have h5 : s5.twin = s4.twin := taskEnd_twin ..
    split
    · exact ⟨{ s5.twin with msgs := s5.twin.msgs ++ [_] }, by simp only [twinSend, h5]; rfl⟩
    · exact ⟨s4.twin, h5⟩
  obtain ⟨x, hx⟩ := htwin
  exact ⟨by rw [hx], by rw [hx], by rw [hx], by rw [hx], hcfg⟩

section
variable {s : State} {j : Join} (hj : s.twin.join = some j)

include hj in
theorem execPairCommit_due (hp : s.t.p = 0) {c : Nat} (hc : j.commit = some c) (hd : c ≤ s.t.sf) : execPairCommit s =
    .next (if j.lead = true ∧ (!j.acked) = true then joinEndSend s 8 [twinMsg 0x0E [1]] else joinCommit s j) := by
  simp only [execPairCommit, hj, hp, hc, Option.any_some, hd, decide_true, and_self, if_true]

include hj in
theorem execJoinTimeout_eq : execJoinTimeout s = .next (if j.since + pNat s (idTwin 0x10) ≤ s.t.sf then joinEnd s 1 else s) := by
  simp only [execJoinTimeout, hj]

end

/-! ### SPLIT (19 R863, R864) -/

theorem splitTake_join {s : State} {j : Join} (hj : s.twin.join = some j) (cause : Byte) :
    splitTake s cause.toNat = joinEnd s (if cause = 1 then 8 else 10) := by
  have hc : cause.toNat = 1 ↔ cause = 1 := ⟨fun e => BitVec.eq_of_toNat_eq e, fun e => by rw [e]; rfl⟩
  simp only [splitTake, hj, Option.isSome_some, if_true, hc]

theorem splitTake_later {s : State} (hj : s.twin.join = none) (hm : s.twin.mode ≠ 0) :
    splitTake s 0 = { s with twin := { s.twin with splitDue := some orgTwin, splitAhead := s.twin.fwdIn.length } } := by
  simp [splitTake, hj, hm]

theorem splitTake_now {s : State} (hj : s.twin.join = none) (hm : s.twin.mode ≠ 0) {cause : Byte} (hc : cause ≠ 0) :
    splitTake s cause.toNat = twinSplit s orgTwin true := by
  have hn : cause.toNat ≠ 0 := fun e => hc (BitVec.eq_of_toNat_eq e)
  simp [splitTake, hj, hm, hn]

/-! ### Words (19 R819) -/

theorem crc2_lt (k x : Nat) : crc2 k x < 4 := by
  suffices h : ∀ reg < 2 ^ 2, crcBits 2 0b11 k x reg < 2 ^ 2 from h _ (by decide)
  induction k with
  | zero => exact fun _ h => h
  | succ k ih =>
    refine fun reg _ => ih _ ?_
    unfold crcBit
    extract_lets top shifted
    split
    · exact Nat.xor_lt_two_pow (Nat.mod_lt _ (by decide)) (by decide)
    · exact Nat.mod_lt _ (by decide)

theorem packFlags_four_lt (f : Nat → Bool) : packFlags ((List.range 4).map f) < 16 := by
  have h0 := b2n_le (f 0)
  have h1 := b2n_le (f 1)
  have h2 := b2n_le (f 2)
  have h3 := b2n_le (f 3)
  show b2n (f 0) + 2 * (b2n (f 1) + 2 * (b2n (f 2) + 2 * (b2n (f 3) + 2 * 0))) < 16
  omega

/-- What a word carries above its check: a lead's requests, the votes and the byte. -/
def poleBody (s : State) (num : Nat) (data : Byte) : Nat :=
  (if isLead s then 2 * b2n (alertOwn s) + b2n (faultReq s) else 0) * 4096 +
    packFlags ((List.range 4).map (fun i => voteBit s (num % 4 * 4 + i))) * 256 + data.toNat

theorem poleBody_data (s : State) (num : Nat) (data : Byte) : BitVec.ofNat 8 (poleBody s num data) = data := by
  refine BitVec.eq_of_toNat_eq ?_
  rw [BitVec.toNat_ofNat, poleBody]
  have := data.isLt
  omega

theorem poleBody_lt (s : State) (num : Nat) (data : Byte) :
    poleBody s num data < 2 ^ 14 ∧ (leadSide s = false → poleBody s num data < 2 ^ 12) := by
  have hv := packFlags_four_lt (fun i => voteBit s (num % 4 * 4 + i))
  have hd := data.isLt
  have ha := b2n_le (alertOwn s)
  have hf := b2n_le (faultReq s)
  unfold poleBody
  constructor
  · split <;> omega
  · intro hl
    have hlead : isLead s = false := by
      cases h : isLead s with
      | false => rfl
      | true => simp [leadSide, h] at hl
    simp only [hlead, Bool.false_eq_true, if_false]
    omega

theorem poleWord_toNat (s : State) (num : Nat) (data : Byte) : (poleWord s num data).toNat =
    poleBody s num data * 4 + crc2 (if leadSide s then 14 else 12) (poleBody s num data) := by
  have hx := (poleBody_lt s num data).1
  have hw : poleWord s num data = BitVec.ofNat 16
      (poleBody s num data * 4 + crc2 (if leadSide s then 14 else 12) (poleBody s num data)) := by
    unfold poleWord
    cases leadSide s <;> rfl
  have hc := crc2_lt (if leadSide s then 14 else 12) (poleBody s num data)
  rw [hw, BitVec.toNat_ofNat]
  exact Nat.mod_eq_of_lt (by omega)

/-- A word of one side passes the check of the other, and carries its byte. -/
theorem poleWord_good {s o : State} (ho : leadSide o = !leadSide s) (hc : o.ring.clk ≠ .backup) (num : Nat) (data : Byte) :
    wordGood o (poleWord s num data) = true ∧ BitVec.ofNat 8 ((poleWord s num data).toNat / 4) = data := by
  have hw := poleWord_toNat s num data
  have hx := poleBody_lt s num data
  have hcrc := crc2_lt (if leadSide s then 14 else 12) (poleBody s num data)
  have hdiv : (poleWord s num data).toNat / 4 = poleBody s num data := by omega
  have hmod : (poleWord s num data).toNat % 4 = crc2 (if leadSide s then 14 else 12) (poleBody s num data) := by omega
  refine ⟨?_, by rw [hdiv, poleBody_data]⟩
  simp only [wordGood, if_neg hc, ho, hdiv, hmod]
  cases hl : leadSide s with
  | true => simp
  | false =>
    have hm : poleBody s num data % 4096 = poleBody s num data := Nat.mod_eq_of_lt (hx.2 hl)
    simp [hm]

/-! ### The messages -/

/-- Settles O58: each message by what its own operation leaves of the join and of the pair. -/
theorem joinMessages : Obligations.JoinMessages := by
  intro s
  refine ⟨fun j m hj => ⟨fun h => ⟨_, congrArg Host.Outcome.next (helloTake_good hj m h), rfl, rfl, rfl, rfl⟩,
      fun code h => ⟨_, rfl, helloTake_ends hj m h⟩⟩,
    fun j ps hj hm hl => congrArg _ (confTake_copy hj hm hl _),
    fun id w hj ht hp hi => ⟨_, congrArg Host.Outcome.next (confTake_shared hj ht hp hi w), ?_, rfl⟩,
    fun j sfn mode hj hl hm => ⟨_, congrArg Host.Outcome.next (joinTake_commits hj hl hm sfn), rfl, rfl, rfl⟩,
    fun j c hj hp hc hd => ⟨fun h => ⟨_, (execPairCommit_due hj hp hc hd).trans (congrArg _ (if_neg ?_)), joinCommit_pairs s j⟩,
      fun hl hn => ⟨_, (execPairCommit_due hj hp hc hd).trans (congrArg _ (if_pos ⟨hl, by rw [hn]; rfl⟩)), ?_⟩⟩,
    fun j hj => ⟨fun h => ⟨_, (execJoinTimeout_eq hj).trans (congrArg _ (if_pos h)), ?_⟩,
      fun h => (execJoinTimeout_eq hj).trans (congrArg _ (if_neg (Nat.not_le.mpr h)))⟩,
    fun hj hm => ⟨congrArg _ (splitTake_later hj hm), fun cause hc => ⟨_, congrArg Host.Outcome.next (splitTake_now hj hm hc), ?_⟩⟩,
    fun w => ⟨fun ha hl => congrArg _ (if_pos (by simp [ha, hl])), fun hl => congrArg _ (if_neg (by simp [hl]))⟩,
    fun j cause hj => ⟨_, congrArg Host.Outcome.next (splitTake_join hj cause), ?_⟩,
    fun hc w => by simp [wordGood, hc],
    fun o num data ho hc => poleWord_good ho hc num data⟩
  · simp [aget_aset]
  · rintro ⟨hl, hn⟩
    rcases h with e | e <;> simp_all
  · obtain ⟨hjoin, hcode, hmode⟩ := joinEndSend_ends hj 8 [twinMsg 0x0E [1]]
    obtain ⟨hactive, hmsgs⟩ := joinEndSend_lead hj hl 8 [twinMsg 0x0E [1]]
    exact ⟨hjoin, hcode, hmode, hactive, hmsgs⟩
  · rw [joinEnd_twin hj]
    exact ⟨rfl, rfl, rfl, rfl⟩
  · obtain ⟨hmode, -, hactive, -, hlink, hunit, hcfg⟩ := twinSplit_unpaired hm orgTwin true
    exact ⟨hmode, hactive, hlink, hunit, hcfg⟩
  · rw [joinEnd_twin hj, joinEnd_cfg]
    exact ⟨rfl, rfl, rfl, rfl⟩

end Sys2Proof.Machine
end

section
/-! SUPPORT. A packet with a part at the tail (19 R828, R836–R841): the check, the verdict, the decision, and the answer. -/

namespace Sys2Proof.Machine

/-! ### The records of forwarded packets -/

theorem fwdOf_handle {s : State} {h : Byte} {f : Fwd} (hf : fwdOf s h = some f) : f.handle = h := by
  simpa using List.find?_some hf

/-- A record changed is found changed, where its handle stays. -/
theorem fwdOf_fwdMod {s : State} {h : Byte} {f : Fwd} {g : Fwd → Fwd} (hf : fwdOf s h = some f)
    (hg : ∀ f, (g f).handle = f.handle) :
    fwdOf (fwdMod s h g) h = some (g f) := by
  unfold fwdOf fwdMod at *
  generalize s.twin.fwd = l at hf
  show (l.map _).find? _ = _
  induction l with
  | nil => cases hf
  | cons x l ih =>
    by_cases hx : x.handle = h
    · obtain rfl : x = f := by simpa [List.find?_cons, hx] using hf
      simp [hx, hg]
    · have hb : (x.handle == h) = false := beq_eq_false_iff_ne.mpr hx
      simp only [List.find?_cons, hb, List.map_cons, if_neg hx] at hf ⊢
      exact ih hf

/-! ### The lead: VERDICT, ACK and the decision (19 R836, R837) -/

theorem execTwinVerdict_acts {s : State} (hl : isLead s = true) (hp : s.t.p ≤ 440) (h status pos : Byte) :
    execTwinVerdict h status pos s =
      .next (fwdMod s h (fun f => if f.commit.isNone then { f with verdict := some (status, pos) } else f)) := by
  simp only [execTwinVerdict, hl, verdictTake, hp, if_true]

theorem execTwinAck_acts {s : State} (hl : isLead s = true) (hp : s.t.p ≤ 496) {h : Byte} (hh : h ≠ 0) :
    execTwinAck h s = .next (fwdMod s h (fun f => { f with acked := true })) := by
  simp only [execTwinAck, hl, Bool.true_or, if_true, ackTake, if_neg hh, if_pos hp]

/-- The one packet taken and forwarded is decided. -/
theorem leadDecideOne_decides {s x : State} {k : Taken} {h : Byte} {f : Fwd} (hk : k.fwd = some h) (hf : fwdOf s h = some f) :
    ∃ (ok : Bool) (own : Option Answer), (leadDecideOne (s, x) k).1 =
        twinSend (fwdMod s h (fun f => { f with commit := some ok, judged := own })) 0x04 [h, if ok then 1 else 0] ∧
      (f.verdict = none → ok = false) := by
  simp only [leadDecideOne, hk, hf]
  exact ⟨_, _, rfl, fun hv => by rw [hv, Bool.and_false]⟩

theorem execLeadPacketDecide_acts {s : State} (hl : isLead s = true) (hp : s.t.p = 440) {h : Byte} {f : Fwd}
    (hf : fwdOf s h = some f) (hc : f.commit = none) : execLeadPacketDecide s = .next (leadDecide s) := by
  have hany : s.twin.fwd.any (fun f => f.commit.isNone) = true :=
    List.any_eq_true.mpr ⟨f, List.mem_of_find?_eq_some hf, by rw [hc]; rfl⟩
  simp [execLeadPacketDecide, hl, hp, hany]

/-! ### ANSWER (19 R839) -/

theorem rejectNote_replies (s : State) (p : Packet) (a : Answer) :
    (rejectNote s p a).cmd.replies = s.cmd.replies ∧ (rejectNote s p a).twin = s.twin := by
  unfold rejectNote rejectEvent rejectLog queueEvent
  split_ifs <;> exact ⟨rfl, rfl⟩

theorem laneOpen_replies (s : State) (f : Fwd) (a : Answer) :
    (laneOpen s f a).cmd.replies = s.cmd.replies ∧ (laneOpen s f a).twin = s.twin := by
  unfold laneOpen
  split
  · exact ⟨rfl, rfl⟩
  · exact ⟨rfl, rfl⟩

/-- A reply that waits for the tail's answer, with it. -/
def replyFilled (h : Byte) (a : Answer) (r : Reply) : Reply :=
  if r.wait = some h then { r with ans := if r.ans.status.toNat = stSeqDup then dupAnswer a else a, wait := none } else r

/-- An answer in hand whole fills the replies that wait for it, and ends its record. -/
theorem fwdRelease_whole (s : State) {f : Fwd} (hfull : fwdFull f = true) :
    (fwdRelease s f).cmd.replies = s.cmd.replies.map (replyFilled f.handle (fwdWhole s f)) ∧
      (fwdRelease s f).twin.fwd = s.twin.fwd.filter (fun x => x.handle != f.handle) := by
  have hlen : min f.rlen 13 ≤ f.data.length := Nat.le_trans (Nat.min_le_left ..) (by simpa [fwdFull] using hfull)
  unfold fwdRelease
  extract_lets a ready mine free note _ s1 _ s2
  have hready : ready = true := by simp [ready, hlen, hfull]
  have hfree : free = replyFilled f.handle a := by
    funext r
    simp only [free, hready, Bool.true_and, decide_eq_true_eq]
    rfl
  have h1 : s1.cmd.replies = s.cmd.replies.map (replyFilled f.handle a) := by rw [← hfree]
  have h2 : s2.cmd.replies = s1.cmd.replies ∧ s2.twin = s1.twin := by
    simp only [s2]
    split
    · exact ⟨rfl, rfl⟩
    · exact rejectNote_replies ..
  obtain ⟨hreplies, htwin⟩ := h2
  simp only [hfull, Bool.not_true, Bool.false_eq_true, if_false]
  rw [(laneOpen_replies ..).1, (laneOpen_replies ..).2]
  exact ⟨hreplies.trans h1, by rw [htwin]⟩

theorem patch_whole (d : List Byte) : patch [] 0 d = d := by simp [patch]

/-- The first and only piece of an answer. -/
theorem answerTake_whole {s : State} {h : Byte} {f : Fwd} {a : Answer} (hf : fwdOf s h = some f) (hd : f.done = some a)
    (he : f.data = []) (ho : f.pkt.opc ≠ 0x02) (status : Byte) {data : List Byte} (hl : data.length < 256) :
    (answerTake s h status (byteOf data.length) 0 data).cmd.replies =
        s.cmd.replies.map (replyFilled h { status := status, data := data }) ∧
      fwdOf (answerTake s h status (byteOf data.length) 0 data) h = none := by
  have hh := fwdOf_handle hf
  have hrun : answerTake s h status (byteOf data.length) 0 data =
      fwdRelease (fwdMod s h (fun _ => { f with status := status, rlen := data.length, data := data }))
        { f with status := status, rlen := data.length, data := data } := by
    simp [answerTake, hf, hd, he, byteOf_toNat hl, patch_whole]
  have hopc : f.pkt.opc.toNat ≠ 2 := fun e => ho (BitVec.eq_of_toNat_eq e)
  have hwhole : fwdWhole (fwdMod s h (fun _ => { f with status := status, rlen := data.length, data := data }))
      { f with status := status, rlen := data.length, data := data } = { status := status, data := data } := by
    simp [fwdWhole, hopc]
  obtain ⟨hreplies, hfwd⟩ := fwdRelease_whole (fwdMod s h (fun _ => { f with status := status, rlen := data.length, data := data }))
    (f := { f with status := status, rlen := data.length, data := data }) (by simp [fwdFull])
  rw [hwhole] at hreplies
  rw [hrun]
  refine ⟨hh ▸ hreplies, ?_⟩
  rw [fwdOf, hfwd, List.find?_filter, List.find?_eq_none]
  simp [hh]

/-! ### The ACK of a JOIN (19 R828) -/

theorem execTwinAck_join {s : State} {j : Join} (hj : s.twin.join = some j) :
    execTwinAck 0 s = .next { s with twin.join := some (joinAcked s j) } := by
  simp [execTwinAck, ackTake, hj]

theorem joinAcked_early {s : State} {j : Join} {c : Nat} (hc : j.commit = some c)
    (h : s.t.sf + 1 < c ∨ s.t.sf + 1 = c ∧ s.t.p ≤ 496) : joinAcked s j = { j with acked := true } := by
  simp [joinAcked, hc, h]

theorem joinAcked_late {s : State} {j : Join} {c : Nat} (hc : j.commit = some c)
    (h : c < s.t.sf + 1 ∨ s.t.sf + 1 = c ∧ 496 < s.t.p) : joinAcked s j = j := by
  rw [joinAcked, hc, if_neg]
  simp only [Option.any_some, Bool.or_eq_true, Bool.and_eq_true, decide_eq_true_eq, beq_iff_eq]
  omega

/-- Settles O59: each message finds its record by the handle, and changes it alone. -/
theorem forwardedPackets : Obligations.ForwardedPackets := by
  intro s h
  refine ⟨fun ht client seq opc pl => ⟨_, _, _, _, congrArg Host.Outcome.next (if_pos ht), rfl, rfl, rfl, rfl, ?_, rfl, rfl⟩,
    fun ht apply => congrArg Host.Outcome.next (if_pos ht),
    fun hl => ⟨fun f status pos hp hf hc => ⟨_, execTwinVerdict_acts hl hp h status pos, rfl, ?_⟩,
      fun f hp hh hf => ⟨_, execTwinAck_acts hl hp hh, rfl, fwdOf_fwdMod hf fun _ => rfl⟩,
      fun k f hp htk hk hf hc => ?_, fun f a status data hf hd he ho hlen => ?_⟩,
    fun j c hj hc => ⟨fun he => ?_, fun hlate => ?_⟩⟩
  · exact decide_eq_true_iff
  · have hone : (if f.commit.isNone then { f with verdict := some (status, pos) } else f) =
        { f with verdict := some (status, pos) } := by simp [hc]
    have hg := fwdOf_fwdMod (g := fun f => if f.commit.isNone then { f with verdict := some (status, pos) } else f) hf
      (fun f => by split <;> rfl)
    rw [hg, hone]
  · obtain ⟨ok, own, hdec, hv⟩ := leadDecideOne_decides (x := slotAhead s) hk hf
    have hrun : leadDecide s = (leadDecideOne (s, slotAhead s) k).1 := by rw [leadDecide, htk]; rfl
    refine ⟨_, ok, execLeadPacketDecide_acts hl hp hf hc, ?_⟩
    rw [hrun, hdec]
    exact ⟨⟨own, fwdOf_fwdMod hf fun _ => rfl⟩, rfl, hv, rfl⟩
  · obtain ⟨hreplies, hnone⟩ := answerTake_whole hf hd he ho status hlen
    exact ⟨_, congrArg Host.Outcome.next (if_pos hl), hnone, hreplies⟩
  · exact (execTwinAck_join hj).trans (by rw [joinAcked_early hc he])
  · exact (execTwinAck_join hj).trans (by rw [joinAcked_late hc hlate, ← hj])

end Sys2Proof.Machine
end

section
/-! SUPPORT. A RULE message at a Span lead whose Logbook has only the place of LOG_FULL left (07 R339, 19 R852). -/

namespace Sys2Proof.Machine

@[simp] theorem alarmEvent_log (s : State) (r : Nat) (was next : AlarmSt) (value : Word) :
    (alarmEvent s r was next value).log = s.log := by
  unfold alarmEvent
  split_ifs <;> simp

/-- Under STOP the last place takes LOG_FULL, whatever entry was to be written. -/
theorem logTag_last {s : State} (hp : stopPolicy s = true) (hl : s.log.entries.length = 4095) (tg : BitVec 48 × BitVec 16)
    (o : BitVec 16) (ev sub : Nat) (old new : Word) :
    ∃ e : Entry, (logTag s tg o ev sub old new).log.entries = s.log.entries ++ [e] ∧ e.event = 0x000A := by
  simp only [logTag, hp, if_true, LogSt.writeStop, hl, Nat.lt_irrefl, if_false, LogSt.append,
    show ¬ 4096 ≤ 4095 by decide]
  exact ⟨_, rfl, rfl⟩

/-- So the transition a RULE message tells of leaves no entry there. -/
theorem farRuleNote_last {s : State} (hp : stopPolicy s = true) (hl : s.log.entries.length = 4095) (r : Nat) (was next : AlarmSt)
    (up : Nat) (value : Word) :
    ∃ e : Entry, (farRuleNote s r was next up value).log.entries = s.log.entries ++ [e] ∧ e.event = 0x000A := by
  obtain ⟨e, he, hev⟩ := logTag_last hp hl (tagOf s up) orgUnit 0x0070 r (natW (alarmCode was)) (natW (alarmCode next))
  refine ⟨e, ?_, hev⟩
  simp only [farRuleNote, alarmEvent_log]
  exact he

/-- The one transition that waits takes its tick and value from the RULE message that tells of it. -/
theorem execTwinRule_completes {s : State} {w : RuleWait} (hw : s.twin.ruleWait = [w]) {r st : Byte} (hf : farRule s r.toNat = true)
    (hst : st.toNat < 2) (hr : w.rule = r.toNat) (hn : w.next = .raised ↔ st.toNat = 1) (tick value : Word) :
    execTwinRule r st tick value s = .next (farRuleNote { s with twin.ruleWait := [] } r.toNat w.was w.next (tickNear s tick) value) := by
  have hl : isSpanLead s = true := by
    cases h : isSpanLead s with
    | true => rfl
    | false => simp [farRule, h] at hf
  have hup : ((w.next == .raised) == (st.toNat == 1)) = true := by
    by_cases h : w.next = .raised <;> simp [h, ← hn]
  simp [execTwinRule, hl, ruleTake, hf, Nat.not_le.mpr hst, hw, hr, hup]

/-- A Span lead under STOP with 4 095 entries, that runs rule 0 on a channel of its tail and has learned of its rise by VOTE. -/
def lastPlace : State :=
  { State.reset with
      cfg := [(idLog 0, 1), (idAlarm 1 0, 32)],
      log.entries := List.replicate 4095 { seq := 0, era := 0, tick := 0, origin := 0, event := 0, subject := 0, old := 0, new := 0,
                                           check := 0 },
      twin := { State.reset.twin with mode := 1, ruleWait := [{ rule := 0, was := .clear, next := .raised, up := 0, sf := 0 }] } }

theorem lastPlace_full : stopPolicy lastPlace = true ∧ farRule lastPlace (0#8).toNat = true ∧ lastPlace.log.entries.length = 4095 :=
  ⟨by decide +kernel, by decide +kernel, List.length_replicate⟩

/-- Refutes O60: its clause on a RULE message that completes a transition asks for fewer than 4 096 entries and for no policy; in
`lastPlace` the last place takes LOG_FULL (07 R339), and the entry of the transition finds none. -/
theorem not_pairEnergyAndRules : ¬ Obligations.PairEnergyAndRules := by
  intro h
  obtain ⟨hp, hf, hl⟩ := lastPlace_full
  have hm : lastPlace.twin.mode = 1 := rfl
  have hw : lastPlace.twin.ruleWait = [{ rule := 0, was := .clear, next := .raised, up := 0, sf := 0 }] := rfl
  generalize lastPlace = s at hp hf hl hm hw
  obtain ⟨hlead, -⟩ := h s
  obtain ⟨-, -, -, hrule⟩ := hlead hm
  obtain ⟨t, e, he, -, hentries, hevent, -⟩ := hrule 0 1 0 0 _ hf (by decide) hw rfl (by decide) (by omega)
  obtain ⟨full, hfull, hcode⟩ := farRuleNote_last (s := { s with twin.ruleWait := [] }) hp hl 0 .clear .raised (tickNear s 0) 0
  have ht : t = farRuleNote { s with twin.ruleWait := [] } 0 .clear .raised (tickNear s 0) 0 :=
    Host.Outcome.next.inj (he.symm.trans (execTwinRule_completes hw hf (by decide) rfl (by decide) 0 0))
  rw [ht, hfull] at hentries
  obtain rfl : full = e := List.singleton_inj.mp (List.append_cancel_left hentries)
  exact absurd (hcode.symm.trans hevent) (by decide)

end Sys2Proof.Machine
end

section
/-! SUPPORT. Long requests: one waits for the Scheduler's first decision, and with its grant answers ACCEPTED with its task (17 R741, R742, R750). -/

namespace Sys2Proof.Machine

/-! ### The packet on its way (06 R284) -/

/-- What an opcode is given with the outcome of its first decision. -/
def ctxWith (s : State) (h : Hdr) (v : Option Verdict) : Ctx := { ctxOf s h with verdict := v }

/-- A grant of this energy. -/
def grantOf (e : Nat) : Verdict := { status := vGrant, reason := 0, energy := e }

theorem stateAsked_unit (s : State) (p : Packet) : (stateAsked s p).u.st = s.u.st := by unfold stateAsked; split <;> rfl

theorem stateAsked_policy (s : State) (p : Packet) : stopPolicy (stateAsked s p) = stopPolicy s := by
  unfold stateAsked; split <;> rfl

/-- The marks a STATE request leaves on the tasks are no numbers: the next number stays. -/
theorem stateAsked_nextTaskNum (s : State) (p : Packet) : nextTaskNum (stateAsked s p) = nextTaskNum s := by
  unfold stateAsked
  split
  · unfold nextTaskNum stateTaken
    rw [List.map_map]
    congr 1
    refine List.map_congr_left fun t _ => ?_
    show (if _ then _ else _ : TaskRec).num = t.num
    split <;> rfl
  · rfl

/-- A changing packet whose state accepts it comes to its opcode. -/
theorem ownRun_change {s : State} {h : Hdr} {r : Nat} (c : CanChange s h r) {opc : Nat} (pl : List Byte) (ho : opc < 256)
    (ht : stateTakes s.u.st opc = true) (v : Option Verdict) :
    ownRun s (rowPkt h opc pl) v = opRun (stateAsked s (rowPkt h opc pl)) (ctxWith s h v) opc pl := by
  have hst := stateAsked_unit s (rowPkt h opc pl)
  have hw := (stateAsked_policy s (rowPkt h opc pl)).trans c.wraps
  have ho' : (rowPkt h opc pl).opc.toNat = opc := byteOf_toNat ho
  simp only [ownRun, stepsRun, hst, ho', ht, stopHeld, hw]
  simp [ctxWith, ctxOf, rowPkt]

/-- A long request that passes its own checks waits for its decision (17 R750; log 41). -/
theorem rowRun_awaiting {s : State} {h : Hdr} {r : Nat} (c : CanChange s h r) {opc : Nat} (pl : List Byte) (ho : opc < 256)
    (hq : isQuery opc pl = false) (hn : packetNames s (roleOf s h.src.toNat) opc pl = none) (hd : isDecided opc pl = true)
    (ht : stateTakes s.u.st opc = true) {t : State} {data : List Byte}
    (hrun : opRun (stateAsked s (rowPkt h opc pl)) (ctxWith s h none) opc pl = (t, some (answer stAccepted data))) :
    rowRun s h opc pl = awaiting s h opc pl := by
  have hf := fate_change c opc pl ho hq hn
  have hpass : (execTrial s { pkt := rowPkt h opc pl, verdict := none, fwd := none }).2 = true := by
    have hown := (ownRun_change c pl ho ht none).trans hrun
    simp only [execTrial, hf, hown]
    rfl
  have hl := isLead_single c.single
  simp only [rowRun, c.runs, hf, hd, hpass, partsOf_single c.single, hl]
  simp [packetTake, hl, awaiting]

/-- At its decision a long request is executed with the verdict it got. -/
theorem execTaken_granted {s : State} {h : Hdr} {r : Nat} (c : CanChange s h r) {opc : Nat} (pl : List Byte) (ho : opc < 256)
    (hq : isQuery opc pl = false) (hn : packetNames s (roleOf s h.src.toNat) opc pl = none)
    (ht : stateTakes s.u.st opc = true) (e : Nat) {t : State} {data : List Byte}
    (hrun : opRun (stateAsked s (rowPkt h opc pl)) (ctxWith s h (some (grantOf e))) opc pl = (t, some (answer stAccepted data))) :
    execTaken s (grantedPkt h opc pl e) = answered t h stAccepted data := by
  have hown := (ownRun_change c pl ho ht (some (grantOf e))).trans hrun
  have hend : execTaken s (grantedPkt h opc pl e) = resultEnd (ownRun s (rowPkt h opc pl) (some (grantOf e))) (rowPkt h opc pl) := by
    simp only [execTaken, packetEnd, grantedPkt, fate_change c opc pl ho hq hn, partsOf_single c.single]
    rfl
  rw [hend, hown]
  exact packetFinish_change t h opc pl stAccepted data ho (by decide) hq

/-! ### What every long opcode shares (06 R285, 17 R741, R750) -/

/-- A new task stands behind those that stood before, under the next free number. -/
theorem taskNew_stands (s : State) (opc : Nat) (cls : TaskClass) (origin : BitVec 16) (obj : TaskObj) :
    ∃ k ∈ (taskNew s opc cls origin obj).sched.tasks, k.num = nextTaskNum s ∧ k.obj = obj ∧ k.origin = origin :=
  ⟨_, List.mem_append_right _ (List.mem_singleton_self _), rfl, rfl, rfl⟩

/-- The first grant marks the task of its number granted. -/
theorem longNote_grants {s : State} {n : Nat} {k : TaskRec} (hk : k ∈ s.sched.tasks) (hn : k.num = n) (e : Nat) :
    { k with state := .granted, energy := e } ∈ (longNote s n (some (grantOf e))).sched.tasks :=
  List.mem_map.mpr ⟨k, hk, if_pos hn⟩

/-- Before its decision a long opcode that passes is ACCEPTED on trial. -/
theorem longRun_trial (s : State) {c : Ctx} (hv : c.verdict = none) (opc : Nat) (cls : TaskClass) (obj : TaskObj)
    (go : State → Nat → State) : ∃ t, longRun s c opc cls obj go = (t, some (answer stAccepted [byteOf (nextTaskNum s)])) := by
  simp only [longRun, hv]
  exact ⟨_, rfl⟩

/-- With its grant a long opcode is ACCEPTED with its task's number, and the task stands granted. -/
theorem longRun_granted (s : State) {c : Ctx} {e : Nat} (hv : c.verdict = some (grantOf e)) (opc : Nat) (cls : TaskClass)
    (obj : TaskObj) {go : State → Nat → State} (hgo : ∀ x n, (go x n).sched.tasks = x.sched.tasks) :
    ∃ t, longRun s c opc cls obj go = (t, some (answer stAccepted [byteOf (nextTaskNum s)])) ∧
      ∃ k ∈ t.sched.tasks, k.num = nextTaskNum s ∧ k.obj = obj ∧ k.origin = c.origin ∧ k.state = .granted ∧ k.energy = e := by
  obtain ⟨k, hk, hnum, hobj, horg⟩ := taskNew_stands s opc cls c.origin obj
  simp only [longRun, hv]
  refine ⟨_, rfl, { k with state := .granted, energy := e }, ?_, hnum, hobj, horg, rfl, rfl⟩
  rw [hgo]
  exact longNote_grants hk hnum e

/-- A long request whose opcode comes to its task: it waits for its decision, and the grant starts the task. -/
theorem long_starts {s : State} {h : Hdr} {r : Nat} (c : CanChange s h r) {opc : Nat} {pl : List Byte} (ho : opc < 256)
    (hq : isQuery opc pl = false) (hl : lenOk opc pl = some true) (hx : opc ≠ 0x03 ∧ opc ≠ 0x02 ∧ opc ≠ 0x04)
    (hmin : minRole opc pl = r) (hd : isDecided opc pl = true) (ht : stateTakes s.u.st opc = true) {cls : TaskClass} {obj : TaskObj}
    {go : Ctx → State → Nat → State} (hgo : ∀ v x n, (go (ctxWith s h v) x n).sched.tasks = x.sched.tasks)
    (hrun : ∀ v, opRun (stateAsked s (rowPkt h opc pl)) (ctxWith s h v) opc pl =
      longRun (stateAsked s (rowPkt h opc pl)) (ctxWith s h v) opc cls obj (go (ctxWith s h v))) :
    rowRun s h opc pl = awaiting s h opc pl ∧ GrantStarts s h opc pl obj := by
  obtain ⟨hx3, hx2, hx4⟩ := hx
  have hn := packetNames_pass c.single hl hx3 (by simp [readNames, hx2, hx4]) (hmin ▸ c.role)
  have hnum := stateAsked_nextTaskNum s (rowPkt h opc pl)
  constructor
  · obtain ⟨t, htrial⟩ := longRun_trial (stateAsked s (rowPkt h opc pl)) (c := ctxWith s h none) rfl opc cls obj (go (ctxWith s h none))
    exact rowRun_awaiting c pl ho hq hn hd ht ((hrun none).trans htrial)
  · intro e _
    obtain ⟨t, hgrant, htask⟩ := longRun_granted (stateAsked s (rowPkt h opc pl)) (c := ctxWith s h (some (grantOf e))) rfl opc cls obj
      (hgo (some (grantOf e)))
    rw [hnum] at hgrant htask
    exact ⟨t, execTaken_granted c pl ho hq hn ht e ((hrun _).trans hgrant), htask⟩

/-! ### What starts with a task leaves the task table alone -/

theorem nvBegin_sched (s : State) (t : TaskRec) : (nvBegin s t).sched = s.sched := by unfold nvBegin; split <;> rfl

/-- A chore's NV write begins with its grant. -/
def choreGo (c : Ctx) (s : State) (n : Nat) : State :=
  if !vGranted c.verdict then s
  else match taskOf s n with
    | some t => nvBegin s t
    | none => s

theorem choreGo_sched (c : Ctx) (s : State) (n : Nat) : (choreGo c s n).sched = s.sched := by
  unfold choreGo
  split
  · rfl
  · split
    · exact nvBegin_sched ..
    · rfl

theorem stepReady_sched (s : State) (n : Nat) : (stepReady s n).1.sched = s.sched := by
  unfold stepReady
  extract_lets h s1
  have h1 : s1.sched = s.sched := by unfold s1; split <;> rfl
  split_ifs <;> exact h1

theorem heaterLoop_sched (s : State) (n : Nat) : (heaterLoop s n).sched = s.sched := by
  unfold heaterLoop
  split
  · rfl
  · extract_lets r s1 w
    have h1 : s1.sched = s.sched := stepReady_sched s n
    split_ifs <;> exact h1

theorem heatGranted_sched (s : State) (n e : Nat) : (heatGranted s n e).sched = s.sched := by
  unfold heatGranted
  split
  · rfl
  · split <;> rfl

theorem heatDeferred_sched (s : State) (n : Nat) : (heatDeferred s n).sched = s.sched := by
  unfold heatDeferred
  split
  · rfl
  · split <;> rfl

theorem heatFirst_sched (s : State) (n : Nat) (v : Option Verdict) : (heatFirst s n v).sched = s.sched := by
  unfold heatFirst
  split
  · rfl
  · split
    · exact heatDeferred_sched ..
    · exact heatGranted_sched ..

theorem heatStart_sched (s : State) (n p task : Nat) (origin : BitVec 16) : (heatStart s n p task origin).sched = s.sched := by
  simp [heatStart]

theorem leadStart_sched (s : State) (n task : Nat) (origin : BitVec 16) : (leadStart s n task origin).sched = s.sched := by
  simp [leadStart]

theorem profileGo_sched (c : Ctx) (h p : Nat) (s : State) (n : Nat) : (profileGo c h p s n).sched = s.sched := by
  unfold profileGo
  split
  · exact heatStart_sched ..
  · exact (heatFirst_sched ..).trans ((heaterLoop_sched ..).trans (heatStart_sched ..))

theorem zNext_sched (s : State) : (zNext s).sched = s.sched := by unfold zNext; split <;> rfl

theorem zEnqueue_sched (s : State) (n : Nat) (chs : List Nat) : (zEnqueue s n chs).sched = s.sched := by
  unfold zEnqueue
  extract_lets _ s1
  split
  · exact zNext_sched s1
  · rfl

theorem zGo_sched (v : Option Verdict) (chs : List Nat) (s : State) (n : Nat) : (zGo v chs s n).sched = s.sched := by
  unfold zGo
  extract_lets s1 mine
  split <;> exact zEnqueue_sched s n chs

/-! ### The opcodes, their checks passed -/

theorem logBlocked_of_wraps {s : State} (h : stopPolicy s = false) : logBlocked s = false := by simp [logBlocked, h]

theorem tasksFull_of_room {s : State} (h : s.sched.tasks.length < 16) : tasksFull s = false := by simpa [tasksFull] using h

theorem longNote_twin (s : State) (n : Nat) (v : Option Verdict) : (longNote s n v).twin = s.twin := by
  unfold longNote
  split
  · rfl
  · split_ifs <;> rfl

/-- STATE 0's task: a unit in no pair has none to split, and its seal begins with the grant. -/
theorem dormantTask_eq {s : State} (h : s.twin.mode = 0) (c : Ctx) :
    dormantTask s c = longRun s c 0x05 .chore (.sealLog true) (choreGo c) := by
  have hm : ∀ v : Option Verdict, ∀ n : Nat, (longNote (taskNew s 0x05 .chore c.origin (.sealLog true)) n v).twin.mode = 0 :=
    fun v n => (congrArg TwinSt.mode (longNote_twin _ n v)).trans h
  unfold dormantTask longRun
  simp only [twinSplit, hm, if_true]
  rfl

section
variable {s : State} {h : Hdr} {r : Nat}

theorem opLogseal_runs (c : CanChange s h r) (hroom : s.sched.tasks.length < 16) (hs : sealRuns s = false) (x : Ctx) (pl : List Byte) :
    opLogseal s x pl = longRun s x 0x0D .chore (.sealLog false) (choreGo x) :=
  guarded_pass _ _ _ (by simp [logBlocked_of_wraps c.wraps, hs, tasksFull_of_room hroom])

theorem opHeatrun_runs (hroom : s.sched.tasks.length < 16) {n p : Nat} (hn : n < 4) (hp : p < 16) (hf : (htrOf s n).fault = false)
    (hm : stMode (profStep s p 0) ≠ 0) (hr : htrRunning s n = false) (x : Ctx) :
    opHeatrun s x [byteOf n, byteOf p] = longRun s x 0x28 .heat (.profile n) (profileGo x n p) := by
  have h0 : plByte [byteOf n, byteOf p] 0 = n := byteOf_toNat (by omega)
  have h1 : plByte [byteOf n, byteOf p] 1 = p := byteOf_toNat (by omega)
  unfold opHeatrun
  rw [h0, h1]
  exact guarded_pass _ _ _ (by simp [hf, hm, hr, tasksFull_of_room hroom]; omega)

/-- A LEADCAL starts, and takes what its first decision gave. -/
def leadGo (n : Nat) (c : Ctx) (s : State) (k : Nat) : State := heatFirst (leadStart s n k c.origin) n c.verdict

theorem opLeadcal_runs (hroom : s.sched.tasks.length < 16) {n : Nat} (hn : n < 4) (hk : pNat s (idHtr n 0) = 1)
    (hf : (htrOf s n).fault = false) (hr : htrRunning s n = false) (x : Ctx) :
    opLeadcal s x [byteOf n] = longRun s x 0x2B .check (.leadcal n) (leadGo n x) := by
  have h0 : plByte [byteOf n] 0 = n := byteOf_toNat (by omega)
  unfold opLeadcal
  rw [h0]
  exact guarded_pass _ _ _ (by simp [hf, hk, hr, tasksFull_of_room hroom]; omega)

/-- The channels of a check that are in no check yet. -/
def zFree (s : State) (m : Mask) : List Nat := (maskChans (maskVal m)).filter (fun c => !zBusy s c)

theorem opZcheck_runs (hroom : s.sched.tasks.length < 16) {m : Mask} (h0 : maskVal m ≠ 0) (hm : maskVal m < 2 ^ 14)
    (hs : ∀ c ∈ maskChans (maskVal m), (chainOf s c).started = true) (hb : ∃ c ∈ maskChans (maskVal m), zBusy s c = false) (x : Ctx) :
    opZcheck s x (maskBytes m) = longRun s x 0x2C .check (.zcheck (BitVec.ofNat 64 (maskVal m))) (zGo x.verdict (zFree s m)) := by
  have hne : (zFree s m).isEmpty = false := by
    obtain ⟨c, hc, hfree⟩ := hb
    exact List.isEmpty_eq_false_iff.mpr (List.ne_nil_of_mem (List.mem_filter.mpr ⟨hc, by simp [hfree]⟩))
  unfold opZcheck
  rw [plMask_alone, maskOk_of_lt (plMask_alone m) (by omega)]
  refine (guarded_pass _ _ _ ?_).trans (if_neg (ne_true_of_eq_false hne))
  have hall : (maskChans (maskVal m)).all (fun c => (chainOf s c).started) = true := List.all_eq_true.mpr hs
  simp [hall, h0, tasksFull_of_room hroom]
  omega

theorem leadGo_sched (n : Nat) (c : Ctx) (s : State) (k : Nat) : (leadGo n c s k).sched = s.sched :=
  (heatFirst_sched ..).trans (leadStart_sched ..)

/-- STATE 0 from IDLE, the request noted. -/
theorem opState_dormant (hi : s.u.st = .idle) (c : CanChange s h r) (hroom : s.sched.tasks.length < 16) (x : Ctx) :
    opState (stateTaken s) x [0] = longRun (stateTaken s) x 0x05 .chore (.sealLog true) (choreGo x) := by
  have hblock : logBlocked (stateTaken s) = false := logBlocked_of_wraps c.wraps
  have hfull : tasksFull (stateTaken s) = false := tasksFull_of_room (by simpa [stateTaken] using hroom)
  have hreach : stateReach (stateTaken s) 0 = true := by simp [stateReach, stateTaken, hi]
  have h0 : plByte [0] 0 = 0 := rfl
  rw [← dormantTask_eq (s := stateTaken s) c.single x]
  simp only [opState, h0, List.isEmpty_cons]
  exact guarded_pass _ _ _ (by simp [hblock, hfull, hreach])

theorem opNvsave_runs (c : CanChange s h r) (hroom : s.sched.tasks.length < 16) (hr : nvTaskRuns s = false) {m : Byte}
    (h1 : 1 ≤ m.toNat) (h3 : m.toNat ≤ 3) (x : Ctx) :
    opNvsave s x [m] = longRun s x 0x44 .chore (.nvsave m.toNat) (choreGo x) :=
  guarded_pass _ _ _ (by simp [plByte_zero, h1, h3, logBlocked_of_wraps c.wraps, hr, tasksFull_of_room hroom])

theorem opNvload_runs (hroom : s.sched.tasks.length < 16) (hr : nvTaskRuns s = false) {m : Byte}
    (h1 : 1 ≤ m.toNat) (h3 : m.toNat ≤ 3) (hl1 : bit m.toNat 0 = true → loadLocked s 1 = false)
    (hl2 : bit m.toNat 1 = true → loadLocked s 2 = false) (x : Ctx) :
    opNvload s x [m] = longRun s x 0x45 .chore (.nvload m.toNat) (choreGo x) := by
  refine guarded_pass _ _ _ ?_
  have l1 : (!bit m.toNat 0 || !loadLocked s 1) = true := by cases e : bit m.toNat 0 <;> simp [hl1, e]
  have l2 : (!bit m.toNat 1 || !loadLocked s 2) = true := by cases e : bit m.toNat 1 <;> simp [hl2, e]
  simp [plByte_zero, h1, h3, l1, l2, hr, tasksFull_of_room hroom]

theorem natW_toNat (w : Word) : natW (w.toNat % 256 ^ 4) = w := by
  rw [show w.toNat % 256 ^ 4 = w.toNat from Nat.mod_eq_of_lt w.isLt]
  exact (BitVec.ofNat_toNat 32 w).trans (BitVec.setWidth_eq w)

theorem opCalwrite_runs (c : CanChange s h r) (hroom : s.sched.tasks.length < 16) {ch : Nat} (hc : ch < 14) {g o : Word}
    (hg : calOk g (1 / 2) 2 = true) (ho : calOk o (-1048576) 1048576 = true) (x : Ctx) :
    opCalwrite s x (byteOf ch :: (beBytes 4 g.toNat ++ beBytes 4 o.toNat)) =
      longRun s x 0x46 .chore (.calwrite ch (f32Flush g) (f32Flush o)) (choreGo x) := by
  have h0 : plByte (byteOf ch :: (beBytes 4 g.toNat ++ beBytes 4 o.toNat)) 0 = ch := byteOf_toNat (by omega)
  have hG : natW (plField (byteOf ch :: (beBytes 4 g.toNat ++ beBytes 4 o.toNat)) 1 4) = g := by
    rw [plField_succ, plField_front]
    exact natW_toNat g
  have hO : natW (plField (byteOf ch :: (beBytes 4 g.toNat ++ beBytes 4 o.toNat)) 5 4) = o := by
    rw [plField_succ, plField_behind 4 g.toNat 0, plField_last]
    exact natW_toNat o
  unfold opCalwrite
  simp only [h0, hG, hO]
  exact guarded_pass _ _ _ (by rw [hg, ho]; simp [Nat.le_of_lt_succ hc, logBlocked_of_wraps c.wraps, tasksFull_of_room hroom])

end

/-! ### Each opcode's wait and start -/

section
variable {s : State} {h : Hdr}

theorem logseal_starts (c : CanChange s h operator) (hroom : s.sched.tasks.length < 16) (hs : sealRuns s = false) :
    rowRun s h 0x0D [] = awaiting s h 0x0D [] ∧ GrantStarts s h 0x0D [] (.sealLog false) :=
  long_starts c (by decide) rfl rfl (by decide) rfl rfl (by cases s.u.st <;> rfl) (go := choreGo)
    (fun v x n => congrArg SchedSt.tasks (choreGo_sched (ctxWith s h v) x n))
    (fun v => by
      rw [stateAsked_other s h [] (by decide) (.inl (by decide))]
      exact opLogseal_runs c hroom hs (ctxWith s h v) [])

theorem dormant_starts (c : CanChange s h operator) (hroom : s.sched.tasks.length < 16) (hi : s.u.st = .idle) :
    rowRun s h 0x05 [0] = awaiting s h 0x05 [0] ∧ GrantStarts s h 0x05 [0] (.sealLog true) :=
  long_starts c (by decide) rfl rfl (by decide) rfl rfl (by rw [hi]; rfl) (go := choreGo)
    (fun v x n => congrArg SchedSt.tasks (choreGo_sched (ctxWith s h v) x n))
    (fun v => opState_dormant hi c hroom (ctxWith s h v))

theorem heatrun_starts (c : CanChange s h operator) (hroom : s.sched.tasks.length < 16) (hrun : s.u.st = .run) {n p : Nat} (hn : n < 4)
    (hp : p < 16) (hf : (htrOf s n).fault = false) (hm : stMode (profStep s p 0) ≠ 0) (hr : htrRunning s n = false) :
    rowRun s h 0x28 [byteOf n, byteOf p] = awaiting s h 0x28 [byteOf n, byteOf p] ∧
      GrantStarts s h 0x28 [byteOf n, byteOf p] (.profile n) :=
  long_starts c (by decide) rfl rfl (by decide) rfl rfl (by rw [hrun]; rfl) (go := fun x => profileGo x n p)
    (fun v x k => congrArg SchedSt.tasks (profileGo_sched (ctxWith s h v) n p x k))
    (fun v => by
      rw [stateAsked_other s h _ (by decide) (.inl (by decide))]
      exact opHeatrun_runs hroom hn hp hf hm hr (ctxWith s h v))

theorem leadcal_starts (c : CanChange s h operator) (hroom : s.sched.tasks.length < 16) (hrun : s.u.st = .run) {n : Nat} (hn : n < 4)
    (hk : pNat s (idHtr n 0) = 1) (hf : (htrOf s n).fault = false) (hr : htrRunning s n = false) :
    rowRun s h 0x2B [byteOf n] = awaiting s h 0x2B [byteOf n] ∧ GrantStarts s h 0x2B [byteOf n] (.leadcal n) :=
  long_starts c (by decide) rfl rfl (by decide) rfl rfl (by rw [hrun]; rfl) (go := leadGo n)
    (fun v x k => congrArg SchedSt.tasks (leadGo_sched n (ctxWith s h v) x k))
    (fun v => by
      rw [stateAsked_other s h _ (by decide) (.inl (by decide))]
      exact opLeadcal_runs hroom hn hk hf hr (ctxWith s h v))

theorem zcheck_starts (c : CanChange s h operator) (hroom : s.sched.tasks.length < 16) (hrun : s.u.st = .run) {m : Mask}
    (h0 : maskVal m ≠ 0) (hm : maskVal m < 2 ^ 14) (hs : ∀ c ∈ maskChans (maskVal m), (chainOf s c).started = true)
    (hb : ∃ c ∈ maskChans (maskVal m), zBusy s c = false) :
    rowRun s h 0x2C (maskBytes m) = awaiting s h 0x2C (maskBytes m) ∧
      GrantStarts s h 0x2C (maskBytes m) (.zcheck (BitVec.ofNat 64 (maskVal m))) :=
  have hl : lenOk 0x2C (maskBytes m) = some true := by
    simp only [lenOk, maskBytes_length]
    cases m.wide <;> rfl
  long_starts c (by decide) rfl hl (by decide) rfl rfl (by rw [hrun]; rfl) (go := fun x => zGo x.verdict (zFree s m))
    (fun v x k => congrArg SchedSt.tasks (zGo_sched v (zFree s m) x k))
    (fun v => by
      rw [stateAsked_other s h _ (by decide) (.inl (by decide))]
      exact opZcheck_runs hroom h0 hm hs hb (ctxWith s h v))

theorem nvsave_starts (c : CanChange s h keeper) (hroom : s.sched.tasks.length < 16) (hv : s.u.st ≠ .vigil)
    (hr : nvTaskRuns s = false) {m : Byte} (h1 : 1 ≤ m.toNat) (h3 : m.toNat ≤ 3) :
    rowRun s h 0x44 [m] = awaiting s h 0x44 [m] ∧ GrantStarts s h 0x44 [m] (.nvsave m.toNat) :=
  long_starts c (by decide) rfl rfl (by decide) rfl rfl (by exact bne_iff_ne.mpr hv) (go := choreGo)
    (fun v x n => congrArg SchedSt.tasks (choreGo_sched (ctxWith s h v) x n))
    (fun v => by
      rw [stateAsked_other s h _ (by decide) (.inl (by decide))]
      exact opNvsave_runs c hroom hr h1 h3 (ctxWith s h v))

theorem nvload_starts (c : CanChange s h keeper) (hroom : s.sched.tasks.length < 16) (hv : s.u.st ≠ .vigil)
    (hr : nvTaskRuns s = false) {m : Byte} (h1 : 1 ≤ m.toNat) (h3 : m.toNat ≤ 3)
    (hl1 : bit m.toNat 0 = true → loadLocked s 1 = false) (hl2 : bit m.toNat 1 = true → loadLocked s 2 = false) :
    rowRun s h 0x45 [m] = awaiting s h 0x45 [m] ∧ GrantStarts s h 0x45 [m] (.nvload m.toNat) :=
  long_starts c (by decide) rfl rfl (by decide) rfl rfl (by exact bne_iff_ne.mpr hv) (go := choreGo)
    (fun v x n => congrArg SchedSt.tasks (choreGo_sched (ctxWith s h v) x n))
    (fun v => by
      rw [stateAsked_other s h _ (by decide) (.inl (by decide))]
      exact opNvload_runs hroom hr h1 h3 hl1 hl2 (ctxWith s h v))

theorem calwrite_starts (c : CanChange s h keeper) (hroom : s.sched.tasks.length < 16) (hv : s.u.st ≠ .vigil) {ch : Nat} (hc : ch < 14)
    {g o : Word} (hg : calOk g (1 / 2) 2 = true) (ho : calOk o (-1048576) 1048576 = true) :
    rowRun s h 0x46 (byteOf ch :: (beBytes 4 g.toNat ++ beBytes 4 o.toNat)) =
      awaiting s h 0x46 (byteOf ch :: (beBytes 4 g.toNat ++ beBytes 4 o.toNat)) ∧
    GrantStarts s h 0x46 (byteOf ch :: (beBytes 4 g.toNat ++ beBytes 4 o.toNat)) (.calwrite ch (f32Flush g) (f32Flush o)) :=
  long_starts c (by decide) rfl rfl (by decide) rfl rfl (by exact bne_iff_ne.mpr hv) (go := choreGo)
    (fun v x n => congrArg SchedSt.tasks (choreGo_sched (ctxWith s h v) x n))
    (fun v => by
      rw [stateAsked_other s h _ (by decide) (.inl (by decide))]
      exact opCalwrite_runs c hroom hc hg ho (ctxWith s h v))

end

/-- Settles O36: each opcode's checks pass, so that it comes to its task; the trial without a verdict passes, which makes the request wait, and
the grant marks the task that the table has taken. -/
theorem longRequestsStartTasks : Obligations.LongRequestsStartTasks := by
  intro s h hroom
  refine ⟨fun c hs => ?_, fun c hi => ?_, fun c hrun n p hf hm hr => ?_, fun c hrun n hk hf hr => ?_,
    fun c hrun m h0 hm hs hb => ?_, fun c hv hr m h1 h3 => ⟨?_, fun hl1 hl2 => ?_⟩, fun c hv ch g o hg ho => ?_⟩
  · exact (logseal_starts c hroom hs).imp_left (congrArg Host.Outcome.next)
  · exact (dormant_starts c hroom hi).imp_left (congrArg Host.Outcome.next)
  · exact (heatrun_starts c hroom hrun n.isLt p.isLt hf hm hr).imp_left (congrArg Host.Outcome.next)
  · exact (leadcal_starts c hroom hrun n.isLt hk hf hr).imp_left (congrArg Host.Outcome.next)
  · exact (zcheck_starts c hroom hrun h0 hm hs hb).imp_left (congrArg Host.Outcome.next)
  · exact (nvsave_starts c hroom hv hr h1 h3).imp_left (congrArg Host.Outcome.next)
  · exact (nvload_starts c hroom hv hr h1 h3 hl1 hl2).imp_left (congrArg Host.Outcome.next)
  · exact (calwrite_starts c hroom hv ch.isLt hg ho).imp_left (congrArg Host.Outcome.next)

end Sys2Proof.Machine
end

section
/-! SUPPORT. The decision of a superframe, the checks that fall due, and the tone of a check (13 R586, R587, R589, R590, R598, 17 R744). -/

namespace Sys2Proof.Machine

/-! ### The decision (17 R744) -/

theorem schedulerDecision_due {s : State} (ha : alive s = true) (hp : s.t.p = 496) (h1 : s.twin.mode ≠ 1) (h3 : s.twin.mode ≠ 3)
    (hd : s.sched.doneSf ≠ some s.t.sf) : exec .schedulerDecision s = .next (decideAlone s) := by
  have hdue : decideDue s 496 = true := by simp [decideDue, ha, hp, hd]
  show execSchedulerDecision s = _
  simp [execSchedulerDecision, hdue, h1, h3]

theorem schedulerDecision_done {s : State} (hd : s.sched.doneSf = some s.t.sf) : exec .schedulerDecision s = .next s := by
  have hdue : decideDue s 496 = false := by simp [decideDue, hd]
  show execSchedulerDecision s = _
  simp [execSchedulerDecision, hdue]

/-! ### Checks that fall due (13 R598) -/

/-- The task that the channels due form. -/
def dueTask (s : State) : TaskRec :=
  { num := nextTaskNum s, opc := 0x2C, cls := .check, origin := orgUnit,
    obj := .periodic (((List.range 14).filter (checkDue s)).headD 0), born := s.t.sf, state := .waiting, reason := 0, defers := 0,
    logged := none, energy := 0, stage := 0 }

theorem periodicCreate_tasks {s : State} (hfull : tasksFull s = false) (hdue : (List.range 14).filter (checkDue s) ≠ []) :
    (periodicCreate s).sched.tasks = s.sched.tasks ++ [dueTask s] := by
  unfold periodicCreate
  extract_lets chs obj
  rw [if_neg (by simpa [chs] using hdue), if_neg (by simp [hfull]), zEnqueue_sched]
  rfl

/-! ### The start of a tone (13 R589, R590) -/

/-- What the start of a tone leaves of the tone it was granted: its first tick, and the settings as they stand at its check's start. -/
structure ToneBegun (s : State) (r q : ZRun) : Prop where
  began  : q.t0 = some s.t.up
  target : q.target = r.target
  fresh  : r.cycles = 0 → q.inc = toneInc s r ∧ q.cycles = pNat s (idZchk 2 (zHead r)) + 1 ∧ q.ampl = pVal s (idZchk 1 (zHead r))
  again  : r.cycles ≠ 0 → q.inc = r.inc ∧ q.cycles = r.cycles ∧ q.ampl = r.ampl

/-- The run as its tone begins. -/
def begunRun (s : State) (r : ZRun) : ZRun :=
  let r0 := if r.cycles = 0 then toneSettings s r else r
  let r1 : ZRun := { r0 with t0 := some s.t.up, tEnd := 0, pts := [{ tick := s.t.up, val := firstPoint s r }],
                             chans := r0.chans.map (fun x => { x with xs := [], invalid := false }) }
  if toneFit s r then r1 else r1.spoil

theorem begunRun_begun (s : State) (r : ZRun) : ToneBegun s r (begunRun s r) := by
  unfold begunRun
  by_cases hc : r.cycles = 0
  · rw [if_pos hc]
    split_ifs <;> exact ⟨rfl, rfl, fun _ => ⟨rfl, rfl, rfl⟩, fun h => absurd hc h⟩
  · rw [if_neg hc]
    split_ifs <;> exact ⟨rfl, rfl, fun h => absurd h hc, fun _ => ⟨rfl, rfl, rfl⟩⟩

/-- A mark of a channel opens at this tick. -/
def markNow (k : MarkKind) (s : State) (c : Nat) : State := modChain s c (markOpen k s.t.up)

/-- Settings, Seam and run are no channel's marks. -/
theorem markNow_each (k : MarkKind) (s : State) (l : List Nat) :
    (forEach s l (markNow k)).z = s.z ∧ (forEach s l (markNow k)).cfg = s.cfg ∧ (forEach s l (markNow k)).seam = s.seam :=
  ⟨forEach_same State.z (f := markNow k) (fun _ _ => rfl) l s, forEach_same State.cfg (f := markNow k) (fun _ _ => rfl) l s,
    forEach_same State.seam (f := markNow k) (fun _ _ => rfl) l s⟩

/-- The unit as a tone begins: the realised frequency of a check that starts, the run, and the marks of its channels. -/
def begunState (s : State) (r : ZRun) : State :=
  let s0 := if r.cycles = 0 then forEach s (r.chans.map ZChan.ch) realNote else s
  forEach (forEach { s0 with z.run := some (begunRun s r) } (zChansOf r.target) (markNow .tone)) (r.chans.map ZChan.ch) (markNow .tested)

theorem toneStart_begun {s : State} {r : ZRun} (hr : s.z.run = some r) (hg : r.granted = true) (h0 : r.t0 = none)
    (hp : s.t.p = toneTick r) : exec .toneStart s = .next (begunState s r) := by
  have hgo : (!r.granted || r.t0.isSome || s.t.p != toneTick r) = false := by simp [hg, h0, hp]
  show execToneStart s = _
  simp only [execToneStart, hr, hgo, Bool.false_eq_true, if_false]
  rfl

theorem begunState_z (s : State) (r : ZRun) : (begunState s r).z.run = some (begunRun s r) := by
  unfold begunState
  rw [(markNow_each .tested _ _).1, (markNow_each .tone _ _).1]

/-- A start reads settings and marks channels: neither the configuration nor the Seam is touched. -/
theorem begunState_cfg_seam (s : State) (r : ZRun) : (begunState s r).cfg = s.cfg ∧ (begunState s r).seam = s.seam := by
  have hnote : (forEach s (r.chans.map ZChan.ch) realNote).cfg = s.cfg ∧ (forEach s (r.chans.map ZChan.ch) realNote).seam = s.seam :=
    ⟨forEach_same State.cfg (f := realNote) (fun _ _ => rfl) _ s, forEach_same State.seam (f := realNote) (fun _ _ => rfl) _ s⟩
  unfold begunState
  obtain ⟨-, hcfg, hseam⟩ := markNow_each .tested (forEach { if r.cycles = 0 then forEach s (r.chans.map ZChan.ch) realNote else s with
    z.run := some (begunRun s r) } (zChansOf r.target) (markNow .tone)) (r.chans.map ZChan.ch)
  rw [hcfg, hseam, (markNow_each .tone _ _).2.1, (markNow_each .tone _ _).2.2]
  split
  · exact hnote
  · exact ⟨rfl, rfl⟩

/-! ### Its codes and half-periods (13 R586, R587) -/

theorem biasHanded_toneBias (s : State) {k : Nat} (hk : k < 4) (c : BitVec 14) : biasHanded (toneBias s k c) k = c := by
  unfold biasHanded toneBias
  simp [vget_vset_same, hk]

theorem toneCode_next {s : State} {r : ZRun} {k t0 : Nat} (hr : s.z.run = some r) (ht : r.target = .cell k) (h0 : r.t0 = some t0)
    (hg : r.granted = true) (he : r.tEnd = 0) (hp : s.t.p % 8 = 0) (hover : s.t.up + 1 < toneOver r t0) {x : Rat} {c : BitVec 14}
    (hx : x = r.ampl * sinT (toneTurns r t0 ((s.t.up + 1 : Nat) : Rat))) (hc : c = biasCode ((cellOf s k).target + x)) :
    exec .toneCode s = .next (toneAdd (toneBias s k c) { r with tone := x } (s.t.up + 1) (biasVolt c)) := by
  have hdrop : toneDropped s r = false := by simp [toneDropped, hg]
  have hn : ¬ toneOver r t0 ≤ s.t.up + 1 := Nat.not_le.mpr hover
  show execToneCode s = _
  simp [execToneCode, hr, ht, h0, hp, he, hdrop, hn, hx, hc]

/-- The decade of the half-period that begins at the next tick: the tone starts one below the film's own. -/
def halfDecade (s : State) (r : ZRun) (n t0 : Nat) : Nat :=
  if (s.t.up + 1 - t0) / r.inc % 2 = 0 then (frontOf s (8 + n)).range - 1 else (frontOf s (8 + n)).range

theorem filmToneToggle_next {s : State} {r : ZRun} {n t0 : Nat} (hr : s.z.run = some r) (ht : r.target = .film n) (h0 : r.t0 = some t0)
    (hg : r.granted = true) (he : r.tEnd = 0) (hp : s.t.p % 8 = 3) (hover : s.t.up + 1 < toneOver r t0) (hi : r.inc ≠ 0)
    (hhalf : (s.t.up + 1 - t0) % r.inc = 0) (hd : (frontOf s (8 + n)).range ≠ 0) :
    exec .filmToneToggle s =
      .next (toneAdd (toneReg s n (halfDecade s r n t0)) r (s.t.up + 1) (decadeA (halfDecade s r n t0))) := by
  have hdrop : toneDropped s r = false := by simp [toneDropped, hg]
  have hn : ¬ toneOver r t0 ≤ s.t.up + 1 := Nat.not_le.mpr hover
  show execFilmToneToggle s = _
  simp [execFilmToneToggle, hr, ht, h0, hp, he, hdrop, hn, hi, hhalf, hd, halfDecade]

/-- Settles O57: each row's guard is met, and what its step writes is read off the state it leaves. -/
theorem decisionsAndChecks : Obligations.DecisionsAndChecks := by
  intro s
  refine ⟨fun ha hp h1 h3 => ⟨schedulerDecision_due ha hp h1 h3, schedulerDecision_done⟩, fun ha hp ho hf hd => ?_,
    fun r hr hg h0 hp => ?_, fun r k t0 hr ht h0 hg he hp hover => ?_, fun r n t0 hr ht h0 hg he hp hover hi hhalf hd => ?_⟩
  · have hrow : exec .periodicCheckDue s = .next (periodicCreate s) := by
      show execPeriodicCheckDue s = _
      simp [execPeriodicCheckDue, ha, hp, ho]
    exact ⟨_, dueTask s, hrow, periodicCreate_tasks hf hd, rfl, rfl, rfl, rfl, rfl⟩
  · obtain ⟨began, target, fresh, again⟩ := begunRun_begun s r
    obtain ⟨hcfg, hseam⟩ := begunState_cfg_seam s r
    exact ⟨_, _, toneStart_begun hr hg h0 hp, begunState_z s r, began, target, fresh, again, hcfg, hseam⟩
  · intro c
    exact ⟨_, toneCode_next hr ht h0 hg he hp hover rfl (congrArg (fun x : Cell => biasCode (x.target + _)) (cell_getElem s k)), biasHanded_toneBias s k.isLt c, rfl, rfl⟩
  · intro v
    exact ⟨_, filmToneToggle_next hr ht h0 hg he hp hover hi hhalf hd, rfl, rfl⟩

end Sys2Proof.Machine
end

section
/-! SUPPORT. What NV writes and loads leave when they end well (03 R156, 07 R316, R343, 12 R543, 20 R887–R890). -/

namespace Sys2Proof.Machine

/-! ### The end of a task -/

/-- The end of a task is a matter of the table, the Logbook and the event queue. -/
theorem taskEnd_shape (s : State) (n status reason : Nat) (result : List Byte) : taskEnd s n status reason result =
    { s with sched := (taskEnd s n status reason result).sched, log := (taskEnd s n status reason result).log,
             cmd := (taskEnd s n status reason result).cmd } := by
  unfold taskEnd taskEndBy taskDone queueEvent
  split
  · rfl
  · dsimp only
    split <;> rfl

theorem taskEnd_nv (s : State) (n status reason : Nat) (result : List Byte) : (taskEnd s n status reason result).nv = s.nv := by
  rw [taskEnd_shape]
theorem taskEnd_u (s : State) (n status reason : Nat) (result : List Byte) : (taskEnd s n status reason result).u = s.u := by
  rw [taskEnd_shape]
theorem taskEnd_ring (s : State) (n status reason : Nat) (result : List Byte) : (taskEnd s n status reason result).ring = s.ring := by
  rw [taskEnd_shape]
theorem taskEnd_rights (s : State) (n status reason : Nat) (result : List Byte) :
    (taskEnd s n status reason result).rights = s.rights := by rw [taskEnd_shape]
theorem taskEnd_chain (s : State) (n status reason : Nat) (result : List Byte) : (taskEnd s n status reason result).chain = s.chain := by
  rw [taskEnd_shape]

/-! ### NVSAVE (20 R887) -/

theorem nvsaveDone_good {s : State} {k : TaskRec} {c : CfgImage × CopyImage} {m : Nat} (hc : s.nv.staged = some c) (region2 : Bool)
    (hk : nvTask s (if region2 then 2 else 1) = some k) (ho : k.obj = .nvsave m) :
    exec (.nvsaveDone region2 true) s = .next (saveGood s k m (if region2 then 2 else 1) c) := by
  show execNvsaveDone region2 true s = _
  simp only [execNvsaveDone, hk, hc, ho, if_true]

/-- The configuration image is kept as it was fixed; the copies follow where the mask names them. -/
theorem saveGood_config (s : State) (k : TaskRec) (m : Nat) (c : CfgImage × CopyImage) :
    (saveGood s k m 1 c).nv.cfg = .good c.1 ∧ (saveGood s k m 1 c).nv.nvwConfig = s.nv.nvwConfig + 1 ∧
      (saveGood s k m 1 c).ring.savedPeg = c.1.peg ∧ (saveGood s k m 1 c).ring.savedHop = c.1.hop ∧
      (saveGood s k m 1 c).nv.writing = if bit m 1 then some (2, k.num) else none := by
  simp only [saveGood, saveNext]
  cases bit m 1
  · simp [taskEnd_nv, taskEnd_ring, nvFree]
  · simp

/-- The copies are kept as they were fixed, and the write is over. -/
theorem saveGood_copies (s : State) (k : TaskRec) (m : Nat) (c : CfgImage × CopyImage) :
    (saveGood s k m 2 c).nv.copies = .good c.2 ∧ (saveGood s k m 2 c).nv.nvwCopies = s.nv.nvwCopies + 1 ∧
      (saveGood s k m 2 c).nv.writing = none ∧ (saveGood s k m 2 c).nv.cfg = s.nv.cfg := by
  simp [saveGood, saveNext, taskEnd_nv, nvFree]

/-! ### CALWRITE (12 R543) -/

theorem calLog_shape (s : State) (o : BitVec 16) (sub : Nat) (old new : Word) :
    calLog s o sub old new = { s with log := (calLog s o sub old new).log } := by
  unfold calLog
  split
  · rfl
  · exact logE_shape ..

/-- The image a calibration leaves. -/
def calImage (s : State) (ch : Nat) (g o : Word) : CfgImage :=
  { calBase s with gains := (calBase s).gains.set ch g, offs := (calBase s).offs.set ch o }

/-- The unit with a calibration in its chain and its image, before the entries and the task's end. -/
def calKept (s : State) (ch : Nat) (g o : Word) : State :=
  modChain { s with nv := { s.nv with cfg := .good (calImage s ch g o), nvwConfig := s.nv.nvwConfig + 1,
                                      imageCrc := cfgCrc (calImage s ch g o) } } ch (fun x => { x with gain := g, off := o })

/-- The entries of the values that changed. -/
def calLogged (s : State) (k : TaskRec) (ch : Nat) (g o : Word) : State :=
  calLog (calLog (calKept s ch g o) (taskOrg k) ch (chainOf s ch).gain g) (taskOrg k) (ch + 256) (chainOf s ch).off o

theorem calLogged_shape (s : State) (k : TaskRec) (ch : Nat) (g o : Word) :
    calLogged s k ch g o = { calKept s ch g o with log := (calLogged s k ch g o).log } := by
  unfold calLogged
  rw [calLog_shape (calLog _ _ _ _ _), calLog_shape (calKept s ch g o)]

theorem calwriteDone_good {s : State} {k : TaskRec} {ch : Nat} {g o : Word} (hk : nvTask s 1 = some k)
    (ho : k.obj = .calwrite ch g o) :
    exec (.calwriteDone true) s = .next (taskEnd (nvFree (calLogged s k ch g o)) k.num 0 0 []) := by
  show execCalwriteDone true s = _
  simp only [execCalwriteDone, hk, ho, Bool.not_true, Bool.false_eq_true, if_false]
  rfl

/-- A calibration written stands in its chain alone, the configuration as it was, and the write is over. -/
theorem calwrite_kept (s : State) (k : TaskRec) {ch : Nat} (hc : ch < 14) (g o : Word) {t : State}
    (ht : t = taskEnd (nvFree (calLogged s k ch g o)) k.num 0 0 []) :
    (chainOf t ch).gain = g ∧ (chainOf t ch).off = o ∧ t.nv.writing = none ∧ (∀ d, d ≠ ch → chainOf t d = chainOf s d) ∧
      t.cfg = s.cfg := by
  subst ht
  have hchain : (taskEnd (nvFree (calLogged s k ch g o)) k.num 0 0 []).chain = (calKept s ch g o).chain := by
    rw [taskEnd_chain, calLogged_shape]
    rfl
  have hcfg : (taskEnd (nvFree (calLogged s k ch g o)) k.num 0 0 []).cfg = s.cfg := by
    rw [taskEnd_cfg, calLogged_shape]
    rfl
  simp only [chainOf, hchain, hcfg, taskEnd_nv]
  have hsame := chainOf_modChain_same { s with nv := (calKept s ch g o).nv } hc (fun x => { x with gain := g, off := o })
  exact ⟨congrArg Chain.gain hsame, congrArg Chain.off hsame, rfl,
    fun d hd => chainOf_modChain_other { s with nv := (calKept s ch g o).nv } (Ne.symm hd) _, trivial⟩

/-! ### Seals and the rights record (03 R156, 07 R316, R343) -/

theorem rightsRecordWrite_good {s : State} {k : TaskRec} (hk : nvTask s 4 = some k) :
    exec (.rightsRecordWrite true) s = .next (taskEnd (nvFree { s with nv := { s.nv with
      rights := .good { roles := s.rights.roles, recoveries := s.rights.recoveries }, nvwRights := s.nv.nvwRights + 1 } }) k.num 0 0 []) := by
  show execRightsRecordWrite true s = _
  simp only [execRightsRecordWrite, hk]
  rfl

/-- The descriptor of the entries a seal has fixed. -/
def sealOf (s : State) : SealDesc :=
  { crc := sealCrc s.nv.sealing, seq := (s.nv.sealing.getLast?.map Entry.seq).getD 0, count := s.nv.sealing.length,
    writes := (readLog s 0x12).toNat + 1 }

/-- The unit with its seal written. -/
def sealedState (s : State) : State := nvFree { s with nv := { s.nv with sealDesc := .good (sealOf s), sealEnts := s.nv.sealing } }

theorem logSealTask_good {s : State} {k : TaskRec} (hk : nvTask s 3 = some k) (ho : k.obj = .sealLog false) :
    exec (.logSealTask true) s = .next (taskEnd (sealedState s) k.num 0 0 []) := by
  show execLogSealTask true s = _
  simp only [execLogSealTask, hk, ho]
  rfl

theorem dormantArm_good {s : State} {k : TaskRec} (hk : nvTask s 3 = some k) (ho : k.obj = .sealLog true) (hs : k.stage = 0) :
    exec (.dormantArm true) s = .next (taskEnd { sealedState s with u.armed := true } k.num 0 0 []) := by
  show execDormantArm true s = _
  simp only [execDormantArm, hk, ho, sealTask, hs, if_true]
  rfl

/-! ### NVLOAD (20 R888–R890) -/

theorem loadNext_shape (s : State) (k : TaskRec) (m region : Nat) : loadNext s k m region =
    { s with sched := (loadNext s k m region).sched, log := (loadNext s k m region).log, cmd := (loadNext s k m region).cmd } := by
  unfold loadNext
  split
  · rfl
  · exact taskEnd_shape ..

theorem nvLoadApply_good {s : State} {k : TaskRec} {m : Nat} (hp : s.t.p = 0) (ho : k.obj = .nvload m) (region2 : Bool)
    (hk : s.sched.tasks.find? (loadsRegion (if region2 then 2 else 1)) = some k) :
    exec (.nvLoadApply region2) s = .next (loadRegion s k m (if region2 then 2 else 1)) := by
  show execNvLoadApply region2 s = _
  simp only [execNvLoadApply, hk, hp, ho]
  rfl

/-- One copied waveform, kept where it fits its area and marked skipped where not. -/
def waveLoad (s : State) (w : Nat × List (BitVec 16)) : State :=
  if w.2.length ≤ waveSize s w.1 then { s with wave.points := vset s.wave.points w.1 w.2 }
  else { s with wave.skipped := putBit s.wave.skipped w.1 true }

theorem waveLoads_shape (ws : List (Nat × List (BitVec 16))) (s : State) :
    ws.foldl waveLoad s = { s with wave := (ws.foldl waveLoad s).wave } := by
  induction ws generalizing s with
  | nil => rfl
  | cons w ws ih =>
    have hstep : waveLoad s w = { s with wave := (waveLoad s w).wave } := by unfold waveLoad; split <;> rfl
    rw [List.foldl_cons, ih, hstep]

/-- Waveforms change nothing but waveforms. -/
theorem loadWaves_shape (s : State) (ws : List (Nat × List (BitVec 16))) : loadWaves s ws = { s with wave := (loadWaves s ws).wave } :=
  waveLoads_shape ws { s with wave.points := Vector.replicate 16 [], wave.skipped := 0 }

/-- A region 2 that is good and free: its profiles, and the configuration and NV as they were. -/
theorem loadRegion_copies {s : State} {i : CopyImage} (hl : loadLocked s 2 = false) (hi : s.nv.copies = .good i) (k : TaskRec) (m : Nat) :
    (loadRegion s k m 2).profiles = profilesOf i.profiles ∧ (loadRegion s k m 2).cfg = s.cfg ∧ (loadRegion s k m 2).nv = s.nv := by
  have hrun : loadRegion s k m 2 = loadNext (logE (loadCopies s i) (loadOrg k) 0x0004 2 0 (copyCrc i)) k m 2 := by
    simp [loadRegion, hi, hl]
  rw [hrun, loadNext_shape]
  simp only [logE_profiles, logE_cfg, logE_nv, loadCopies]
  rw [loadWaves_shape]
  exact ⟨rfl, rfl, rfl⟩

/-- The unit with the numbers and the calibration of an image whose saved values it holds already. -/
def loadSame (s : State) (o : BitVec 16) (i : CfgImage) : State :=
  wavesMoved s (loadCal (forEach { logE s o 0x0004 1 (natW 0) (cfgCrc i) with
    nv.imageCrc := cfgCrc i, ring.savedPeg := i.peg, ring.savedHop := i.hop } (List.range 4) rampCatch) i)

theorem loadCfg_same {s : State} {i : CfgImage} (h : loadPairs s i = []) (o : BitVec 16) : loadCfg s o i = loadSame s o i := by
  have ht : loadTaken s [] = [] := rfl
  simp only [loadCfg, h, ht, List.foldl_nil, List.length_nil, Nat.sub_self, loadPut, loadSame]

/-- What of the unit neither a ramp, a chain nor a waveform is part of. -/
def numbersOf (s : State) : List (Nat × Word) × NvSt × RingSt := (s.cfg, s.nv, s.ring)

theorem numbersOf_wavesMoved (s0 s : State) : numbersOf (wavesMoved s0 s) = numbersOf s :=
  forEach_same numbersOf (fun s x => by split <;> rfl) _ s

theorem chain_wavesMoved (s0 s : State) : (wavesMoved s0 s).chain = s.chain :=
  forEach_same State.chain (fun s x => by split <;> rfl) _ s

/-- The calibration an image gives one channel. -/
def calLoad (i : CfgImage) (s : State) (c : Nat) : State :=
  modChain s c (fun ch => { ch with gain := i.gains.getD c 0x3F800000, off := i.offs.getD c 0 })

theorem loadCal_each (s : State) (i : CfgImage) : loadCal s i = forEach s (List.range 14) (calLoad i) := rfl

theorem numbersOf_loadCal (s : State) (i : CfgImage) : numbersOf (loadCal s i) = numbersOf s :=
  forEach_same numbersOf (f := calLoad i) (fun _ _ => rfl) _ s

theorem numbersOf_rampCatch (s : State) (k : Nat) : numbersOf (rampCatch s k) = numbersOf s := by
  rw [rampCatch_shape]
  rfl

theorem loadCal_gain (s : State) (i : CfgImage) {c : Nat} (hc : c < 14) :
    (chainOf (loadCal s i) c).gain = i.gains.getD c 0x3F800000 := by
  rw [loadCal_each]
  refine forEach_reaches (P := fun t => (chainOf t c).gain = i.gains.getD c 0x3F800000) (fun s => ?_) (fun s d h => ?_)
    (.inl (List.mem_range.mpr hc))
  · rw [calLoad, chainOf_modChain_same s hc]
  · by_cases hd : d = c
    · rw [hd, calLoad, chainOf_modChain_same s hc]
    · rw [calLoad, chainOf_modChain_other s hd, h]

theorem loadSame_numbers (s : State) (o : BitVec 16) (i : CfgImage) : numbersOf (loadSame s o i) =
    (s.cfg, { s.nv with imageCrc := cfgCrc i }, { s.ring with savedPeg := i.peg, savedHop := i.hop }) := by
  unfold loadSame
  rw [numbersOf_wavesMoved, numbersOf_loadCal, forEach_same numbersOf numbersOf_rampCatch]
  rfl

/-- A region 1 that is good and free, and holds the present values: the numbers and the calibration of its image, and nothing of the
configuration. -/
theorem loadRegion_same {s : State} {i : CfgImage} (hl : loadLocked s 1 = false) (hi : s.nv.cfg = .good i) (hp : loadPairs s i = [])
    (k : TaskRec) (m : Nat) :
    numbersOf (loadRegion s k m 1) = (s.cfg, { s.nv with imageCrc := cfgCrc i }, { s.ring with savedPeg := i.peg, savedHop := i.hop }) ∧
      ∀ c < 14, (chainOf (loadRegion s k m 1) c).gain = i.gains.getD c 0x3F800000 := by
  have hrun : loadRegion s k m 1 = loadNext (loadSame s (loadOrg k) i) k m 1 := by
    simp [loadRegion, hi, hl, loadCfg_same hp]
  rw [hrun, loadNext_shape]
  refine ⟨loadSame_numbers s (loadOrg k) i, fun c hc => ?_⟩
  simp only [chainOf, loadSame, chain_wavesMoved]
  exact loadCal_gain _ i hc

/-! ### The obligation -/

/-- Settles O37: the task whose write holds the region decides the row, which leaves the state written out for it; its end is a matter of the
table, the Logbook and the events, and a load of present values only of numbers and calibration. -/
theorem nvTasksEnd : Obligations.NvTasksEnd := by
  refine ⟨fun s k c hc => ⟨fun hk m ho => ?_, fun hk m ho => ?_, fun hk ch g o ho => ?_, fun hk => ?_, fun hk => ⟨fun ho e he => ?_,
    fun ho hs => ?_⟩⟩, fun s k m hp ho => ⟨fun hk hl i hi => ?_, fun hk hl i hi hpairs => ?_⟩⟩
  · exact ⟨_, nvsaveDone_good hc false hk ho, saveGood_config s k m c⟩
  · exact ⟨_, nvsaveDone_good hc true hk ho, saveGood_copies s k m c⟩
  · refine ⟨_, calwriteDone_good hk ho, ?_⟩
    simp only [chain_getElem]
    obtain ⟨hgain, hoff, hw, hother, hcfg⟩ := calwrite_kept s k ch.isLt g o rfl
    exact ⟨hgain, hoff, hw, fun d hd => hother d (Fin.val_ne_of_ne hd), hcfg⟩
  · exact ⟨_, rightsRecordWrite_good hk, by rw [taskEnd_nv]; rfl, by rw [taskEnd_rights]; rfl, by rw [taskEnd_nv]; rfl⟩
  · refine ⟨_, sealOf s, logSealTask_good hk ho, ?_⟩
    rw [taskEnd_nv, taskEnd_u]
    exact ⟨rfl, by simp [sealOf, he], rfl, rfl, rfl, rfl⟩
  · exact ⟨_, dormantArm_good hk ho hs, by rw [taskEnd_u]; rfl, by rw [taskEnd_nv]; rfl⟩
  · exact ⟨_, nvLoadApply_good hp ho true hk, loadRegion_copies hl hi k m⟩
  · obtain ⟨hnum, hgain⟩ := loadRegion_same hl hi hpairs k m
    obtain ⟨hcfg, hrest⟩ := Prod.mk.inj hnum
    obtain ⟨hnv, hring⟩ := Prod.mk.inj hrest
    refine ⟨_, nvLoadApply_good hp ho false hk, hcfg, congrArg NvSt.imageCrc hnv, congrArg RingSt.savedPeg hring,
      congrArg RingSt.savedHop hring, fun c => ?_⟩
    rw [chain_getElem]
    exact hgain c c.isLt

end Sys2Proof.Machine
end
